-- ==== Sys2Proof/Word.lean ====
section
/-!
DEFINITION. The words the module's registers, memory and lines are made of: bytes, 32-bit register and
instruction operands, 64-bit instruction words and counters, 512 B lines (R213) and their byte masks (R259).
-/
namespace Sys2Proof

/-- One byte of memory. -/
abbrev Byte := BitVec 8

/-- One 32-bit register, lane value or register-file word (R109, R535). -/
abbrev Word := BitVec 32

/-- One 64-bit instruction word (R175). -/
abbrev IWord := BitVec 64

/-- The data of one 512 B line; byte `i` of the line is bits `8i + 7 .. 8i` (R213). -/
abbrev LineData := BitVec 4096

/-- The byte mask of a line write: bit `i` covers byte `i` (R259). -/
abbrev ByteMask := BitVec 512

/-- The poison marks of the four sectors of a line (R213, R309). -/
abbrev Marks := BitVec 4

end Sys2Proof
end

