-- ==== Sys2Proof/Syntax.lean ====
section
/-!
DEFINITION. The commands of the block: one constructor of `Instr` per row of spec/opcode_table.json, with its
operands. What the environment observes or chooses inside a step (a measurement, a placement, a moment of device
time, the bytes that arrive) is an operand (log entry 1). Operands of a bounded range have a bounded type.
-/
namespace Sys2Proof

/-- A function number: 0 for the PF, 1 to 255 for VF1 to VF255 (R60). -/
abbrev Fn := Fin 256

/-- A logical core number (R6). Whether the grade has it is a fact of the state. -/
abbrev CoreNo := Fin 256

/-- A physical site number (R27). -/
abbrev Psn := Fin 288

/-- A thread group: its core and group slot (R108). -/
structure GroupRef where
  core : CoreNo
  slot : Fin 64
  deriving DecidableEq, Repr

/-- The bits of an R-format word other than MAJOR and FUNC (R180). -/
structure RFields where
  guard : BitVec 5
  dst   : BitVec 7
  sa    : BitVec 7
  sb    : BitVec 7
  sc    : BitVec 7
  mod   : BitVec 16
  deriving DecidableEq, Repr

/-- The bits of an I-format word other than MAJOR and FUNC (R180). -/
structure IFields where
  guard : BitVec 5
  dst   : BitVec 7
  sa    : BitVec 7
  imm   : BitVec 32
  deriving DecidableEq, Repr

/-- A mnemonic that has an R row and an immediate row (R187, R191). -/
inductive RIForm where
  | r (f : RFields)
  | i (f : IFields)
  deriving DecidableEq, Repr

/-- The attribute fields of an M-format word (R180, R198). -/
structure Attrs where
  tclass  : BitVec 3
  ro      : Bool
  fin     : Bool
  latcrit : Bool
  tco     : Bool
  deriving DecidableEq, Repr

/-- The bits of an M-format load, store or transfer other than MAJOR and MFUNC[3] (R180, R194, R199):
`width` is MFUNC[2:0] and `hi` is MFUNC[6:4]. -/
structure MFields where
  guard  : BitVec 5
  data   : BitVec 7
  addr   : BitVec 7
  width  : BitVec 3
  hi     : BitVec 3
  attrs  : Attrs
  offset : BitVec 25
  deriving DecidableEq, Repr

/-- The bits of an M-format atomic other than MAJOR and MFUNC[5:0] (R201). -/
structure AFields where
  guard  : BitVec 5
  data   : BitVec 7
  addr   : BitVec 7
  ret    : Bool
  attrs  : Attrs
  offset : BitVec 25
  deriving DecidableEq, Repr

/-- The bits of an X-B word other than MAJOR and XFUNC (R180). -/
structure BFields where
  guard : BitVec 5
  ps    : BitVec 3
  ta    : BitVec 20
  tb    : BitVec 20
  rsvd  : BitVec 3
  deriving DecidableEq, Repr

/-- The bits of an X-A word other than MAJOR and XFUNC (R180). -/
structure XFields where
  guard : BitVec 5
  kt    : BitVec 4
  tile  : BitVec 4
  da    : BitVec 6
  db    : BitVec 6
  pd    : BitVec 3
  rsvd  : BitVec 23
  deriving DecidableEq, Repr

/-- The bits of a dwr word other than MAJOR: its DST is a descriptor number and its FUNC a word index (R205). -/
structure DFields where
  guard : BitVec 5
  dst   : BitVec 7
  sa    : BitVec 7
  func  : BitVec 7
  imm   : BitVec 32
  deriving DecidableEq, Repr

/-- The atomic operations of R201 that run at a home; `acq` is the compare-and-swap of acquire-with-yield, which expects
0 (R132). -/
inductive AtomKind where
  | addU32 | addU64 | addF32 | addBf16x2 | minS32 | maxS32 | minU32 | maxU32
  | and | or | xor | swapU32 | swapU64 | casU64 | casU128 | acq
  deriving DecidableEq, Repr

/-- One thread's operation of an ATOM message: its lane, the byte offset in the line, and its operands; `cmp` is the
compare value of a compare-and-swap (R201, R259). -/
structure LaneOp where
  lane : Fin 32
  off  : Fin 512
  val  : BitVec 128
  cmp  : BitVec 128
  deriving DecidableEq, Repr

/-- A line: its number (address / 512) and whether it belongs to a host-memory page, in which case the number is that
of the PCIe bus address (R213, R253). -/
structure Line where
  no   : Nat
  host : Bool
  deriving DecidableEq, Repr

/-- The contents of a coherence message (R259): sender, receiver and final requester (agent numbers of R332), the
line, the function, traffic class and latency-critical mark of the access, the data with byte mask and marks, the
operations of an ATOM, a number that ties a reply to its request, whether the request holds a credit (R270), whether it is of
a class-0 step, its end-to-end number (R340), which a reply repeats, and whether it is a FINAL write (R277, R280). `hint`
is a WR's write hint (R245); 1 in an RD for a read-only fill and in a DATA for a line with a discard mark; the requesting
port in an FWD_RD or FWD_OWN. -/
structure Msg where
  src    : Nat
  dst    : Nat
  req    : Nat
  line   : Line
  fn     : Fn
  tclass : BitVec 3
  lat    : Bool
  data   : LineData
  mask   : ByteMask
  marks  : Marks
  kind   : AtomKind
  ops    : List LaneOp
  hint   : BitVec 16
  tag    : Nat
  credited : Bool
  cls0   : Bool
  seq    : Nat
  fin    : Bool
  deriving DecidableEq, Repr

/-- The messages of R259. -/
inductive MsgKind where
  | rd | rdo | wr | atom | pres | dwn | wb | inv | fwdRd | fwdOwn | recall | data | grant | ack
  | invAck | presAck | wbAck | ownData | ownDone | retry
  deriving DecidableEq, Repr

/-- A reduction packet (R331, R343): sender, function, tag, format, count, target line, words with their mask and
marks, the end-to-end number. -/
structure RedPacket where
  src    : Nat
  fn     : Fn
  tag    : BitVec 16
  format : Fin 3
  cnt    : Nat
  line   : Line
  data   : LineData
  mask   : ByteMask
  marks  : Marks
  seq    : Nat
  deriving DecidableEq, Repr

/-- A dictionary request as it stands in its message (R441): the header fields, with zeros for those that a message shorter
than its header lacks; whether the header's zero bytes are zero; the length of the whole message in bytes; the body as a
little-endian number. -/
structure DictReq where
  op     : BitVec 8
  index  : BitVec 16
  sub    : BitVec 8
  offset : BitVec 32
  count  : BitVec 32
  zero   : Bool
  raw    : Nat
  body   : Nat
  deriving DecidableEq, Repr

/-- Where a UDP datagram goes, whether it keeps the layout of R440 and its tag, where it has one, matches, and which segment of
its message it carries (R439, R440, R443). -/
structure Dgram where
  addr  : BitVec 128
  port  : BitVec 16
  valid : Bool
  seg   : Fin 7
  deriving DecidableEq, Repr

/-- Who sends a dictionary request: the window of a function (R446) or a management session, by its place in the
session table, with the request number and the datagram (R443, R444). -/
inductive Requester where
  | window (f : Fn)
  | session (i : Fin 8) (reqId : BitVec 32) (d : Dgram)
  deriving DecidableEq, Repr

/-- What a core did in a tick, as Sage measures it (R66): ACLK cycles delivered while busy, and busy time. -/
structure CoreMeas where
  core   : CoreNo
  cycles : Nat
  busyNs : Nat
  deriving DecidableEq, Repr

/-- What the tests of a cold start find on the lanes of a block: the failed lanes of a via group of a fast-tier channel (R296), or
of a Lamif-S bundle (R503). -/
inductive LaneLoss where
  | via (chan : Fin 128) (group : Fin 9) (lanes : Fin 69)
  | bundle (b : Fin 96) (lanes : Fin 137)
  deriving DecidableEq, Repr

/-- Sage's division of a KERNEL command's groups: a core and the first index and count of its range (R111). -/
structure CoreRange where
  core  : CoreNo
  first : Nat
  count : Nat
  deriving DecidableEq, Repr

/-- What the memory array returned for a code page against its stored contents: the bits that came back inverted, bit i of
byte n being bit 8n + i, over the 2,048 data bytes and the 128 metadata bytes after them (R301, R304). -/
structure ArrayErr where
  flips : BitVec 17408
  deriving DecidableEq, Repr

/-- A Lamif flit's fields (R350), with its CRC as received and its 240 B body. -/
structure Flit where
  seqKind : BitVec 16
  ack     : BitVec 16
  vc      : BitVec 8
  zero    : BitVec 8
  start   : BitVec 16
  creditA : BitVec 16
  creditB : BitVec 16
  body    : BitVec 1920
  crc     : BitVec 32
  deriving DecidableEq, Repr

/-- A bundle direction of the ring (bundle of R363, 0 to 95) or a peer port (R369). -/
inductive LinkId where
  | bundle (b : Fin 96)
  | port (p : Fin 8)
  deriving DecidableEq, Repr

/-- One register access: the function whose BAR it hits, the byte offset, the data and the byte enables (R535). -/
structure RegAccess where
  fn  : Fn
  off : BitVec 25
  val : Word
  be  : BitVec 4
  deriving DecidableEq, Repr

/-- A packet that arrives on a peer port (R379): the operation, the remote unit and the line data. -/
structure PeerPacket where
  port      : Fin 8
  isAtom    : Bool
  isRed     : Bool
  remoteVa  : BitVec 48
  srcModule : BitVec 16
  srcFn     : Fn
  dstFn     : Fn
  hint      : BitVec 16
  lmemOff   : BitVec 32
  seq       : BitVec 16
  data      : LineData
  mask      : ByteMask
  marks     : Marks
  kind      : AtomKind
  ops       : List LaneOp
  red       : RedPacket
  deriving DecidableEq, Repr

/-- The blocks a start or a self-test can name, coded as FAIL_BLOCK [31:24] and [23:0] (R510). -/
structure Block where
  kind : BitVec 8
  no   : BitVec 24
  deriving DecidableEq, Repr

/-- A control of a step: which command of which step the row acts on. `step` is the model's key of the step-store
entry. -/
structure CmdRef where
  step : Nat
  cmd  : Nat
  deriving DecidableEq, Repr

/-- Where Sage places a command for a tick (R58): the command, the cores of a KERNEL or COLLECTIVE, and the base die of the
engine that serves another command. -/
structure Placement where
  cmd   : CmdRef
  cores : List CoreNo
  die   : Fin 4
  deriving DecidableEq, Repr

/-- What an engine did of a sliced command in a slice (R61): how many of its units, the device time of the last one, and
what the memory array returned for the code pages among them. -/
structure SliceWork where
  units : Nat
  endNs : Nat
  errs  : List (Nat × ArrayErr)
  deriving DecidableEq, Repr

/-- The commands of the block, in the order of spec/opcode_table.json. -/
inductive Instr where
  -- ticks, planning, slices
  | tickBoundary (meas : List CoreMeas)
  | planningCutoff (linksW memW : Nat) (place : List Placement)
  | sliceEnd (c : CmdRef) (ns usedUs : Nat) (spill : Bool)
  | sliceStart (c : CmdRef) (ns : Nat) (cores : List CoreNo) (work : SliceWork)
  | overrun (step ns usedUs : Nat)
  | slowCoreFlag (core : CoreNo)
  | coreSwap (core : CoreNo)
  | stepCompletion (step ns : Nat)
  | sqTail (f : Fn) (q : Fin 64) (val : Word) (ns : Nat)
  | descriptorRead (f : Fn) (q : Fin 64)
  -- commands of a step
  | nop (c : CmdRef)
  | kernel (c : CmdRef) (ranges : List CoreRange)
  | copy (c : CmdRef) (work : SliceWork)
  | collectiveReduce (c : CmdRef) (cores : List CoreNo)
  | collectiveBroadcast (c : CmdRef)
  | waitEvent (c : CmdRef)
  | waitEventRelease (c : CmdRef)
  | eventTimeout (c : CmdRef)
  | signalEvent (c : CmdRef)
  | pin (c : CmdRef) (work : SliceWork)
  | unpin (c : CmdRef) (work : SliceWork)
  | prefetch (c : CmdRef) (work : SliceWork)
  | writeBack (c : CmdRef) (work : SliceWork)
  | discard (c : CmdRef) (work : SliceWork)
  | scrub (c : CmdRef) (startNs : Nat) (cancelled : Bool) (work : SliceWork)
  | hint (c : CmdRef) (ns : Nat)
  | hintPhaseLead (c : CmdRef)
  | hintPhaseEnd (c : CmdRef)
  -- events of a core
  | groupStart (g : GroupRef)
  | groupPromote (core : CoreNo) (quarter : Fin 4)
  | loadDataReturn (g : GroupRef)
  | roMissFill (core : CoreNo) (reg : Fin 32) (sectors : Marks)
  | matrixOpRetire (core : CoreNo) (array : Bool)
  | watchdog (g : GroupRef)
  | yieldTimeout (g : GroupRef)
  | groupFault (g : GroupRef) (cause : BitVec 8) (addr : BitVec 64)
  -- vector arithmetic
  | fadd (g : GroupRef) (f : RIForm)
  | fsub (g : GroupRef) (f : RFields)
  | fmul (g : GroupRef) (f : RIForm)
  | ffma (g : GroupRef) (f : RIForm)
  | fmin (g : GroupRef) (f : RIForm)
  | fmax (g : GroupRef) (f : RIForm)
  | fabs (g : GroupRef) (f : RFields)
  | hadd2 (g : GroupRef) (f : RFields)
  | hsub2 (g : GroupRef) (f : RFields)
  | hmul2 (g : GroupRef) (f : RFields)
  | hfma2 (g : GroupRef) (f : RFields)
  | hmin2 (g : GroupRef) (f : RFields)
  | hmax2 (g : GroupRef) (f : RFields)
  | iadd (g : GroupRef) (f : RIForm)
  | isub (g : GroupRef) (f : RFields)
  | imul (g : GroupRef) (f : RIForm)
  | imulhi (g : GroupRef) (f : RFields)
  | imad (g : GroupRef) (f : RFields)
  | vand (g : GroupRef) (f : RIForm)
  | vor (g : GroupRef) (f : RIForm)
  | vxor (g : GroupRef) (f : RIForm)
  | shl (g : GroupRef) (f : RIForm)
  | shr (g : GroupRef) (f : RIForm)
  | sar (g : GroupRef) (f : RIForm)
  | imin (g : GroupRef) (f : RIForm)
  | imax (g : GroupRef) (f : RIForm)
  | popc (g : GroupRef) (f : RFields)
  | clz (g : GroupRef) (f : RFields)
  | bfe (g : GroupRef) (f : RFields)
  | bfi (g : GroupRef) (f : RFields)
  | sel (g : GroupRef) (f : RFields)
  | exp2 (g : GroupRef) (f : RFields)
  | log2 (g : GroupRef) (f : RFields)
  | rcp (g : GroupRef) (f : RFields)
  | rsqrt (g : GroupRef) (f : RFields)
  -- conversion
  | cvt (g : GroupRef) (f : RFields)
  | cvtw (g : GroupRef) (f : RFields)
  | cvtp (g : GroupRef) (f : RFields)
  | cvtu (g : GroupRef) (f : RFields)
  | cvti (g : GroupRef) (f : RFields)
  -- predicates
  | fsetp (g : GroupRef) (f : RFields)
  | isetp (g : GroupRef) (f : RFields)
  | plop (g : GroupRef) (f : RFields)
  | pmov (g : GroupRef) (f : RFields)
  | vote (g : GroupRef) (f : RFields)
  -- scalar
  | scAdd (g : GroupRef) (f : RIForm)
  | scSub (g : GroupRef) (f : RIForm)
  | scMul (g : GroupRef) (f : RIForm)
  | scAnd (g : GroupRef) (f : RIForm)
  | scOr (g : GroupRef) (f : RIForm)
  | scXor (g : GroupRef) (f : RIForm)
  | scShl (g : GroupRef) (f : RIForm)
  | scShr (g : GroupRef) (f : RIForm)
  | scSar (g : GroupRef) (f : RIForm)
  | scMin (g : GroupRef) (f : RIForm)
  | scMax (g : GroupRef) (f : RIForm)
  | scFadd (g : GroupRef) (f : RIForm)
  | scFmul (g : GroupRef) (f : RIForm)
  | scFfma (g : GroupRef) (f : RIForm)
  -- moves
  | mov (g : GroupRef) (f : RFields)
  | shfl (g : GroupRef) (f : RFields)
  | rdlane (g : GroupRef) (f : RFields)
  -- memory
  | ldlLoad (g : GroupRef) (f : MFields)
  | ldlStore (g : GroupRef) (f : MFields)
  | ldgLoad (g : GroupRef) (f : MFields)
  | ldgStore (g : GroupRef) (f : MFields)
  | xferIn (g : GroupRef) (f : MFields)
  | xferOut (g : GroupRef) (f : MFields)
  | atomAddU32 (g : GroupRef) (f : AFields)
  | atomAddU64 (g : GroupRef) (f : AFields)
  | atomAddF32 (g : GroupRef) (f : AFields)
  | atomAddBf16x2 (g : GroupRef) (f : AFields)
  | atomMinS32 (g : GroupRef) (f : AFields)
  | atomMaxS32 (g : GroupRef) (f : AFields)
  | atomMinU32 (g : GroupRef) (f : AFields)
  | atomMaxU32 (g : GroupRef) (f : AFields)
  | atomAnd (g : GroupRef) (f : AFields)
  | atomOr (g : GroupRef) (f : AFields)
  | atomXor (g : GroupRef) (f : AFields)
  | atomSwapU32 (g : GroupRef) (f : AFields)
  | atomSwapU64 (g : GroupRef) (f : AFields)
  | atomCasU64 (g : GroupRef) (f : AFields)
  | atomCasU128 (g : GroupRef) (f : AFields)
  | acq (g : GroupRef) (f : AFields)
  -- matrix engine
  | mma (g : GroupRef) (f : XFields)
  | mmaz (g : GroupRef) (f : XFields)
  | tzero (g : GroupRef) (f : XFields)
  | tld (g : GroupRef) (f : XFields)
  | tst (g : GroupRef) (f : XFields)
  | twait (g : GroupRef) (f : XFields)
  | ttest (g : GroupRef) (f : XFields)
  | dwr (g : GroupRef) (f : DFields)
  -- control
  | bra (g : GroupRef) (f : BFields)
  | split (g : GroupRef) (f : BFields)
  | join (g : GroupRef) (f : BFields)
  | exit (g : GroupRef) (f : BFields)
  | bany (g : GroupRef) (f : BFields)
  | bnone (g : GroupRef) (f : BFields)
  | ball (g : GroupRef) (f : BFields)
  | ctlNop (g : GroupRef) (f : RFields)
  | jr (g : GroupRef) (f : RFields)
  | bar (g : GroupRef) (f : RFields)
  | rdtime (g : GroupRef) (f : RFields)
  | rdtick (g : GroupRef) (f : RFields)
  | rdcyc (g : GroupRef) (f : RFields) (cycles : Nat)
  -- inbox
  | inrd (g : GroupRef) (f : RFields)
  | instat (g : GroupRef) (f : RFields)
  | snd (g : GroupRef) (f : RFields)
  | sndv (g : GroupRef) (f : RFields)
  | inflush (g : GroupRef) (f : RFields)
  | inboxWordArrival (core : CoreNo) (kind : Fin 3) (src : BitVec 8) (chan : Fin 8) (fn : Fn) (word : Word)
      (last : Bool)
  | inboxPacketTimeout (core : CoreNo)
  | flushEffect (core : CoreNo) (management : Bool)
  -- coherence
  | rd (m : Msg)
  | rdo (m : Msg)
  | wr (m : Msg)
  | atom (m : Msg)
  | pres (m : Msg)
  | dwn (m : Msg)
  | wb (m : Msg)
  | inv (m : Msg)
  | fwdRd (m : Msg)
  | fwdOwn (m : Msg)
  | recall (m : Msg)
  | data (m : Msg)
  | grant (m : Msg)
  | ack (m : Msg)
  | invAck (m : Msg)
  | presAck (m : Msg)
  | wbAck (m : Msg)
  | ownData (m : Msg)
  | ownDone (m : Msg)
  | retry (m : Msg)
  | creditedResend (port : Fin 4) (line : Line)
  -- reduction and network
  | radd (unit : Nat) (p : RedPacket)
  | chiveHoldExpiry (unit : Nat) (fn : Fn) (tag : BitVec 16) (line : Line) (ns : Nat)
  | tagDone (port : Fin 8) (fn : Fn) (tag : BitVec 16)
  | collPeerTimeout (c : CmdRef)
  | e2eTimeout (src dst : Nat) (seq : BitVec 16) (ns : Nat) (lost : Bool)
  | flitReceive (l : LinkId) (f : Flit) (corrected uncorrected : Nat)
  | nak (l : LinkId) (lastSeq : BitVec 12)
  | linkAckTimeout (l : LinkId)
  | laneFlag (b : Fin 96) (lane : Fin 136) (margin : Nat) (lockLost : Bool)
  | laneTest (b : Fin 96) (resends : Nat) (bad : List (Fin 136))
  | laneSwap (b : Fin 96)
  | laneSwapDone (b : Fin 96)
  | bundleRetired (b : Fin 96) (lastSeq : BitVec 12)
  | slotDrainDone (pair : Fin 2) (slot : Fin 64)
  | linkLost (dir : Fin 8)
  | meshSilence (psn : Psn)
  | routerFault (psn : Psn) (alsoSites : List Psn) (ns : Nat)
  | elevatorFault (e : Fin 64) (failures : Nat)
  | coreFault (core : CoreNo) (ns : Nat)
  | spareTakeover (core : CoreNo)
  | takeoverQueued (b : Block)
  | bankFault (slice : Fin 4) (bank : Fin 17) (unreadable : List Nat)
  | bankSpareReady (slice : Fin 4)
  | agentFenced (agent : Nat)
  -- memory controllers
  | controllerGrant (chan : Fin 224)
  | lineRead (m : Msg) (err : Option ArrayErr)
  | lineWrite (m : Msg) (err : Option ArrayErr)
  | markOnlyUpdate (line : Nat)
  | mirrorCopyDone (entry : Fin 64)
  | slowChannelLost (chan : Fin 96)
  | fastChannelLost (chan : Fin 128)
  -- host
  | hostReadFailed (line : Nat) (fn : Fn) (how : Fin 3)
  | bar2Read (off : BitVec 40) (len : Fin 4097)
  | bar2Write (off : BitVec 40) (len : Fin 513) (val : LineData) (ep : Bool)
  | cqHead (f : Fn) (q : Fin 64) (val : Word)
  | evqHead (f : Fn) (val : Word)
  | sqCtl (f : Fn) (q : Fin 64) (val : Word) (be : BitVec 4)
  | cqCtl (f : Fn) (q : Fin 64) (val : Word) (be : BitVec 4)
  | evqCtl (f : Fn) (val : Word) (be : BitVec 4)
  | eventPost (f : Fn)
  | msixSend (f : Fn) (vector : Fin 2048)
  | ibTarget (f : Fn) (chan : Fin 8) (val : Word) (be : BitVec 4)
  | ibWord (f : Fn) (chan : Fin 8) (val : Word)
  | ibWordEnd (f : Fn) (chan : Fin 8) (val : Word)
  | eventAdd (f : Fn) (e : Fin 4096) (val : Word)
  -- function commands
  | setCtx
  | inval
  | quiesce (ns : Nat)
  | resume
  | dirtyStart
  | dirtyStop
  | dirtyCollect
  | fcmdDone
  | drainEnd (f : Fn)
  | functionQuiesced (f : Fn)
  | flr (f : Fn)
  | vfEnableClear
  | vfEnableSet (num : Fin 256)
  | vfReady (f : Fn)
  | zeroingDone (f : Fn)
  | perstN
  | perstNHigh
  -- registers
  | sqcClear (f : Fn) (off : BitVec 25) (val : Word)
  | reservedAccess (write : Bool) (a : RegAccess) (dws : Fin 1025)
  | partialWrite (a : RegAccess)
  | registerWrite (a : RegAccess)
  | indDataRead
  | indDataWrite (val : Word)
  | mbxSel (val : Word)
  | mbxCaptureDone
  | mbxData3Read
  -- dictionary window and management protocol
  | go (f : Fn) (val : Word)
  | discover (d : Dgram)
  | hello (d : Dgram) (keySlot : BitVec 8) (nonce : BitVec 256) (key : BitVec 12544)
  | auth (d : Dgram) (session : BitVec 32) (sig : BitVec 10240)
  | close (i : Fin 8) (d : Dgram)
  | segmentTimeout (session reqId : BitVec 32)
  | sessionIdle (i : Fin 8)
  | read (who : Requester) (r : DictReq)
  | write (who : Requester) (r : DictReq)
  | info (who : Requester) (r : DictReq)
  | attest (who : Requester) (r : DictReq)
  -- clears and controls by dictionary write
  | acctClear (who : Requester) (val : BitVec 16)
  | convClear (who : Requester) (val : BitVec 16)
  | coreCtrClear (who : Requester) (val : BitVec 16)
  | matrixCtrClear (who : Requester) (val : BitVec 16)
  | roCtrClear (who : Requester) (val : BitVec 16)
  | cacheCtrClear (who : Requester) (val : BitVec 16)
  | coherenceCtrClear (who : Requester) (val : BitVec 16)
  | memCtrClear (who : Requester) (val : BitVec 8)
  | ceTableClear (who : Requester) (val : BitVec 8)
  | netCtrClear (who : Requester) (val : BitVec 8)
  | peerCtrClear (who : Requester) (val : BitVec 8)
  | sensorClear (who : Requester) (val : BitVec 16)
  | monitorClear (who : Requester) (val : BitVec 8)
  | monitorConfig (who : Requester) (i : Fin 32) (val : BitVec 256)
  | lineProbeAddr (who : Requester) (val : BitVec 64)
  | pinWays (who : Requester) (val : BitVec 8)
  | replicaTable (who : Requester) (i : Fin 64) (val : BitVec 256)
  | scrubStart (who : Requester) (val : BitVec 8)
  | scrubPassDone (endNs : Nat) (errs : List (Nat × ArrayErr))
  | retirePage (who : Requester) (val : BitVec 64) (errs : List (Nat × ArrayErr))
  | clientKeys (who : Requester) (i : Fin 16) (val : BitVec 14400)
  | evcValues (who : Requester) (off : Fin 32769) (len : Nat) (val : Nat)
  | fnQuiesce (who : Requester) (val : BitVec 8) (ns : Nat)
  | fnResume (who : Requester) (val : BitVec 8)
  | moduleQuiesce (who : Requester) (ns : Nat)
  | moduleResume (who : Requester)
  | moduleWarmStart (who : Requester)
  | moduleQuiesced
  | configDefaults (who : Requester) (val : BitVec 8)
  -- firmware update
  | updBegin (who : Requester)
  | eraseDone
  | updateImage (who : Requester) (off : BitVec 32) (len : Nat) (val : Nat)
  | updCommit (who : Requester)
  | verifyDone
  | updAbort (who : Requester)
  | slotConfirm
  | confirmTimeout
  -- management processors
  | heartbeat
  | heartbeatAck
  | mgmtTakeover
  | mgmtLost
  | sensorSample (vals : List (Fin 412 × Word))
  | logRecordWrite
  | ageingCheck (margins : List (Psn × Word))
  -- power
  | feedValid (b : Bool)
  | feedLost (b : Bool)
  | feedOvervoltage (b : Bool)
  | feedSwitchClose (b : Bool)
  | feedVoltageLog (b : Bool)
  | bothFeedsLost
  | phaseLost (rail : Fin 13)
  | powerSample (meanMw : Nat) (below5 settled : Bool) (cat : Fin 3)
  | thermalLimitStart (die : Fin 12)
  | thermalLimitStep (die : Fin 12) (below103 : Bool)
  | thermalLimitEnd (die : Fin 12)
  | thermalShutdown (die : Fin 12)
  | thermalRestart (who : Requester) (val : BitVec 8)
  | coolantAlarm (flow : Bool)
  | droop (core : CoreNo) (depthMv : Nat)
  | droopRestore (core : CoreNo)
  | refclkStop
  | refclkHoldExpiry
  | refclkReturn
  | refclkCountEnd
  | clockMux (core : CoreNo) (passed : Bool) (ns : Nat)
  -- starts
  | coldStart (cause : BitVec 8) (failed : List Block) (lanes : List LaneLoss) (stepEndUs : List (BitVec 32))
  | warmStart (cause : BitVec 8) (errs : List (Nat × ArrayErr)) (stepEndUs : List (BitVec 32))
  | startStepTimeout (step : Fin 12) (b : Block) (detail : BitVec 32)
  | startFailed
  | release
  | serviceHold (recordBad : Bool)
  -- service
  | servicePress (ns : Nat)
  | serviceCancel
  | drainSafe
  | latchOpen (ns : Nat)
  | latchClose
  -- peer ports
  | lossOfLight (p : Fin 8)
  | powerReduce (p : Fin 8)
  | probe (p : Fin 8)
  | lightDetect (p : Fin 8)
  | trainingTimeout (p : Fin 8)
  | ident (p : Fin 8) (partner : BitVec 16) (partnerPort : Fin 8) (periodUs : BitVec 32) (tx rx : BitVec 8)
  | fibreRemoved (p : Fin 8) (rx : Bool) (fibre : Fin 8) (symbols : Nat) (failed : Bool)
  | fibreRetest (p : Fin 8) (rx : Bool) (fibre : Fin 8) (clean : Bool)
  | peerArrival (pk : PeerPacket)
  | peerE2eTimeout (p : Fin 8) (seq : BitVec 16) (ns : Nat)
  | portEnable (who : Requester) (p : Fin 8) (val : BitVec 8)
  | timeStampExchange (p : Fin 8) (t1 t2 t3 t4 : Int) (srcLocked : Bool) (srcPeriodUs : BitVec 32)
  | holdover
  -- rows added at the end of the table
  | occupancyEnd (core : CoreNo) (array : Bool)
  | xferSpanWritten (core : CoreNo) (i : Nat)
  | hostReadCompletion (line : Nat) (fn : Fn) (data : LineData) (ep : Bool)
  | linkUp
  | opticalEngineFailed (p : Fin 8)
  | ringNotDriven
  deriving DecidableEq, Repr

end Sys2Proof
end

