-- ==== Sys2Proof/Decode.lean ====
section
/-!
DEFINITION. What a word of the opcode table spells (no row gives bits, so none does), and the 64-bit instruction
words of kernel code: their decoder, total on any word, which answers none for a reserved code (R183, R184), and
their encoder (R180).
-/
namespace Sys2Proof

/-- The command that a word spells by the table's bits. The table gives no row bits. -/
def decodeTableWord (_nbits _w : Nat) : Option Instr := none

/-- Bits `lo + len - 1` to `lo` of an instruction word. -/
def field (w : IWord) (lo len : Nat) : BitVec len := w.extractLsb' lo len

/-! ## The four formats (R180) -/

/-- The R fields of a word. -/
def rFields (w : IWord) : RFields :=
  ⟨field w 53 5, field w 46 7, field w 39 7, field w 32 7, field w 25 7, field w 0 16⟩

/-- The I fields of a word. -/
def iFields (w : IWord) : IFields := ⟨field w 53 5, field w 46 7, field w 39 7, field w 0 32⟩

/-- The attributes of an M word (R198). -/
def attrsOf (w : IWord) : Attrs :=
  ⟨field w 29 3, field w 28 1 == 1, field w 27 1 == 1, field w 26 1 == 1, field w 25 1 == 1⟩

/-- The M fields of a load, store or transfer. -/
def mFields (w : IWord) : MFields :=
  ⟨field w 53 5, field w 46 7, field w 39 7, field w 32 3, field w 36 3, attrsOf w, field w 0 25⟩

/-- The M fields of an atomic. -/
def aFields (w : IWord) : AFields :=
  ⟨field w 53 5, field w 46 7, field w 39 7, field w 38 1 == 1, attrsOf w, field w 0 25⟩

/-- The X-B fields of a word. -/
def bFields (w : IWord) : BFields := ⟨field w 53 5, field w 43 3, field w 23 20, field w 3 20, field w 0 3⟩

/-- The X-A fields of a word. -/
def xFields (w : IWord) : XFields :=
  ⟨field w 53 5, field w 42 4, field w 38 4, field w 32 6, field w 26 6, field w 23 3, field w 0 23⟩

/-- The fields of a dwr word (R205). -/
def dFields (w : IWord) : DFields := ⟨field w 53 5, field w 46 7, field w 39 7, field w 32 7, field w 0 32⟩

/-- One bit from a Bool. -/
def oneBit (b : Bool) : BitVec 1 := BitVec.ofBool b

/-- An R word. -/
def encR (maj func : Nat) (f : RFields) : IWord :=
  BitVec.ofNat 6 maj ++ f.guard ++ f.dst ++ f.sa ++ f.sb ++ f.sc ++ BitVec.ofNat 9 func ++ f.mod

/-- An I word. -/
def encI (maj func : Nat) (f : IFields) : IWord :=
  BitVec.ofNat 6 maj ++ f.guard ++ f.dst ++ f.sa ++ BitVec.ofNat 7 func ++ f.imm

/-- The attribute bits of an M word. -/
def encAttrs (a : Attrs) : BitVec 7 :=
  a.tclass ++ oneBit a.ro ++ oneBit a.fin ++ oneBit a.latcrit ++ oneBit a.tco

/-- An M word of a load, store or transfer; `dir` is MFUNC[3]. -/
def encM (maj dir : Nat) (f : MFields) : IWord :=
  BitVec.ofNat 6 maj ++ f.guard ++ f.data ++ f.addr ++ f.hi ++ BitVec.ofNat 1 dir ++ f.width ++ encAttrs f.attrs ++
    f.offset

/-- An M word of an atomic; `op` is MFUNC[5:0]. -/
def encA (op : Nat) (f : AFields) : IWord :=
  BitVec.ofNat 6 0x12 ++ f.guard ++ f.data ++ f.addr ++ oneBit f.ret ++ BitVec.ofNat 6 op ++ encAttrs f.attrs ++
    f.offset

/-- An X-B word. -/
def encB (xfunc : Nat) (f : BFields) : IWord :=
  BitVec.ofNat 6 0x20 ++ f.guard ++ BitVec.ofNat 7 xfunc ++ f.ps ++ f.ta ++ f.tb ++ f.rsvd

/-- An X-A word. -/
def encX (xfunc : Nat) (f : XFields) : IWord :=
  BitVec.ofNat 6 0x18 ++ f.guard ++ BitVec.ofNat 7 xfunc ++ f.kt ++ f.tile ++ f.da ++ f.db ++ f.pd ++ f.rsvd

/-- A dwr word. -/
def encD (f : DFields) : IWord :=
  BitVec.ofNat 6 0x19 ++ f.guard ++ f.dst ++ f.sa ++ f.func ++ f.imm

/-! ## Decoding (R183 to R208) -/

/-- FUNC of major VF (01h). -/
def decVF (g : GroupRef) (func : Nat) (f : RFields) : Option Instr :=
  match func with
  | 0 => some (.fadd g (.r f))
  | 1 => some (.fsub g f)
  | 2 => some (.fmul g (.r f))
  | 3 => some (.ffma g (.r f))
  | 4 => some (.fmin g (.r f))
  | 5 => some (.fmax g (.r f))
  | 6 => some (.fabs g f)
  | _ => none

/-- FUNC of major VH (03h). -/
def decVH (g : GroupRef) (func : Nat) (f : RFields) : Option Instr :=
  match func with
  | 0 => some (.hadd2 g f)
  | 1 => some (.hsub2 g f)
  | 2 => some (.hmul2 g f)
  | 3 => some (.hfma2 g f)
  | 4 => some (.hmin2 g f)
  | 5 => some (.hmax2 g f)
  | _ => none

/-- FUNC of major VI (04h). -/
def decVI (g : GroupRef) (func : Nat) (f : RFields) : Option Instr :=
  match func with
  | 0 => some (.iadd g (.r f))
  | 1 => some (.isub g f)
  | 2 => some (.imul g (.r f))
  | 3 => some (.imulhi g f)
  | 4 => some (.imad g f)
  | 5 => some (.vand g (.r f))
  | 6 => some (.vor g (.r f))
  | 7 => some (.vxor g (.r f))
  | 8 => some (.shl g (.r f))
  | 9 => some (.shr g (.r f))
  | 10 => some (.sar g (.r f))
  | 11 => some (.imin g (.r f))
  | 12 => some (.imax g (.r f))
  | 13 => some (.popc g f)
  | 14 => some (.clz g f)
  | 15 => some (.bfe g f)
  | 16 => some (.bfi g f)
  | 17 => some (.sel g f)
  | _ => none

/-- FUNC of major VC (06h). -/
def decVC (g : GroupRef) (func : Nat) (f : RFields) : Option Instr :=
  match func with
  | 0 => some (.cvt g f)
  | 1 => some (.cvtw g f)
  | 2 => some (.cvtp g f)
  | 3 => some (.cvtu g f)
  | 4 => some (.cvti g f)
  | _ => none

/-- FUNC of major VP (07h). -/
def decVP (g : GroupRef) (func : Nat) (f : RFields) : Option Instr :=
  match func with
  | 0 => some (.fsetp g f)
  | 1 => some (.isetp g f)
  | 2 => some (.plop g f)
  | 3 => some (.pmov g f)
  | 4 => some (.vote g f)
  | _ => none

/-- FUNC of major SF (08h). -/
def decSF (g : GroupRef) (func : Nat) (f : RFields) : Option Instr :=
  match func with
  | 0 => some (.exp2 g f)
  | 1 => some (.log2 g f)
  | 2 => some (.rcp g f)
  | 3 => some (.rsqrt g f)
  | _ => none

/-- FUNC of major SC (09h). -/
def decSC (g : GroupRef) (func : Nat) (f : RFields) : Option Instr :=
  match func with
  | 0 => some (.scAdd g (.r f))
  | 1 => some (.scSub g (.r f))
  | 2 => some (.scMul g (.r f))
  | 3 => some (.scAnd g (.r f))
  | 4 => some (.scOr g (.r f))
  | 5 => some (.scXor g (.r f))
  | 6 => some (.scShl g (.r f))
  | 7 => some (.scShr g (.r f))
  | 8 => some (.scSar g (.r f))
  | 9 => some (.scMin g (.r f))
  | 10 => some (.scMax g (.r f))
  | 11 => some (.scFadd g (.r f))
  | 12 => some (.scFmul g (.r f))
  | 13 => some (.scFfma g (.r f))
  | _ => none

/-- FUNC of major MOV (0Bh). -/
def decMOV (g : GroupRef) (func : Nat) (f : RFields) : Option Instr :=
  match func with
  | 0 => some (.mov g f)
  | 1 => some (.shfl g f)
  | 2 => some (.rdlane g f)
  | _ => none

/-- FUNC of major CTL (21h). -/
def decCTL (g : GroupRef) (func : Nat) (f : RFields) : Option Instr :=
  match func with
  | 0 => some (.ctlNop g f)
  | 1 => some (.jr g f)
  | 2 => some (.bar g f)
  | 3 => some (.rdtime g f)
  | 4 => some (.rdtick g f)
  | 5 => some (.rdcyc g f 0)
  | _ => none

/-- FUNC of major INBOX (22h). -/
def decINBOX (g : GroupRef) (func : Nat) (f : RFields) : Option Instr :=
  match func with
  | 0 => some (.inrd g f)
  | 1 => some (.instat g f)
  | 2 => some (.snd g f)
  | 3 => some (.sndv g f)
  | 4 => some (.inflush g f)
  | _ => none

/-- FUNC of major VFI (02h). -/
def decVFI (g : GroupRef) (func : Nat) (f : IFields) : Option Instr :=
  match func with
  | 0 => some (.fadd g (.i f))
  | 2 => some (.fmul g (.i f))
  | 3 => some (.ffma g (.i f))
  | 4 => some (.fmin g (.i f))
  | 5 => some (.fmax g (.i f))
  | _ => none

/-- FUNC of major VII (05h). -/
def decVII (g : GroupRef) (func : Nat) (f : IFields) : Option Instr :=
  match func with
  | 0 => some (.iadd g (.i f))
  | 2 => some (.imul g (.i f))
  | 5 => some (.vand g (.i f))
  | 6 => some (.vor g (.i f))
  | 7 => some (.vxor g (.i f))
  | 8 => some (.shl g (.i f))
  | 9 => some (.shr g (.i f))
  | 10 => some (.sar g (.i f))
  | 11 => some (.imin g (.i f))
  | 12 => some (.imax g (.i f))
  | _ => none

/-- FUNC of major SCI (0Ah). -/
def decSCI (g : GroupRef) (func : Nat) (f : IFields) : Option Instr :=
  match func with
  | 0 => some (.scAdd g (.i f))
  | 1 => some (.scSub g (.i f))
  | 2 => some (.scMul g (.i f))
  | 3 => some (.scAnd g (.i f))
  | 4 => some (.scOr g (.i f))
  | 5 => some (.scXor g (.i f))
  | 6 => some (.scShl g (.i f))
  | 7 => some (.scShr g (.i f))
  | 8 => some (.scSar g (.i f))
  | 9 => some (.scMin g (.i f))
  | 10 => some (.scMax g (.i f))
  | 11 => some (.scFadd g (.i f))
  | 12 => some (.scFmul g (.i f))
  | 13 => some (.scFfma g (.i f))
  | _ => none

/-- The operation of major ATOM (12h). -/
def decATOM (g : GroupRef) (op : Nat) (f : AFields) : Option Instr :=
  match op with
  | 0 => some (.atomAddU32 g f)
  | 1 => some (.atomAddU64 g f)
  | 2 => some (.atomAddF32 g f)
  | 3 => some (.atomAddBf16x2 g f)
  | 4 => some (.atomMinS32 g f)
  | 5 => some (.atomMaxS32 g f)
  | 6 => some (.atomMinU32 g f)
  | 7 => some (.atomMaxU32 g f)
  | 8 => some (.atomAnd g f)
  | 9 => some (.atomOr g f)
  | 10 => some (.atomXor g f)
  | 11 => some (.atomSwapU32 g f)
  | 12 => some (.atomSwapU64 g f)
  | 13 => some (.atomCasU64 g f)
  | 14 => some (.atomCasU128 g f)
  | 0x20 => some (.acq g f)
  | _ => none

/-- XFUNC of major MX (18h). -/
def decMX (g : GroupRef) (xfunc : Nat) (f : XFields) : Option Instr :=
  match xfunc with
  | 0 => some (.mma g f)
  | 1 => some (.mmaz g f)
  | 2 => some (.tzero g f)
  | 3 => some (.tld g f)
  | 4 => some (.tst g f)
  | 5 => some (.twait g f)
  | 6 => some (.ttest g f)
  | _ => none

/-- XFUNC of major BR (20h). -/
def decBR (g : GroupRef) (xfunc : Nat) (f : BFields) : Option Instr :=
  match xfunc with
  | 0 => some (.bra g f)
  | 1 => some (.split g f)
  | 2 => some (.join g f)
  | 3 => some (.exit g f)
  | 4 => some (.bany g f)
  | 5 => some (.bnone g f)
  | 6 => some (.ball g f)
  | _ => none

/-- The instruction of group `g` that an instruction word spells; none for a reserved major or function code, which
faults with cause ILLEGAL (R183, R184). -/
def decodeIWord (g : GroupRef) (w : IWord) : Option Instr :=
  match (field w 58 6).toNat with
  | 0x1 => decVF g (field w 16 9).toNat (rFields w)
  | 0x3 => decVH g (field w 16 9).toNat (rFields w)
  | 0x4 => decVI g (field w 16 9).toNat (rFields w)
  | 0x6 => decVC g (field w 16 9).toNat (rFields w)
  | 0x7 => decVP g (field w 16 9).toNat (rFields w)
  | 0x8 => decSF g (field w 16 9).toNat (rFields w)
  | 0x9 => decSC g (field w 16 9).toNat (rFields w)
  | 0xb => decMOV g (field w 16 9).toNat (rFields w)
  | 0x21 => decCTL g (field w 16 9).toNat (rFields w)
  | 0x22 => decINBOX g (field w 16 9).toNat (rFields w)
  | 0x2 => decVFI g (field w 32 7).toNat (iFields w)
  | 0x5 => decVII g (field w 32 7).toNat (iFields w)
  | 0xa => decSCI g (field w 32 7).toNat (iFields w)
  | 0x10 => if field w 35 1 = 0 then some (.ldlLoad g (mFields w)) else some (.ldlStore g (mFields w))
  | 0x11 => if field w 35 1 = 0 then some (.ldgLoad g (mFields w)) else some (.ldgStore g (mFields w))
  | 0x13 => if field w 35 1 = 0 then some (.xferIn g (mFields w)) else some (.xferOut g (mFields w))
  | 0x12 => decATOM g (field w 32 6).toNat (aFields w)
  | 0x18 => decMX g (field w 46 7).toNat (xFields w)
  | 0x19 => some (.dwr g (dFields w))
  | 0x20 => decBR g (field w 46 7).toNat (bFields w)
  | _ => none

/-- An instruction as its word gives it: without the cycle count that an rdcyc observes. -/
def Instr.asRead (i : Instr) : Instr :=
  match i with
  | .rdcyc g f _ => .rdcyc g f 0
  | _ => i

/-! ## Encoding -/

/-- The word of an instruction of kernel code; none for the other commands. -/
def encodeIWord (i : Instr) : Option IWord :=
  match i with
  | .fadd _ (.r f) => some (encR 0x1 0x0 f)
  | .fsub _ f => some (encR 0x1 0x1 f)
  | .fmul _ (.r f) => some (encR 0x1 0x2 f)
  | .ffma _ (.r f) => some (encR 0x1 0x3 f)
  | .fmin _ (.r f) => some (encR 0x1 0x4 f)
  | .fmax _ (.r f) => some (encR 0x1 0x5 f)
  | .fabs _ f => some (encR 0x1 0x6 f)
  | .hadd2 _ f => some (encR 0x3 0x0 f)
  | .hsub2 _ f => some (encR 0x3 0x1 f)
  | .hmul2 _ f => some (encR 0x3 0x2 f)
  | .hfma2 _ f => some (encR 0x3 0x3 f)
  | .hmin2 _ f => some (encR 0x3 0x4 f)
  | .hmax2 _ f => some (encR 0x3 0x5 f)
  | .iadd _ (.r f) => some (encR 0x4 0x0 f)
  | .isub _ f => some (encR 0x4 0x1 f)
  | .imul _ (.r f) => some (encR 0x4 0x2 f)
  | .imulhi _ f => some (encR 0x4 0x3 f)
  | .imad _ f => some (encR 0x4 0x4 f)
  | .vand _ (.r f) => some (encR 0x4 0x5 f)
  | .vor _ (.r f) => some (encR 0x4 0x6 f)
  | .vxor _ (.r f) => some (encR 0x4 0x7 f)
  | .shl _ (.r f) => some (encR 0x4 0x8 f)
  | .shr _ (.r f) => some (encR 0x4 0x9 f)
  | .sar _ (.r f) => some (encR 0x4 0xa f)
  | .imin _ (.r f) => some (encR 0x4 0xb f)
  | .imax _ (.r f) => some (encR 0x4 0xc f)
  | .popc _ f => some (encR 0x4 0xd f)
  | .clz _ f => some (encR 0x4 0xe f)
  | .bfe _ f => some (encR 0x4 0xf f)
  | .bfi _ f => some (encR 0x4 0x10 f)
  | .sel _ f => some (encR 0x4 0x11 f)
  | .cvt _ f => some (encR 0x6 0x0 f)
  | .cvtw _ f => some (encR 0x6 0x1 f)
  | .cvtp _ f => some (encR 0x6 0x2 f)
  | .cvtu _ f => some (encR 0x6 0x3 f)
  | .cvti _ f => some (encR 0x6 0x4 f)
  | .fsetp _ f => some (encR 0x7 0x0 f)
  | .isetp _ f => some (encR 0x7 0x1 f)
  | .plop _ f => some (encR 0x7 0x2 f)
  | .pmov _ f => some (encR 0x7 0x3 f)
  | .vote _ f => some (encR 0x7 0x4 f)
  | .exp2 _ f => some (encR 0x8 0x0 f)
  | .log2 _ f => some (encR 0x8 0x1 f)
  | .rcp _ f => some (encR 0x8 0x2 f)
  | .rsqrt _ f => some (encR 0x8 0x3 f)
  | .scAdd _ (.r f) => some (encR 0x9 0x0 f)
  | .scSub _ (.r f) => some (encR 0x9 0x1 f)
  | .scMul _ (.r f) => some (encR 0x9 0x2 f)
  | .scAnd _ (.r f) => some (encR 0x9 0x3 f)
  | .scOr _ (.r f) => some (encR 0x9 0x4 f)
  | .scXor _ (.r f) => some (encR 0x9 0x5 f)
  | .scShl _ (.r f) => some (encR 0x9 0x6 f)
  | .scShr _ (.r f) => some (encR 0x9 0x7 f)
  | .scSar _ (.r f) => some (encR 0x9 0x8 f)
  | .scMin _ (.r f) => some (encR 0x9 0x9 f)
  | .scMax _ (.r f) => some (encR 0x9 0xa f)
  | .scFadd _ (.r f) => some (encR 0x9 0xb f)
  | .scFmul _ (.r f) => some (encR 0x9 0xc f)
  | .scFfma _ (.r f) => some (encR 0x9 0xd f)
  | .mov _ f => some (encR 0xb 0x0 f)
  | .shfl _ f => some (encR 0xb 0x1 f)
  | .rdlane _ f => some (encR 0xb 0x2 f)
  | .ctlNop _ f => some (encR 0x21 0x0 f)
  | .jr _ f => some (encR 0x21 0x1 f)
  | .bar _ f => some (encR 0x21 0x2 f)
  | .rdtime _ f => some (encR 0x21 0x3 f)
  | .rdtick _ f => some (encR 0x21 0x4 f)
  | .rdcyc _ f _ => some (encR 0x21 0x5 f)
  | .inrd _ f => some (encR 0x22 0x0 f)
  | .instat _ f => some (encR 0x22 0x1 f)
  | .snd _ f => some (encR 0x22 0x2 f)
  | .sndv _ f => some (encR 0x22 0x3 f)
  | .inflush _ f => some (encR 0x22 0x4 f)
  | .fadd _ (.i f) => some (encI 0x2 0x0 f)
  | .fmul _ (.i f) => some (encI 0x2 0x2 f)
  | .ffma _ (.i f) => some (encI 0x2 0x3 f)
  | .fmin _ (.i f) => some (encI 0x2 0x4 f)
  | .fmax _ (.i f) => some (encI 0x2 0x5 f)
  | .iadd _ (.i f) => some (encI 0x5 0x0 f)
  | .imul _ (.i f) => some (encI 0x5 0x2 f)
  | .vand _ (.i f) => some (encI 0x5 0x5 f)
  | .vor _ (.i f) => some (encI 0x5 0x6 f)
  | .vxor _ (.i f) => some (encI 0x5 0x7 f)
  | .shl _ (.i f) => some (encI 0x5 0x8 f)
  | .shr _ (.i f) => some (encI 0x5 0x9 f)
  | .sar _ (.i f) => some (encI 0x5 0xa f)
  | .imin _ (.i f) => some (encI 0x5 0xb f)
  | .imax _ (.i f) => some (encI 0x5 0xc f)
  | .scAdd _ (.i f) => some (encI 0xa 0x0 f)
  | .scSub _ (.i f) => some (encI 0xa 0x1 f)
  | .scMul _ (.i f) => some (encI 0xa 0x2 f)
  | .scAnd _ (.i f) => some (encI 0xa 0x3 f)
  | .scOr _ (.i f) => some (encI 0xa 0x4 f)
  | .scXor _ (.i f) => some (encI 0xa 0x5 f)
  | .scShl _ (.i f) => some (encI 0xa 0x6 f)
  | .scShr _ (.i f) => some (encI 0xa 0x7 f)
  | .scSar _ (.i f) => some (encI 0xa 0x8 f)
  | .scMin _ (.i f) => some (encI 0xa 0x9 f)
  | .scMax _ (.i f) => some (encI 0xa 0xa f)
  | .scFadd _ (.i f) => some (encI 0xa 0xb f)
  | .scFmul _ (.i f) => some (encI 0xa 0xc f)
  | .scFfma _ (.i f) => some (encI 0xa 0xd f)
  | .ldlLoad _ f => some (encM 0x10 0 f)
  | .ldlStore _ f => some (encM 0x10 1 f)
  | .ldgLoad _ f => some (encM 0x11 0 f)
  | .ldgStore _ f => some (encM 0x11 1 f)
  | .xferIn _ f => some (encM 0x13 0 f)
  | .xferOut _ f => some (encM 0x13 1 f)
  | .atomAddU32 _ f => some (encA 0x0 f)
  | .atomAddU64 _ f => some (encA 0x1 f)
  | .atomAddF32 _ f => some (encA 0x2 f)
  | .atomAddBf16x2 _ f => some (encA 0x3 f)
  | .atomMinS32 _ f => some (encA 0x4 f)
  | .atomMaxS32 _ f => some (encA 0x5 f)
  | .atomMinU32 _ f => some (encA 0x6 f)
  | .atomMaxU32 _ f => some (encA 0x7 f)
  | .atomAnd _ f => some (encA 0x8 f)
  | .atomOr _ f => some (encA 0x9 f)
  | .atomXor _ f => some (encA 0xa f)
  | .atomSwapU32 _ f => some (encA 0xb f)
  | .atomSwapU64 _ f => some (encA 0xc f)
  | .atomCasU64 _ f => some (encA 0xd f)
  | .atomCasU128 _ f => some (encA 0xe f)
  | .acq _ f => some (encA 0x20 f)
  | .mma _ f => some (encX 0x0 f)
  | .mmaz _ f => some (encX 0x1 f)
  | .tzero _ f => some (encX 0x2 f)
  | .tld _ f => some (encX 0x3 f)
  | .tst _ f => some (encX 0x4 f)
  | .twait _ f => some (encX 0x5 f)
  | .ttest _ f => some (encX 0x6 f)
  | .dwr _ f => some (encD f)
  | .bra _ f => some (encB 0x0 f)
  | .split _ f => some (encB 0x1 f)
  | .join _ f => some (encB 0x2 f)
  | .exit _ f => some (encB 0x3 f)
  | .bany _ f => some (encB 0x4 f)
  | .bnone _ f => some (encB 0x5 f)
  | .ball _ f => some (encB 0x6 f)
  | _ => none

/-- The group that an instruction of kernel code belongs to. -/
def instrGroup (i : Instr) : Option GroupRef :=
  match i with
  | .fadd g _ => some g
  | .fsub g _ => some g
  | .fmul g _ => some g
  | .ffma g _ => some g
  | .fmin g _ => some g
  | .fmax g _ => some g
  | .fabs g _ => some g
  | .hadd2 g _ => some g
  | .hsub2 g _ => some g
  | .hmul2 g _ => some g
  | .hfma2 g _ => some g
  | .hmin2 g _ => some g
  | .hmax2 g _ => some g
  | .iadd g _ => some g
  | .isub g _ => some g
  | .imul g _ => some g
  | .imulhi g _ => some g
  | .imad g _ => some g
  | .vand g _ => some g
  | .vor g _ => some g
  | .vxor g _ => some g
  | .shl g _ => some g
  | .shr g _ => some g
  | .sar g _ => some g
  | .imin g _ => some g
  | .imax g _ => some g
  | .popc g _ => some g
  | .clz g _ => some g
  | .bfe g _ => some g
  | .bfi g _ => some g
  | .sel g _ => some g
  | .cvt g _ => some g
  | .cvtw g _ => some g
  | .cvtp g _ => some g
  | .cvtu g _ => some g
  | .cvti g _ => some g
  | .fsetp g _ => some g
  | .isetp g _ => some g
  | .plop g _ => some g
  | .pmov g _ => some g
  | .vote g _ => some g
  | .exp2 g _ => some g
  | .log2 g _ => some g
  | .rcp g _ => some g
  | .rsqrt g _ => some g
  | .scAdd g _ => some g
  | .scSub g _ => some g
  | .scMul g _ => some g
  | .scAnd g _ => some g
  | .scOr g _ => some g
  | .scXor g _ => some g
  | .scShl g _ => some g
  | .scShr g _ => some g
  | .scSar g _ => some g
  | .scMin g _ => some g
  | .scMax g _ => some g
  | .scFadd g _ => some g
  | .scFmul g _ => some g
  | .scFfma g _ => some g
  | .mov g _ => some g
  | .shfl g _ => some g
  | .rdlane g _ => some g
  | .ctlNop g _ => some g
  | .jr g _ => some g
  | .bar g _ => some g
  | .rdtime g _ => some g
  | .rdtick g _ => some g
  | .rdcyc g _ _ => some g
  | .inrd g _ => some g
  | .instat g _ => some g
  | .snd g _ => some g
  | .sndv g _ => some g
  | .inflush g _ => some g
  | .ldlLoad g _ => some g
  | .ldlStore g _ => some g
  | .ldgLoad g _ => some g
  | .ldgStore g _ => some g
  | .xferIn g _ => some g
  | .xferOut g _ => some g
  | .atomAddU32 g _ => some g
  | .atomAddU64 g _ => some g
  | .atomAddF32 g _ => some g
  | .atomAddBf16x2 g _ => some g
  | .atomMinS32 g _ => some g
  | .atomMaxS32 g _ => some g
  | .atomMinU32 g _ => some g
  | .atomMaxU32 g _ => some g
  | .atomAnd g _ => some g
  | .atomOr g _ => some g
  | .atomXor g _ => some g
  | .atomSwapU32 g _ => some g
  | .atomSwapU64 g _ => some g
  | .atomCasU64 g _ => some g
  | .atomCasU128 g _ => some g
  | .acq g _ => some g
  | .mma g _ => some g
  | .mmaz g _ => some g
  | .tzero g _ => some g
  | .tld g _ => some g
  | .tst g _ => some g
  | .twait g _ => some g
  | .ttest g _ => some g
  | .dwr g _ => some g
  | .bra g _ => some g
  | .split g _ => some g
  | .join g _ => some g
  | .exit g _ => some g
  | .bany g _ => some g
  | .bnone g _ => some g
  | .ball g _ => some g
  | _ => none

end Sys2Proof
end

