-- ==== Sys2Proof/Config.lean ====
section
/-!
DEFINITION. What the spec leaves to the part, and the free values: constants with no body, so that no proof can
rest on a value of theirs. Each is named in a row of the assumption log (log entries 9 to 14, 18).
-/
namespace Sys2Proof.Config

/-- DESIGN CHOICE (log entry 9). The unpublished random value r of stochastic rounding, a function of SEED, logical
core, group index, conversion count and element position (R89). -/
opaque srRandom : Nat → Nat → Nat → Nat → Nat → BitVec 16

/-- DESIGN CHOICE (log entry 10). The value a special function (0 exp2, 1 log2, 2 rcp, 3 rsqrt) writes for an input,
used only where it lies within the error bound of R103. -/
opaque sfPick : Nat → BitVec 32 → BitVec 32

/-- DESIGN CHOICE (log entry 14). Whether a translation made before an invalidation ends uses the cached entry (true)
or walks the tables anew (false) (R290), by the model's counter of such choices. -/
opaque usesCached : Nat → Nat → Nat → Bool

/-- DESIGN CHOICE (log entry 13). Whether a line of a stopped command's destination was written before the stop
(R571), by the model's counter and the line number. -/
opaque lineWritten : Nat → Nat → Bool

/-- DESIGN CHOICE (log entry 9). A free 64-bit value, by the model's counter. -/
opaque freeBits : Nat → BitVec 64

/-- DESIGN CHOICE (log entry 9). The data of a line that the memory could not correct, or of a lost owner, by the model's
counter (R272, R304, R305). Every sector of it is marked. -/
opaque freeLine : Nat → BitVec 4096

/-- DESIGN CHOICE (log entry 9). The data that a read of a lost channel returns, by line number (R298 to R300). Every
sector of it is marked. -/
opaque lostLine : Nat → BitVec 4096

/-- DESIGN CHOICE (log entry 9). The code of a message in a packet header, by the message's place in R259; RADD is 20. The
spec gives the codes no numbers (R331). -/
opaque msgCode : Nat → BitVec 8

/-- DESIGN CHOICE (log entry 9). The units of a packet whose contents the spec names without a layout: the operands of an ATOM,
the old values of an ACK, an inbox word (R331), by the model's counter. -/
opaque unitBody : Nat → BitVec 4608

/-- DESIGN CHOICE (log entry 54). Whether host software has enabled Relaxed Ordering in a function's Device Control register
(R280): the opcode table has no access to PCI Express configuration space, which holds it. -/
opaque relaxedOrdering : Nat → Bool

/-- DESIGN CHOICE (log entry 23). The full-load core power, in mW, at an ACLK target other than 2,700 MHz: R474 states it
for 2,700 MHz only. -/
opaque fullLoadMw : Nat → Nat

/-- PRESUMED (log entry 18). SHAKE256 with 64 B of output (R428), of bytes read as a little-endian number with their
count. -/
opaque shake256 : Nat → Nat → BitVec 512

/-- PRESUMED (log entry 18). KMAC256 of R443: key, message bytes as a number, their count. -/
opaque kmac256 : Nat → Nat → Nat → BitVec 128

/-- PRESUMED (log entry 18). Falcon-1024 verification: public key, message, signature. -/
opaque falconVerify : Nat → Nat → Nat → Bool

/-- PRESUMED (log entry 18). Falcon-1024 signature (1,280 B) of a message under a private key named by a number. -/
opaque falconSign : Nat → Nat → BitVec 10240

/-- PRESUMED (log entry 18). The ciphertext of an ML-KEM-1024 encapsulation under a client key, by the model's
counter. -/
opaque kemCipher : Nat → Nat → BitVec 12544

/-- PRESUMED (log entry 18). The shared secret of that encapsulation. -/
opaque kemSecret : Nat → Nat → BitVec 256

/-- PRESUMED (log entry 6). SHAKE256 of the manufacturing record, which the spec does not print (R428, R435). -/
opaque mfgDigest : BitVec 512

/-- PRESUMED (log entry 6). MAC_ADDRESS, an EUI-48 (R435). -/
opaque macAddress : BitVec 48

/-- PRESUMED (log entry 6). The calibration data of the manufacturing record: the least timing margin of a core site, as its ageing
monitor reads it (R5, R484). -/
opaque minMargin : Nat → BitVec 32

/-- PRESUMED (log entry 6). The mask-ROM version (R435). -/
opaque romVersion : BitVec 32

/-- PRESUMED (log entry 6). The stepping of a die, by its target number (R543). -/
opaque dieStepping : Nat → BitVec 8

/-- PRESUMED (log entry 18). The device certificate and its length in bytes (R457, R465). -/
opaque deviceCert : Nat × Nat

/-- PRESUMED (log entry 18). The alias certificate of a processor for a firmware digest and its length in bytes (R458,
R465). -/
opaque aliasCert : Nat → Nat → Nat × Nat

/-- PRESUMED (log entry 18). The two firmware public keys in the ROM (R460). -/
opaque romKey : Nat → Nat

/-- PRESUMED (log entry 18). SHAKE256 of the persistent configuration in effect (R459), of the objects that are not at
their default and their values: the spec does not give the layout that is digested. -/
opaque configDigest : List (Nat × Nat) → BitVec 512

/-- PRESUMED (log entry 18). The identity public key (R457, R465). -/
opaque identityKey : BitVec 14344

end Sys2Proof.Config
end

