-- ==== Sys2Proof/Machine/State.lean ====
section
/-!
DEFINITION. The state of the module as plain data: every register, object, memory, queue and mode the spec names
(INVENTORY.md lists each with its rule), the reasons a step can stop, and the machine right after reset.
Tables whose entries are mostly at their reset value are sparse: a list of (key, value), keys strictly rising, no entry
equal to what an unlisted key reads as (Machine/Store.lean holds the operations on them).
-/
namespace Sys2Proof.Machine

/-- A sparse table: strictly rising keys, no entry equal to the value of an unlisted key. -/
abbrev Sparse (α : Type) := List (Nat × α)

/-- Why the machine stops. Each is raised by the model only, and is safe: where the spec says what happens the model
goes on (log entry 2). -/
inductive Fault where
  /-- Raised by a command that names an event which cannot occur in this state: no such group, step, message,
  transaction or timer. Safe: the hardware has no such event there. -/
  | cannotOccur
  deriving DecidableEq, Repr

/-- Why a command has no meaning. -/
inductive Refusal where
  /-- A command that is not modelled yet, by its mnemonic. Raised by exec's refused arms only. Safe. -/
  | notModelled (mnemonic : String)
  deriving DecidableEq, Repr

/-! ## Cores -/

/-- The KERNEL command on a core (R47, R111): step and command, function, code, arguments, the range of group indices, local
memory and resident groups, the attributes its accesses carry, whether further groups start, whether it has done what rules
out a re-run (R522), and whether its slice has ended, so that its groups do not issue (R61, R119). -/
structure CoreCmd where
  step     : Nat
  idx      : Nat
  fn       : Fn
  entry    : Nat
  args     : BitVec 64
  grid     : Nat
  first    : Nat
  count    : Nat
  next     : Nat
  lmemKib  : Nat
  resident : Nat
  tclass   : BitVec 3
  lat      : Bool
  seed     : Nat
  strict   : Bool
  stopping : Bool
  irreversible : Bool
  paused   : Bool
  deriving DecidableEq, Repr

/-- The group control state of a slot (R110), with the group's index and the model's record of a resolved wait, which
R118 orders groups by. -/
structure Group where
  pc        : Word
  mask      : Word
  exited    : Word
  status    : Word
  preds     : Vector Word 8
  conv      : Word
  watchdog  : Word
  barExpect : Byte
  gidx      : Nat
  waitsOn   : Nat
  resolved  : Option Nat
  deriving DecidableEq, Repr

/-- An empty slot (R119). -/
def Group.empty : Group :=
  ⟨0, 0, 0, 0, Vector.replicate 8 0, 0, 0, 0, 0, 0, none⟩

/-- One thread's place in a memory instruction that left the core: its line, the offset in it, the local address for a
transfer. -/
structure LaneAddr where
  lane : Fin 32
  line : Line
  off  : Nat
  la   : Nat
  deriving DecidableEq, Repr

/-- A line that a load or transfer waits for, whether its request has left the core, and what has arrived (R196, R218,
R220). -/
structure LineWait where
  line  : Line
  va    : Nat
  sent  : Bool
  got   : Bool
  data  : LineData
  marks : Marks
  deriving DecidableEq, Repr

/-- A load or atomic with RET whose data has not reached its registers (R117, R196, R201), with the attributes of its
access. -/
structure LoadRec where
  tag   : Nat
  ro    : Bool
  fn    : Fn
  tclass : BitVec 3
  lat   : Bool
  slot  : Fin 64
  pc    : Word
  dst   : BitVec 7
  width : BitVec 3
  sext  : Bool
  ret   : Bool
  lanes : List LaneAddr
  lines : List LineWait
  olds  : List (Fin 32 × BitVec 128)
  skipped : Bool
  deriving DecidableEq, Repr

/-- A transfer whose local span the range tracker holds (R163, R200). `out` is XFER to device memory. -/
structure XferRec where
  tag   : Nat
  slot  : Fin 64
  pc    : Word
  gidx  : Nat
  out   : Bool
  fin   : Bool
  width : Nat
  fn    : Fn
  tclass : BitVec 3
  lat   : Bool
  lanes : List LaneAddr
  lines : List LineWait
  deriving DecidableEq, Repr

/-- A write or atomic of the core not yet acknowledged (R266, R277): its message, whether it is a FINAL write, whether it
is held at the core, its issuing group, and whether that group has faulted already. -/
structure WriteRec where
  tag  : Nat
  kind : MsgKind
  msg  : Msg
  fin  : Bool
  held : Bool
  slot : Fin 64
  pc   : Word
  va   : Nat
  gidx : Nat
  quiet : Bool
  peer : Option PeerPacket
  deriving DecidableEq, Repr

/-- The matrix operations of R146. -/
inductive MatKind where
  | mma | mmaz | tzero | tld | tst
  deriving DecidableEq, Repr

/-- Where a queued matrix operation stands (R149, R150). -/
inductive MatPhase where
  | queued | running | draining
  deriving DecidableEq, Repr

/-- An entry of the matrix queue (R149): the operation, its ticket and tile, copies of its descriptors, its issuing
group with what R89 fixes at issue, its place in core issue order, whether it met poison (R165), and whether its group
has faulted already. -/
structure MatOp where
  kind   : MatKind
  ticket : Fin 16
  tile   : Fin 16
  da     : BitVec 256
  db     : BitVec 256
  slot   : Fin 64
  pc     : Word
  gidx   : Nat
  conv   : Nat
  phase  : MatPhase
  order  : Nat
  bad    : Bool
  quiet  : Bool
  deriving DecidableEq, Repr

/-- A local-memory load or store that the range tracker holds (R163, R164): its group's slot, its place in core issue
order, whether it stores, and the spans it touches. -/
structure HeldAcc where
  slot  : Fin 64
  order : Nat
  write : Bool
  spans : List (Nat × Nat)
  deriving DecidableEq, Repr

/-- One word of an inbox FIFO (R139, R140). -/
structure InWord where
  word  : Word
  last  : Bool
  abort : Bool
  kind  : Fin 3
  src   : Byte
  deriving DecidableEq, Repr

/-- The sender an inbox is locked to (R139): kind, source and host channel. -/
structure Sender where
  kind : Fin 3
  src  : Byte
  chan : Fin 8
  deriving DecidableEq, Repr

/-- The inbox of a core (R138 to R143): the FIFO, the lock, the words accepted of the packet that arrives, whether that
packet is discarded by a flush, a flush that waits, and whether a packet is partly read. -/
structure Inbox where
  fifo     : List InWord
  lock     : Option Sender
  arriving : Nat
  discard  : Bool
  flush    : Bool
  partRead : Bool
  deriving DecidableEq, Repr

/-- An inbox that is empty and unlocked (R112). -/
def Inbox.empty : Inbox := ⟨[], none, 0, false, false, false⟩

/-- A line of a read-only cache (R216, R221), and the discard mark it came with (R240, R242). -/
structure RoLine where
  data  : LineData
  marks : Marks
  disc  : Bool
  use   : Nat
  deriving DecidableEq, Repr

/-- A line that a read-only cache does not hold. -/
def RoLine.none : RoLine := ⟨0, 0, false, 0⟩

/-- A miss register (R218): its line, the sectors its waiters need, the critical sector, whether the unified cache has
answered, the sectors that have arrived, the line with its marks and discard mark, its waiters (slot and load tag), and
whether an invalidation met it on its way. -/
structure MissReg where
  no      : Fin 32
  line    : Line
  need    : Marks
  crit    : Fin 4
  avail   : Bool
  got     : Marks
  data    : LineData
  marks   : Marks
  disc    : Bool
  waiters : List (Fin 64 × Nat)
  drop    : Bool
  deriving DecidableEq, Repr

/-- What a core's site and clock report (R35, R358, R481, R531). -/
structure CoreHw where
  halved    : Bool
  gated     : Bool
  fenced    : Bool
  staggerNs : Nat
  deriving DecidableEq, Repr

/-- The state of one core, by logical number; `roQueue` holds the slots of read-only loads that wait to issue, in the order
in which they first tried (R219). -/
structure Core where
  cmd     : Option CoreCmd
  rf      : Sparse Word
  groups  : Sparse Group
  lmem    : List Host.Cell
  lmarks  : Sparse Bool
  tiles   : Sparse Word
  tmarks  : Sparse Bool
  descs   : Sparse (BitVec 256)
  tickets : Sparse Nat
  mq      : List MatOp
  loads   : List LoadRec
  xfers   : List XferRec
  writes  : List WriteRec
  held    : List HeldAcc
  roQueue : List Nat
  inbox   : Inbox
  ro      : Sparse RoLine
  miss    : List MissReg
  cycles  : Nat
  hw      : CoreHw
  deriving DecidableEq, Repr

/-- A core that runs nothing (R112; log entry 17 for what the spec gives no reset value). -/
def Core.idle : Core :=
  ⟨none, [], [], [], [], [], [], [], [], [], [], [], [], [], [], Inbox.empty, [], [], 0, ⟨false, false, false, 0⟩⟩

/-- The saved state of a stopped command's core (R62), with the device-virtual addresses of its pages in the function's
spill area; the restart state of a failed core has none (R522). -/
structure SpillRec where
  pages : List Nat
  step : Nat
  cmd  : Nat
  core : CoreNo
  save : Core
  deriving DecidableEq, Repr

/-! ## Caches and memory -/

/-- A transaction that holds a line BUSY (R255, R262): the request, the agents whose INV_ACK has not come, and whether
the owner's data or completion has not come, and the device line whose read it waits for, the line itself or its mirror
(R304, R316). -/
structure Txn where
  kind  : MsgKind
  msg   : Msg
  invs  : List Nat
  owner : Option Nat
  fill  : Option Nat
  deriving DecidableEq, Repr

/-- A line of a home partition with its directory entry (R255). -/
structure HomeLine where
  st        : Nat
  data      : LineData
  presence  : BitVec 292
  busy      : Option Txn
  pins      : List (Fn × Nat)
  soft      : Bool
  pinAt     : Nat
  discarded : Bool
  marks     : Marks
  use       : Nat
  deriving DecidableEq, Repr

/-- A line with no entry (R255: STATE 0). -/
def HomeLine.none : HomeLine := ⟨0, 0, 0, Option.none, [], false, 0, false, 0, 0⟩

/-- A line of a near partition (R258): 0 I, 1 S, 2 M, 3 in the write-back buffer (R265); the marks of its sectors, the discard
mark it came with (R240, R242), the PRES not acknowledged (R264), and whether a DWN of it is not acknowledged. -/
structure NearLine where
  st    : Nat
  data  : LineData
  marks : Marks
  disc  : Bool
  pres  : Nat
  down  : Bool
  use   : Nat
  deriving DecidableEq, Repr

/-- A line a near partition does not hold. -/
def NearLine.none : NearLine := ⟨0, 0, 0, false, 0, false, 0⟩

/-- A request that waits at a base die's port for DATA or GRANT (R263): whether it sent its own request, and whether an
invalidation met it, so that the line is not kept. -/
structure NearWait where
  slice : Fin 4
  kind  : MsgKind
  msg   : Msg
  sent  : Bool
  drop  : Bool
  deriving DecidableEq, Repr

/-- A refused request that waits for a credit (R270, R271), and whether the refusal has reached its port. -/
structure Refused where
  port : Fin 4
  kind : MsgKind
  msg  : Msg
  told : Bool
  deriving DecidableEq, Repr

/-- A message of R259 in flight. -/
structure Flight where
  kind : MsgKind
  msg  : Msg
  deriving DecidableEq, Repr

/-- The caches (R213 to R285). `accepted` holds the messages that a near partition has accepted and answers later: an INV
until its PRES messages are acknowledged, a forward or recall until then or until the GRANT it follows has come (R261,
R264). -/
structure CohState where
  home      : Sparse HomeLine
  near      : Sparse NearLine
  nearWait  : List NearWait
  conflictQ : List Flight
  credits   : Sparse Nat
  refused   : List Refused
  raceMode  : Nat
  bankMap   : Sparse Nat
  cacheCtr  : Sparse Nat
  net       : List Flight
  accepted  : List Flight
  deriving DecidableEq, Repr

/-- The operations of a memory controller (R292): a line read, the correction read that it causes, a line write, a mark-only
update, and code pages of a job. -/
inductive OpKind where
  | read | fix | write | mark | pages
  deriving DecidableEq, Repr

/-- An operation of a memory controller: its line (the first of its code page for `pages`), its arrival, the data and marks
of a write, whether the read is latency-critical; for `pages` its job and the code pages of it left on this controller. Jobs:
0 Chervil, 1 remap, 2 retirement, 16 + n the mirror copy of replica entry n. -/
structure CtrlOp where
  kind  : OpKind
  line  : Nat
  at_   : Nat
  data  : LineData
  marks : Marks
  lat   : Bool
  job   : Nat
  left  : Nat
  deriving DecidableEq, Repr

/-- A memory controller (R292, R293): its four queues, the operations that hold its slots, the last grants (queue numbers,
latest first). -/
structure Ctrl where
  lc     : List CtrlOp
  rd     : List CtrlOp
  wr     : List CtrlOp
  mt     : List CtrlOp
  active : List CtrlOp
  last   : List Nat
  deriving DecidableEq, Repr

/-- A controller with nothing to do. -/
def Ctrl.idle : Ctrl := ⟨[], [], [], [], [], []⟩

/-- A dictionary scrub pass in progress (R321). -/
structure ScrubPass where
  base    : Nat
  length  : Nat
  startNs : Nat
  deriving DecidableEq, Repr

/-- Memory and its protection (R286 to R328). `poison` holds the stored marks per sector; a sector of a remapped channel
(`remap`, by slow channel) reads marked until it is written, which `clean` records (R298, R299). `spare` holds where remapped
and retired code pages lie: by code page the spare slot of a retired one, and by 2^40 + channel the first spare slot that a
remapped channel's pages took there (R298, R323). -/
structure MemState where
  dev       : List Host.Cell
  poison    : Sparse Bool
  discard   : Sparse Bool
  clean     : Sparse Bool
  host      : List Host.Cell
  hostBad   : Sparse Bool
  ctrl      : Sparse Ctrl
  remap     : Sparse Nat
  spare     : Sparse Nat
  withdrawn : Sparse Bool
  scrub     : Option ScrubPass
  pinnedPages : List Nat
  deriving DecidableEq, Repr

/-! ## Steps and commands -/

/-- The status codes of R73. -/
inductive StepStatus where
  | done | doneDegraded | delayed | refusedCapacity | refusedQuota | refusedClass | poison | faultUnrecovered
  | abortedDisable | abortedReset | overrun | groupFault
  deriving DecidableEq, Repr

/-- Where a command of a step stands. -/
inductive CmdPhase where
  | waiting | running | done | cancelled
  deriving DecidableEq, Repr

/-- A command as read (R44): its device-virtual address, header, payload in 32 B records, and what its read met; the cores
it runs on and its start; the start of the slice that runs, or of an engine's command the end of its latest slice (R61); the
units of a sliced command done, and what a scrub has counted of them. -/
structure Cmd where
  va      : Nat
  hdr     : BitVec 256
  payload : List (BitVec 256)
  bad     : Option (Byte × Nat)
  phase   : CmdPhase
  cores   : List CoreNo
  startNs : Nat
  waitTick : Nat
  sliceNs : Option Nat
  units   : Nat
  tally   : List Nat
  deriving DecidableEq, Repr

/-- The data of a COPY segment for a core's local memory (R113): the core, the local offset, the length, the bytes, and the
local spans whose bytes came from marked sectors. -/
structure Deposit where
  core : CoreNo
  off  : Nat
  len  : Nat
  data : Nat
  bad  : List (Nat × Nat)
  deriving DecidableEq, Repr

/-- Where a step stands: read into the store, admitted, started, ended with its entry not yet written. -/
inductive StepPhase where
  | fresh | admitted | running | ended
  deriving DecidableEq, Repr

/-- An entry of the step store (R400): the descriptor (R41), its doorbell time, and what R72 and R76 need. -/
structure Step where
  key       : Nat
  fn        : Fn
  sq        : Fin 64
  raw       : BitVec 1024
  doorbell  : Nat
  phase     : StepPhase
  admTick   : Nat
  start     : Option Nat
  startNs   : Nat
  lastTick  : Nat
  endAt     : Nat
  preempts  : Nat
  usedUs    : Nat
  statuses  : List StepStatus
  errRef    : Nat
  degraded  : Bool
  replan    : Bool
  voided    : Bool
  readBad   : Option Byte
  prev      : Nat
  deposits  : List Deposit
  cmds      : List Cmd
  deriving DecidableEq, Repr

/-- Core-time that a plan gives a step (R53). -/
structure PlanItem where
  step  : Nat
  coreUs : Nat
  deriving DecidableEq, Repr

/-- A visible descriptor that the module has not read: queue, index, doorbell time (R40, R399). -/
structure Doorbell where
  fn  : Fn
  sq  : Fin 64
  idx : Nat
  ns  : Nat
  deriving DecidableEq, Repr

/-- Sage (R36 to R77). `periodReq` is the tick period in use while a new one waits for the module to leave quiesce, 0 when
none waits (R36); `timeStep` is a step of device time that waits for a tick boundary (R384); `spillNow` holds the spill
areas in effect since the latest cut-off, base by function and pages by 256 + function (R60); `lastRead` is the last step
read from each submission queue, which ORDERED refers to (R42). `placed` and `placedNow` hold the commands of the planned
and of the loaded tick in the order in which the engines they are placed on take them (R58). -/
structure SageState where
  steps     : List Step
  doorbells : List Doorbell
  plan      : List PlanItem
  planTick  : Nat
  loaded    : List PlanItem
  deficit   : Sparse Int
  quota     : Sparse Nat
  acct      : Sparse Nat
  spills    : List SpillRec
  restarts  : List SpillRec
  strictNow : Sparse Bool
  spillNow  : Sparse Nat
  ran       : Sparse Bool
  periodReq : Nat
  timeStep  : Int
  lastRead  : Sparse Nat
  placed    : List Placement
  placedNow : List Placement
  deriving DecidableEq, Repr

/-! ## Logs and events -/

/-- A log record (R454, R527). -/
structure LogRec where
  index    : Nat
  kind     : Nat
  severity : Nat
  func     : Nat
  time     : Nat
  tick     : Nat
  cause    : Nat
  scope    : Nat
  core     : Nat
  pc       : Nat
  stepId   : Nat
  address  : Nat
  block    : Nat
  slot     : Nat
  sparesLeft : Nat
  cmdIndex : Nat
  durationUs : Nat
  seqRef   : Nat
  detail   : Nat
  deriving DecidableEq, Repr

/-- An event that waits to be written to a function's event queue (R405). -/
structure EvRec where
  fn     : Fn
  kind   : Nat
  code   : Nat
  queue  : Nat
  stepId : Nat
  tick   : Nat
  time   : Nat
  errRef : Nat
  deriving DecidableEq, Repr

/-- A start record (R513). -/
structure StartRec where
  number  : Nat
  kind    : Nat
  cause   : Nat
  result  : Nat
  step    : Nat
  processor : Nat
  slot    : Nat
  fails   : Nat
  straps  : Nat
  failBlock : Block
  failDetail : Word
  refclkRestarts : Nat
  stepEnds : List Nat
  selfTest : List Nat
  verify  : List Nat
  deriving DecidableEq, Repr

/-- What the module sends to the outside. -/
inductive Output where
  | msix (fn : Fn) (vector : Nat)
  | aer (fn : Fn) (error : String) (fatal : Nat) (ref : Nat)
  | completion (fn : Fn) (len : Nat) (data : Nat) (ep : Bool)
  | ur (fn : Fn)
  | uart (index kind cause : Nat)
  | reply (who : Nat) (status op : Nat) (index sub : Nat) (offset count : Nat) (len : Nat) (body port : Nat)
  | datagram (kind : Nat) (session : Nat) (len : Nat) (body port : Nat)
  | hostWrite (fn : Fn) (addr : Nat) (len : Nat) (data : Nat) (ep : Bool) (relaxed : Bool)
  | light (port : Nat) (on : Bool)
  | ring (pattern : String)
  | timeStamp (port : Nat)
  | tagDone (port : Nat) (fn : Fn) (tag : BitVec 16) (seq : Nat)
  | tagDoneReply (port : Nat) (fn : Fn) (tag : BitVec 16) (ok : Bool)
  | peer (port : Nat) (pk : PeerPacket)
  | peerReply (port : Nat) (seq : Nat) (code : Nat) (ops : List LaneOp)
  | flit (l : LinkId) (f : Flit)
  | hb (writes : Nat)
  deriving DecidableEq, Repr

/-! ## Host -/

/-- A graceful quiesce (R417): its time, the drain limit in ticks and the tick period in effect then. -/
structure Drain where
  ns     : Nat
  limit  : Nat
  period : Nat
  deriving DecidableEq, Repr

/-- A function command that runs (R410): its code and function, its result, and the model's order stamp of its start, by
which an invalidation knows the accesses made before it. -/
structure FCmd where
  op     : Nat
  fn     : Fn
  result : Nat
  since  : Nat
  deriving DecidableEq, Repr

/-- A function in ZEROING (R419): the writable device pages of the context as it stood at the disable. -/
structure Zeroing where
  fn    : Fn
  pages : List Nat
  deriving DecidableEq, Repr

/-- An interrupt message waiting for its aggregation time (R404): the completion queue, or 64 for the event queue. -/
structure IrqWait where
  fn     : Fn
  queue  : Nat
  deriving DecidableEq, Repr

/-- The host interface and the functions (R390 to R423, R535 to R550); `moved` marks the functions that a module quiesce
moved or holds (R437). -/
structure HostState where
  linkUp   : Bool
  perst    : Bool
  vfEnable : Bool
  numVfs   : Nat
  bar2Log2 : Nat
  ctxBase  : Sparse Nat
  ctxSet   : Sparse Bool
  tlb      : Sparse Nat
  evc      : Sparse Nat
  drains   : Sparse (Option Drain)
  moved    : Sparse Bool
  dirty    : Sparse Nat
  fcmd     : Option FCmd
  zeroing  : List Zeroing
  chanDrop : Sparse Bool
  evPend   : List EvRec
  evLost   : Sparse Nat
  irq      : List IrqWait
  heads    : Sparse Nat
  stopped  : Sparse Bool
  windows  : Sparse Nat
  grants   : Sparse Nat
  deriving DecidableEq, Repr

/-! ## Network, links, reduction -/

/-- A packet in an end-to-end retry buffer (R340), with the device time of its last sending. -/
structure E2e where
  src     : Nat
  dst     : Nat
  seq     : Nat
  kind    : MsgKind
  msg     : Msg
  resends : Nat
  sentNs  : Nat
  deriving DecidableEq, Repr

/-- A reply that a destination keeps for a sender (R341). -/
structure E2eReply where
  src     : Nat
  dst     : Nat
  seq     : Nat
  kind    : MsgKind
  reply   : Msg
  deriving DecidableEq, Repr

/-- A combining entry of a Chive unit (R343, R344, R345): the packet built so far, the packets absorbed, the sender and number
of each, and when it was taken. -/
structure ChiveEntry where
  unit     : Nat
  packet   : RedPacket
  absorbed : Nat
  senders  : List (Nat × Nat)
  sinceNs  : Nat
  deriving DecidableEq, Repr

/-- A reduction packet that its sender keeps until it is acknowledged (R340, R345): where it goes, either the packets
that a Chive unit absorbed into it or the command that it serves, its resends and last sending, and whether it waits for one of
its sender's 64 places. -/
structure RedSent where
  packet   : RedPacket
  dst      : Nat
  absorbed : List (Nat × Nat)
  step     : Nat
  idx      : Nat
  resends  : Nat
  sentNs   : Nat
  held     : Bool
  deriving DecidableEq, Repr

/-- What a Chive unit keeps of a packet that it absorbed and acknowledged (R345): the unit, the packet's sender, number and
line, and when the unit's own packet was acknowledged. -/
structure RedDone where
  unit : Nat
  src  : Nat
  seq  : Nat
  line : Line
  ns   : Nat
  deriving DecidableEq, Repr

/-- A reduce in progress (R347 to R349): the ports whose TAG_DONE has not come, the tick of its start, the partner whose
window DST lies in, and whether its own TAG_DONE has been sent. -/
structure RedCmd where
  step    : Nat
  idx     : Nat
  fn      : Fn
  tag     : BitVec 16
  waiting : BitVec 8
  start   : Nat
  window  : Option Nat
  dst     : Nat
  told    : Bool
  deriving DecidableEq, Repr

/-- A tag-table entry of a Chive unit (R344). -/
structure ChiveTag where
  unit  : Nat
  fn    : Fn
  tag   : BitVec 16
  fanIn : Nat
  deriving DecidableEq, Repr

/-- A packet that waits at a link end: its slot, virtual channel and units of 16 B, and the units themselves, the header
lowest (R331, R337). -/
structure LinkPacket where
  slot  : Nat
  vc    : Nat
  units : Nat
  body  : Nat
  deriving DecidableEq, Repr

/-- The link layer of one direction of a bundle, or of a port (R351, R352, R369): the sender's next SEQ, its retry buffer
with the slot of each flit, the resends since an ACK advanced, the credits received and units sent per VC, the packets
that wait; the receiver's next expected SEQ and whether it has sent NAK; the VC0 packets granted in a row and the place in the
weighted round robin of the others (R337); the units that the receiver has freed per VC, and those still to come of the packet
that arrives on each (R350, R352). -/
structure LinkDir where
  next    : Nat
  unacked : List (Nat × Flit)
  resends : Nat
  expect  : Nat
  nakSent : Bool
  credits : Sparse Nat
  sent    : Sparse Nat
  wait    : List LinkPacket
  run0    : Nat
  turn    : Nat
  freed   : Sparse Nat
  left    : Sparse Nat
  deriving DecidableEq, Repr

/-- A link direction with its counts at zero (R352). -/
def LinkDir.fresh : LinkDir := ⟨0, [], 0, 0, false, [], [], [], 0, 0, [], []⟩

/-- A packet that its base die holds while its slot of a diagonal pair drains (R356): the pair, the two base dies, the
packet. -/
structure DrainHold where
  pair   : Nat
  src    : Nat
  dst    : Nat
  packet : LinkPacket
  deriving DecidableEq, Repr

/-- The package network (R329 to R363). `e2eHold` holds the packets that wait for one of their sender's 64 places (R340),
`pathReports` the paths that senders have reported to Lovage (R342), `routeTable` the router table entries that differ from
the default, by 44 x router + destination (R335, R359), `limits` the values of 2060h in effect since the last tick boundary,
by subindex (R362). -/
structure NetState where
  e2e       : List E2e
  e2eSeq    : Sparse Nat
  e2eDone   : List E2eReply
  e2eHold   : List Flight
  pathReports : List (Nat × Nat)
  routeTable : Sparse Nat
  redNet    : List RedPacket
  redSent   : List RedSent
  redDone   : List RedDone
  reds      : List RedCmd
  chive     : List ChiveEntry
  chiveTags : List ChiveTag
  links     : Sparse LinkDir
  laneFlags : Sparse Bool
  slotTable : Sparse Nat
  drainSlots : List (Nat × Nat)
  drainHold : List DrainHold
  lost      : Bool
  reported  : List Nat
  fenced    : List Nat
  limits    : Sparse Nat
  deriving DecidableEq, Repr

/-! ## Peer ports -/

/-- What a port is doing (R366, R370, R371): light on its receive fibres, reduced power, an IDENT seen, fibres removed
per direction with their clean tests. -/
structure PortRt where
  light    : Bool
  reduced  : Bool
  lasers   : Bool
  removed  : Sparse Nat
  deriving DecidableEq, Repr

/-- A dark port. -/
def PortRt.dark : PortRt := ⟨false, false, false, []⟩

/-- A packet sent to a partner and not answered (R381): the step and command it belongs to, and the core and tag of the
write that it carries; `core` is 256 for a command's own packet; its last sending, and whether it waits at its port for one
of the group's 4,096 places. -/
structure PeerSent where
  port : Nat
  partner : Nat
  seq  : Nat
  pk   : PeerPacket
  resends : Nat
  step : Nat
  idx  : Nat
  core : Nat
  tag  : Nat
  line : Line
  sentNs : Nat
  held : Bool
  deriving DecidableEq, Repr

/-- The reply to a packet that a partner sent (R381): its module and number, the reply's code (0 applied, 1 an atomic
operation skipped over poison, 2 refused, 3 a translation fault) and the old values of an atomic. -/
structure PeerDone where
  module : Nat
  seq    : Nat
  code   : Nat
  ops    : List LaneOp
  deriving DecidableEq, Repr

/-- A reduction packet of a partner that its home has not acknowledged (R348, R381): the port, the module, its number. -/
structure PeerTaken where
  port   : Nat
  module : Nat
  seq    : Nat
  deriving DecidableEq, Repr

/-- Peer ports (R364 to R389); `locked` says that the follower has locked to its source since the start (R384). -/
structure PeerState where
  ports   : Sparse PortRt
  seq     : Sparse Nat
  sent    : List PeerSent
  answered : List PeerDone
  taken   : List PeerTaken
  locked  : Bool
  tags    : List (Nat × Fn × BitVec 16)
  deriving DecidableEq, Repr

/-! ## Management -/

/-- A dictionary reply (R441). -/
structure DictReply where
  status : Nat
  op     : Nat
  index  : Nat
  sub    : Nat
  offset : Nat
  count  : Nat
  len    : Nat
  body   : Nat
  deriving DecidableEq, Repr

/-- A management session (R443, R444). `open_` is false between CHALLENGE and AUTH. -/
structure Session where
  place   : Fin 8
  number  : Nat
  keySlot : Nat
  open_   : Bool
  key     : Nat
  hash    : Nat
  highest : Nat
  replies : List (Nat × DictReply)
  acctSel : Nat
  logSel  : Nat
  deriving DecidableEq, Repr

/-- A dictionary write that waits for the standby's acknowledgement, and whether a heartbeat has carried its copy (R425). -/
structure HeldWrite where
  who    : Requester
  req    : DictReq
  sent   : Bool
  deriving DecidableEq, Repr

/-- A partly received message (R440), and its segments that have come. -/
structure Segment where
  session : Nat
  reqId   : Nat
  got     : List Nat
  deriving DecidableEq, Repr

/-- A firmware slot (R460, R461): VERSION, SECURITY_VERSION, STATE, and the image bytes. -/
structure FwSlot where
  version  : Nat
  security : Nat
  state    : Nat
  image    : List Host.Cell
  deriving DecidableEq, Repr

/-- Iluon (R424 to R465). `lastSample` holds, for the monitors, PIN_REQUESTS at the last tick boundary by function, the flits
resent since the last sample by 256 + link, and by 512 + sensor whether its failure is recorded. -/
structure MgmtState where
  primary   : Fin 2
  held      : List HeldWrite
  hbOut     : Bool
  sessions  : List Session
  segments  : List Segment
  fwA       : FwSlot
  fwB       : FwSlot
  updOwner  : Option Requester
  trial     : Bool
  floorRead : Nat
  cfgApplied : Bool
  hbAcked   : Bool
  persist   : Sparse Nat
  copyValid : Bool × Bool
  copyLast  : Fin 2
  identity  : Bool
  fwDigest  : Nat
  logPend   : List LogRec
  log       : List LogRec
  starts    : List StartRec
  alarmTick : Sparse Nat
  lastSample : Sparse Nat
  acctSel   : Sparse Nat
  logSel    : Sparse Nat
  ringDriven : Bool
  uptime    : Nat
  deriving DecidableEq, Repr

/-! ## Power, starts, service -/

/-- A power feed (R467): whether it is valid, and whether its input switch is open. -/
structure Feed where
  valid    : Bool
  switchOpen : Bool
  deriving DecidableEq, Repr

/-- A hinted phase (R480). -/
structure HintPhase where
  step      : Nat
  cmd       : Nat
  intensity : Nat
  fromNs    : Nat
  untilNs   : Nat
  raised    : Bool
  deriving DecidableEq, Repr

/-- Power, clocks and heat (R466 to R496). -/
structure PowerState where
  domains   : BitVec 20
  feedA     : Feed
  feedB     : Feed
  refclk    : Bool
  counting  : Bool
  restarts  : Nat
  stopCause : Bool
  pllLocked : Bool
  selfRefresh : Bool
  lasersDark : Bool
  railsRaised : BitVec 8
  hints     : List HintPhase
  dieLimit  : Sparse Nat
  powerCut  : Sparse Nat
  deriving DecidableEq, Repr

/-- A start in progress (R497): cold or warm, its cause and its number, whether it has failed, and whether its steps before
release have ended. -/
structure StartRun where
  cold  : Bool
  cause : Nat
  number : Nat
  failed : Bool
  done  : Bool
  deriving DecidableEq, Repr

/-- Starts, service and fail-over (R497 to R534); `rejoin` holds the sites whose clock domain was reset and which passed
self-test, free spares again once their numbers have moved (R488). -/
structure CtlState where
  straps     : BitVec 9
  strapPins  : BitVec 9
  start      : Option StartRun
  thermalHold : Bool
  drainLater : Bool
  takeover   : List Block
  waiting    : List Block
  rejoin     : List Nat
  unusable   : List Block
  siteOf     : Sparse Nat
  ceilings   : Sparse Nat
  deriving DecidableEq, Repr

/-- The state of the module. `pending` is the queue of commands that wait, first in, first out; `free` counts uses of
the free values of Config and `stamp` orders uses and arrivals (the model's own fields, log entry 9). -/
structure State where
  pending : List Instr
  free    : Nat
  stamp   : Nat
  out     : List Output
  grade   : Nat
  now     : Nat
  dict    : Sparse Nat
  regs    : Sparse Nat
  cores   : Sparse Core
  coh     : CohState
  mem     : MemState
  sage    : SageState
  host    : HostState
  net     : NetState
  peer    : PeerState
  mgmt    : MgmtState
  power   : PowerState
  ctl     : CtlState
  deriving DecidableEq, Repr

/-- The machine right after reset: no feed is valid, every domain is off, no start has begun, and every object and
register holds its reset value (log entries 4 to 9, 12, 17 to 19 for those the spec gives none). -/
def State.reset : State where
  pending := []
  free := 0
  stamp := 0
  out := []
  grade := 32
  now := 0
  dict := []
  regs := []
  cores := []
  coh := ⟨[], [], [], [], [], [], 0, [], [], [], []⟩
  mem := ⟨[], [], [], [], [], [], [], [], [], [], none, []⟩
  sage := ⟨[], [], [], 0, [], [], [], [], [], [], [], [], [], 0, 0, [], [], []⟩
  host := ⟨false, false, false, 0, 28, [], [], [], [], [], [], [], none, [], [], [], [], [], [], [], [], []⟩
  net := ⟨[], [], [], [], [], [], [], [], [], [], [], [], [], [], [], [], [], false, [], [], []⟩
  peer := ⟨[], [], [], [], [], false, []⟩
  mgmt := ⟨0, [], false, [], [], ⟨0x01000000, 0, 1, []⟩, ⟨0, 0, 0, []⟩, none, false, 0, false, false, [],
    (true, true), 0, false, 0, [], [], [], [], [], [], [], false, 0⟩
  power := ⟨0, ⟨false, false⟩, ⟨false, false⟩, true, false, 0, false, false, false, true, 0, [], [], []⟩
  ctl := ⟨8, 8, none, false, false, [], [], [], [], [], []⟩

end Sys2Proof.Machine
end

