-- ==== Sys2Proof/Machine/Store.lean ====
section
/-!
DEFINITION. Operations on sparse tables and byte memories: one canonical form, so that equal contents are equal data.
-/
namespace Sys2Proof.Machine

/-- What key `k` of a sparse table reads as; an unlisted key reads as `d k`. -/
def sget {α : Type} (d : Nat → α) : Sparse α → Nat → α
  | [], k => d k
  | (j, v) :: t, k => if j = k then v else sget d t k

/-- Removes every entry of key `k`. -/
def sdel {α : Type} (m : Sparse α) (k : Nat) : Sparse α := m.filter fun p => p.1 != k

/-- Puts an entry before the first one of a greater key. -/
def sins {α : Type} : Sparse α → Nat → α → Sparse α
  | [], k, v => [(k, v)]
  | p :: t, k, v => if k < p.1 then (k, v) :: p :: t else p :: sins t k v

/-- Writes `v` at key `k`; writing what the unlisted key reads as removes the entry. -/
def sset {α : Type} [DecidableEq α] (d : Nat → α) (m : Sparse α) (k : Nat) (v : α) : Sparse α :=
  if v = d k then sdel m k else sins (sdel m k) k v

/-- Removes every entry whose key lies in `lo` to `hi - 1`: those keys read as unlisted ones. -/
def sclear {α : Type} (m : Sparse α) (lo hi : Nat) : Sparse α :=
  m.filter fun p => !(decide (lo ≤ p.1) && decide (p.1 < hi))

/-- The canonical form of a sparse table: keys strictly rising from `lo`, no entry equal to the unlisted value. -/
def swf {α : Type} [DecidableEq α] (d : Nat → α) : Nat → Sparse α → Bool
  | _, [] => true
  | lo, (k, v) :: t => decide (lo ≤ k) && decide (v ≠ d k) && swf d (k + 1) t

/-- The unlisted value of a byte memory (R326; log entry 12). -/
def zeroByte : Nat → Byte := fun _ => 0

/-- One byte of a memory. -/
def memGet (m : List Host.Cell) (a : Nat) : Byte := sget zeroByte m a

/-- Writes one byte of a memory. -/
def memSet (m : List Host.Cell) (a : Nat) (b : Byte) : List Host.Cell := sset zeroByte m a b

/-- The canonical form of a byte memory. -/
def Memory.wf (m : List Host.Cell) : Bool := swf zeroByte 0 m

/-- `n` bytes from address `a`, little-endian (R81, R430). -/
def memRead (m : List Host.Cell) : Nat → Nat → Nat
  | _, 0 => 0
  | a, n + 1 => (memGet m a).toNat + 256 * memRead m (a + 1) n

/-- Writes the `n` low bytes of `v` at address `a`, little-endian. -/
def memWrite (m : List Host.Cell) : Nat → Nat → Nat → List Host.Cell
  | _, 0, _ => m
  | a, n + 1, v => memWrite (memSet m a (BitVec.ofNat 8 v)) (a + 1) n (v / 256)

/-- Writes those of the `n` low bytes of `v` whose bit of `mask` is set. -/
def memWriteMask (m : List Host.Cell) : Nat → Nat → Nat → Nat → List Host.Cell
  | _, 0, _, _ => m
  | a, n + 1, v, mask =>
    memWriteMask (if mask % 2 = 1 then memSet m a (BitVec.ofNat 8 v) else m) (a + 1) n (v / 256) (mask / 2)

/-- Bits `off + len - 1` to `off` of a number. -/
def bits (v off len : Nat) : Nat := (v >>> off) % 2 ^ len

/-- Replaces bits `off + len - 1` to `off` of a number. -/
def putBits (v off len x : Nat) : Nat :=
  v - (bits v off len <<< off) + ((x % 2 ^ len) <<< off)

/-- One bit of a number. -/
def bit (v i : Nat) : Bool := v.testBit i

/-- 1 for true. -/
def b2n (b : Bool) : Nat := if b then 1 else 0

/-- Adds to a counter of `w` bits that saturates at all ones (R106). -/
def satAdd (w a b : Nat) : Nat := min (a + b) (2 ^ w - 1)

/-- The line's byte mask spread over its bits. -/
def spreadMask (m : ByteMask) : LineData :=
  BitVec.ofNat 4096 (go 512 m.toNat 0)
where
  go : Nat → Nat → Nat → Nat
    | 0, _, acc => acc
    | n + 1, m, acc => go n m (acc + (if m.testBit n then 255 <<< (8 * n) else 0))

/-- `old` with the bytes under `mask` taken from `new` (R262, R279). -/
def lineMerge (old new : LineData) (mask : ByteMask) : LineData :=
  let s := spreadMask mask
  (new &&& s) ||| (old &&& ~~~s)

/-- `n` bytes of a line from offset `o`. -/
def lineBytes (d : LineData) (o n : Nat) : Nat := bits d.toNat (8 * o) (8 * n)

/-- A byte mask of `n` bytes from offset `o`. -/
def maskOf (o n : Nat) : ByteMask := BitVec.ofNat 512 ((2 ^ n - 1) <<< o)

/-- A line that holds the `n` low bytes of `v` at offset `o`. -/
def lineOf (o n v : Nat) : LineData := BitVec.ofNat 4096 ((v % 2 ^ (8 * n)) <<< (8 * o))

/-- The sectors that a byte mask touches (R213). -/
def touched (m : ByteMask) : Marks :=
  BitVec.ofNat 4 (b2n (decide (bits m.toNat 0 128 ≠ 0)) + 2 * b2n (decide (bits m.toNat 128 128 ≠ 0)) +
    4 * b2n (decide (bits m.toNat 256 128 ≠ 0)) + 8 * b2n (decide (bits m.toNat 384 128 ≠ 0)))

/-- The sectors that a byte mask covers whole (R310). -/
def covered (m : ByteMask) : Marks :=
  BitVec.ofNat 4 (b2n (decide (bits m.toNat 0 128 = 2 ^ 128 - 1)) +
    2 * b2n (decide (bits m.toNat 128 128 = 2 ^ 128 - 1)) +
    4 * b2n (decide (bits m.toNat 256 128 = 2 ^ 128 - 1)) +
    8 * b2n (decide (bits m.toNat 384 128 = 2 ^ 128 - 1)))

/-- The marks of a line after a write under `mask` of data marked `new` (R310): a sector covered whole takes the mark
of the data; one covered in part keeps its mark and takes that of the data. -/
def mergeMarks (old new : Marks) (mask : ByteMask) : Marks :=
  (covered mask &&& new) ||| (~~~(covered mask) &&& (old ||| (touched mask &&& new)))

/-- The first element of a list that satisfies `p`, with the others in order. -/
def takeFirst {α : Type} (p : α → Bool) : List α → Option (α × List α)
  | [] => none
  | x :: t => if p x then some (x, t) else (takeFirst p t).map fun r => (r.1, x :: r.2)

/-- Replaces the first element that satisfies `p`. -/
def updFirst {α : Type} (p : α → Bool) (f : α → α) : List α → List α
  | [] => []
  | x :: t => if p x then f x :: t else x :: updFirst p f t

end Sys2Proof.Machine
end

