-- ==== Sys2Proof/Machine/Fp.lean ====
section
/-!
DEFINITION. Number formats and arithmetic (spec/03_number_formats.md): the eight element formats, exact values,
the three rounding modes, saturation, block scales, and the arithmetic every unit that adds numbers uses.
-/
namespace Sys2Proof.Machine

/-- The exact value of a code: a NaN, an infinity, or (-1)^s x m x 2^e (R78, R79). A zero keeps its sign. -/
inductive FVal where
  | nan
  | inf (s : Bool)
  | fin (s : Bool) (m : Nat) (e : Int)
  deriving DecidableEq, Repr

/-- A floating-point format of R78: mantissa width, exponent bias, the code of the largest finite magnitude, the code of
infinity and the canonical NaN where the format has them (R79). -/
structure Fmt where
  mw   : Nat
  ew   : Nat
  bias : Nat
  maxCode : Nat
  infCode : Option Nat
  nanCode : Option Nat
  deriving DecidableEq, Repr

/-- FP32. -/
def Fmt.fp32 : Fmt := ⟨23, 8, 127, 0x7F7FFFFF, some 0x7F800000, some 0x7FC00000⟩
/-- FP16. -/
def Fmt.fp16 : Fmt := ⟨10, 5, 15, 0x7BFF, some 0x7C00, some 0x7E00⟩
/-- BF16. -/
def Fmt.bf16 : Fmt := ⟨7, 8, 127, 0x7F7F, some 0x7F80, some 0x7FC0⟩
/-- FP8-E4M3. -/
def Fmt.e4m3 : Fmt := ⟨3, 4, 7, 0x7E, none, some 0x7F⟩
/-- FP8-E5M2. -/
def Fmt.e5m2 : Fmt := ⟨2, 5, 15, 0x7B, some 0x7C, some 0x7E⟩
/-- FP4-E2M1. -/
def Fmt.e2m1 : Fmt := ⟨1, 2, 1, 0x7, none, none⟩

/-- The width of a format's codes. -/
def Fmt.width (f : Fmt) : Nat := f.mw + f.ew + 1

/-- The floating-point format of a format code (R78); INT8, INT4 and the reserved codes have none. -/
def fmtOf (code : Nat) : Option Fmt :=
  match code with
  | 0 => some .fp32
  | 1 => some .fp16
  | 2 => some .bf16
  | 3 => some .e4m3
  | 4 => some .e5m2
  | 5 => some .e2m1
  | _ => none

/-- Element bits of a format code (R78); 0 for a reserved code. -/
def fmtBits (code : Nat) : Nat :=
  match code with
  | 0 => 32 | 1 => 16 | 2 => 16 | 3 => 8 | 4 => 8 | 5 => 4 | 6 => 8 | 7 => 4 | _ => 0

/-- The value of a code of a floating-point format (R78, R79). -/
def Fmt.decode (f : Fmt) (code : Nat) : FVal :=
  let m := bits code 0 f.mw
  let e := bits code f.mw f.ew
  let s := bit code (f.mw + f.ew)
  let mag := bits code 0 (f.mw + f.ew)
  if mag ≤ f.maxCode then
    if e = 0 then .fin s m (1 - (f.bias : Int) - f.mw)
    else .fin s (2 ^ f.mw + m) ((e : Int) - f.bias - f.mw)
  else if f.infCode = some mag then .inf s
  else .nan

/-- A two's-complement integer of `w` bits as a signed number (R78). -/
def sint (w v : Nat) : Int := if 2 ^ (w - 1) ≤ v % 2 ^ w then ((v % 2 ^ w : Nat) : Int) - 2 ^ w else ((v % 2 ^ w : Nat) : Int)

/-- An integer as an exact value. -/
def FVal.ofInt (i : Int) : FVal := .fin (decide (i < 0)) i.natAbs 0

/-- The value of an element of any format code (R78). -/
def elemVal (code v : Nat) : FVal :=
  match fmtOf code with
  | some f => f.decode v
  | none => FVal.ofInt (sint (fmtBits code) v)

/-- The rounding modes of R86; `sr` carries the random value r of R88. -/
inductive RMode where
  | rne
  | rtz
  | sr (r : Nat)
  deriving DecidableEq, Repr

/-- Rounds the quotient `m / 2^d` to an integer in a mode (R86, R88). -/
def roundShift (mode : RMode) (m d : Nat) : Nat :=
  let k := m >>> d
  let rem := m % 2 ^ d
  match mode with
  | .rtz => k
  | .rne => if 2 ^ d < 2 * rem ∨ (2 * rem = 2 ^ d ∧ d ≠ 0 ∧ k % 2 = 1) then k + 1 else k
  | .sr r => if r < 65536 * rem / 2 ^ d then k + 1 else k

/-- A finite non-zero magnitude m x 2^e rounded to the spacing of a format, the exponent range having no upper limit:
the integer and its exponent (R92). -/
def Fmt.roundMag (f : Fmt) (mode : RMode) (m : Nat) (e : Int) : Nat × Int :=
  let emin : Int := 1 - (f.bias : Int) - f.mw
  let q : Int := max ((Nat.log2 m : Int) + e - f.mw) emin
  if q ≤ e then (m <<< (e - q).toNat, q)
  else (roundShift mode m (q - e).toNat, q)

/-- The code of a rounded magnitude k x 2^q that lies on a format's spacing, without its sign. It is larger than
`maxCode` for a magnitude beyond the largest finite value. -/
def Fmt.magCode (f : Fmt) (k : Nat) (q : Int) : Nat :=
  let emin : Int := 1 - (f.bias : Int) - f.mw
  if k < 2 ^ f.mw then k
  else if k < 2 ^ (f.mw + 1) then ((q - emin + 1).toNat <<< f.mw) + (k - 2 ^ f.mw)
  else ((q - emin + 2).toNat <<< f.mw) + (k / 2 - 2 ^ f.mw)

/-- The sign bit of a code. -/
def Fmt.sign (f : Fmt) (s : Bool) : Nat := if s then 2 ^ (f.mw + f.ew) else 0

/-- What a narrowing conversion does: the code, whether it saturated and whether it wrote a NaN as 0 (R92). -/
structure Narrow where
  code : Nat
  sat  : Bool
  nan0 : Bool
  deriving DecidableEq, Repr

/-- A narrowing conversion to a floating-point format (R92). A format without an infinity saturates; FP8-E5M2 saturates
finite values and keeps infinities; FP32, FP16 and BF16 overflow to infinity, or in RTZ to the largest finite value,
which counts as a saturation. -/
def Fmt.narrow (f : Fmt) (mode : RMode) (v : FVal) : Narrow :=
  match v with
  | .nan => ⟨f.nanCode.getD 0, false, false⟩
  | .inf s =>
    match f.infCode with
    | some c => ⟨c + f.sign s, false, false⟩
    | none => ⟨f.maxCode + f.sign s, true, false⟩
  | .fin s 0 _ => ⟨f.sign s, false, false⟩
  | .fin s m e =>
    let p := f.roundMag mode m e
    let c := f.magCode p.1 p.2
    if c ≤ f.maxCode then ⟨c + f.sign s, false, false⟩
    else
      match f.infCode, mode with
      | some i, .rne => if 10 ≤ f.ew + f.mw then ⟨i + f.sign s, false, false⟩ else ⟨f.maxCode + f.sign s, true, false⟩
      | some i, .sr _ => if 10 ≤ f.ew + f.mw then ⟨i + f.sign s, false, false⟩ else ⟨f.maxCode + f.sign s, true, false⟩
      | _, _ => ⟨f.maxCode + f.sign s, true, false⟩

/-- A narrowing conversion to a two's-complement integer of `w` bits (R92). -/
def narrowInt (w : Nat) (mode : RMode) (v : FVal) : Narrow :=
  let top := 2 ^ (w - 1)
  match v with
  | .nan => ⟨0, false, true⟩
  | .inf false => ⟨top - 1, true, false⟩
  | .inf true => ⟨top, true, false⟩
  | .fin s m e =>
    let k := if 0 ≤ e then m <<< e.toNat else roundShift mode m (-e).toNat
    if s then (if k ≤ top then ⟨(2 ^ w - k) % 2 ^ w, false, false⟩ else ⟨top, true, false⟩)
    else (if k < top then ⟨k, false, false⟩ else ⟨top - 1, true, false⟩)

/-- A narrowing conversion to a format code (R90, R92). -/
def narrowTo (code : Nat) (mode : RMode) (v : FVal) : Narrow :=
  match fmtOf code with
  | some f => f.narrow mode v
  | none => narrowInt (fmtBits code) mode v

/-! ## Exact arithmetic -/

/-- A finite value as a signed multiple of 2^q, for q at or below its exponent. -/
def alignTo (s : Bool) (m : Nat) (e q : Int) : Int :=
  let k : Nat := m <<< (e - q).toNat
  if s then -(k : Int) else k

/-- The exact sum of two values; a zero sum of unlike terms is +0 (IEEE 754 in RNE and RTZ; R97, R101). -/
def FVal.add (x y : FVal) : FVal :=
  match x, y with
  | .nan, _ => .nan
  | _, .nan => .nan
  | .inf s, .inf t => if s = t then .inf s else .nan
  | .inf s, _ => .inf s
  | _, .inf t => .inf t
  | .fin s m e, .fin t n g =>
    let q := min e g
    let k := alignTo s m e q + alignTo t n g q
    if k = 0 then .fin (s && t) 0 q else .fin (decide (k < 0)) k.natAbs q

/-- The exact product (R97: infinity times zero is NaN). -/
def FVal.mul (x y : FVal) : FVal :=
  match x, y with
  | .nan, _ => .nan
  | _, .nan => .nan
  | .inf s, .inf t => .inf (s != t)
  | .inf s, .fin t n _ => if n = 0 then .nan else .inf (s != t)
  | .fin s m _, .inf t => if m = 0 then .nan else .inf (s != t)
  | .fin s m e, .fin t n g => .fin (s != t) (m * n) (e + g)

/-- The value with its sign inverted. -/
def FVal.neg : FVal → FVal
  | .nan => .nan
  | .inf s => .inf (!s)
  | .fin s m e => .fin (!s) m e

/-- A value times 2^k. -/
def FVal.scale (x : FVal) (k : Int) : FVal :=
  match x with
  | .fin s m e => .fin s m (e + k)
  | v => v

/-- Whether a value is a NaN. -/
def FVal.isNan : FVal → Bool
  | .nan => true
  | _ => false

/-- Whether a value is an infinity. -/
def FVal.isInf : FVal → Bool
  | .inf _ => true
  | _ => false

/-- Whether a value is a zero. -/
def FVal.isZero : FVal → Bool
  | .fin _ 0 _ => true
  | _ => false

/-- The order of two values that are not NaN, zeros equal: -1, 0 or 1. -/
def FVal.cmp (x y : FVal) : Int :=
  match x, y with
  | .inf s, .inf t => if s = t then 0 else if s then -1 else 1
  | .inf s, _ => if s then -1 else 1
  | _, .inf t => if t then 1 else -1
  | .fin s m e, .fin t n g =>
    let q := min e g
    let a := alignTo s m e q
    let b := alignTo t n g q
    if a < b then -1 else if b < a then 1 else 0
  | _, _ => 0

/-- The sign of a value that is not a NaN. -/
def FVal.signBit : FVal → Bool
  | .nan => false
  | .inf s => s
  | .fin s _ _ => s

/-- An operand whose exponent field is zero flushed to a zero of its sign (R87, R98). -/
def flush (f : Fmt) (code : Nat) : FVal :=
  if bits code f.mw f.ew = 0 then .fin (bit code (f.mw + f.ew)) 0 0 else f.decode code

/-- The code of an exact result in a format (R101). -/
def Fmt.encode (f : Fmt) (mode : RMode) (v : FVal) : Nat := (f.narrow mode v).code

/-- a + b in a format. -/
def fpAdd (f : Fmt) (mode : RMode) (a b : Nat) : Nat := f.encode mode ((f.decode a).add (f.decode b))
/-- a - b. -/
def fpSub (f : Fmt) (mode : RMode) (a b : Nat) : Nat := f.encode mode ((f.decode a).add (f.decode b).neg)
/-- a x b. -/
def fpMul (f : Fmt) (mode : RMode) (a b : Nat) : Nat := f.encode mode ((f.decode a).mul (f.decode b))
/-- a x b + c with one rounding (R101). -/
def fpFma (f : Fmt) (mode : RMode) (a b c : Nat) : Nat :=
  f.encode mode (((f.decode a).mul (f.decode b)).add (f.decode c))

/-- The lesser of two inputs; canonical NaN when either is a NaN; -0 below +0 (R186). -/
def fpMin (f : Fmt) (a b : Nat) : Nat :=
  let x := f.decode a
  let y := f.decode b
  if x.isNan || y.isNan then f.nanCode.getD 0
  else if x.cmp y < 0 then a else if 0 < x.cmp y then b
  else if x.signBit then a else b

/-- The greater of two inputs (R186). -/
def fpMax (f : Fmt) (a b : Nat) : Nat :=
  let x := f.decode a
  let y := f.decode b
  if x.isNan || y.isNan then f.nanCode.getD 0
  else if x.cmp y < 0 then b else if 0 < x.cmp y then a
  else if x.signBit then b else a

/-- The input with its sign cleared; a NaN gives the canonical NaN (R185). -/
def fpAbs (f : Fmt) (a : Nat) : Nat :=
  if (f.decode a).isNan then f.nanCode.getD 0 else bits a 0 (f.mw + f.ew)

/-- The input with its sign inverted, as MOD[2] and MOD[3] negate an operand (R185). -/
def fpNeg (f : Fmt) (neg : Bool) (a : Nat) : Nat := if neg then a ^^^ 2 ^ (f.mw + f.ew) else a

/-- The conditions of fsetp (R190): a NaN operand makes every condition false except ne and unordered. -/
def fpCompare (cond : Nat) (x y : FVal) : Bool :=
  let un := x.isNan || y.isNan
  let c := x.cmp y
  match cond with
  | 0 => !un && decide (c = 0)
  | 1 => un || decide (c ≠ 0)
  | 2 => !un && decide (c < 0)
  | 3 => !un && decide (c ≤ 0)
  | 4 => !un && decide (0 < c)
  | 5 => !un && decide (0 ≤ c)
  | 6 => un
  | _ => !un

/-! ## Block scales -/

/-- The exponent of an E8M0 scale byte, none for the NaN scale (R82). -/
def scaleExp (s : Nat) : Option Int := if s = 255 then none else some ((s : Int) - 127)

/-- Element q of a block with scale s (R83, R85); a block-scaled INT8 element carries 2^-6. -/
def scaledVal (code v s : Nat) : FVal :=
  match scaleExp s with
  | none => .nan
  | some x => (elemVal code v).scale (if code = 6 then x - 6 else x)

/-- Whether R83 allows a format code with the SCALED flag. -/
def scaleAllowed (code : Nat) (scaled : Bool) : Bool :=
  match code with
  | 0 => !scaled | 1 => !scaled | 2 => !scaled
  | 3 => true | 4 => true | 5 => scaled | 6 => true | 7 => !scaled
  | _ => false

/-- emax of R94 for a destination format. -/
def emaxOf (code : Nat) : Int :=
  match code with
  | 3 => 8 | 4 => 15 | 5 => 2 | _ => 0

/-- floor(log2 |v|) of a finite non-zero value. -/
def FVal.exp (v : FVal) : Int :=
  match v with
  | .fin _ m e => (Nat.log2 m : Int) + e
  | _ => 0

/-- What scale on store writes for a block (R94): the scale byte, the element codes, the saturations, the NaNs written as
0, and whether the block counts as SCALE_NONFINITE. -/
structure BlockOut where
  scale : Nat
  elems : List Narrow
  nonfinite : Bool
  deriving DecidableEq, Repr

/-- The zero code with the sign of a value, for the all-zero block of R94. -/
def zeroCode (code : Nat) (v : FVal) : Narrow :=
  match fmtOf code with
  | some f => ⟨f.sign v.signBit, false, false⟩
  | none => ⟨0, false, false⟩

/-- Scale on store for one block of FP32 values (R93, R94); `mode i` is the rounding mode with the random value of
element i. A block-scaled INT8 element holds v x 2^-x / 2^-6 (R83). -/
def blockStore (code : Nat) (mode : Nat → RMode) (vs : List FVal) : BlockOut :=
  if vs.any fun v => v.isNan || v.isInf then
    ⟨255, vs.map fun _ => ⟨0, false, false⟩, true⟩
  else if vs.all FVal.isZero then ⟨0, vs.map (zeroCode code), false⟩
  else
    let top : Int := vs.foldl (fun a v => if v.isZero then a else max a v.exp) (-1000)
    let x : Int := max (-127) (min 127 (top - emaxOf code))
    let k : Int := if code = 6 then 6 - x else -x
    ⟨(x + 127).toNat, vs.zipIdx.map fun p => narrowTo code (mode p.2) (p.1.scale k), false⟩

/-! ## Matrix accumulation -/

/-- The exact sum of an old tile value and the products of one chunk, with R96's sign of a zero and R97's special
cases. -/
def chunkSum (old : FVal) (products : List FVal) : FVal := products.foldl FVal.add old

/-- The new tile value of a chunk (R96, R97): the exact sum rounded once to FP32 by RNE. -/
def chunkStep (old : Nat) (products : List FVal) : Nat :=
  Fmt.fp32.encode .rne (chunkSum (Fmt.fp32.decode old) products)

/-! ## Special functions (R103) -/

/-- Integer square root by bits, from bit `n` down. -/
def isqrt : Nat → Nat → Nat → Nat
  | 0, _, r => r
  | n + 1, v, r => let t := r + 2 ^ n; if t * t ≤ v then isqrt n v t else isqrt n v r

/-- 2^f for a fraction f of 64 bits, as a number of 64 fraction bits: the product of 2^(2^-i) over the set bits. -/
def exp2Frac (f : Nat) : Nat := go 64 f (2 ^ 65) (2 ^ 64)
where
  go : Nat → Nat → Nat → Nat → Nat
    | 0, _, _, acc => acc
    | n + 1, f, c, acc =>
      let c' := isqrt 68 (c * 2 ^ 64) 0
      go n (2 * f % 2 ^ 64) c' (if 2 ^ 63 ≤ f then acc * c' / 2 ^ 64 else acc)

/-- log2 of a mantissa of 64 fraction bits in 1 to 2, as 48 fraction bits, by repeated squaring. -/
def log2Frac (m : Nat) : Nat := go 48 m 0
where
  go : Nat → Nat → Nat → Nat
    | 0, _, acc => acc
    | n + 1, m, acc =>
      let sq := m * m / 2 ^ 64
      if 2 ^ 65 ≤ sq then go n (sq / 2) (2 * acc + 1) else go n sq (2 * acc)

/-- Two bounds that enclose the exact result of a special function, as multiples of a power of two: the lower, the upper and
the exponent (R103); only for finite inputs without a special case. The width covers what each computation cuts off. -/
def sfExact (fn : Nat) (x : FVal) : Int × Int × Int :=
  match x with
  | .fin s m e =>
    match fn with
    | 0 =>
      -- exp2: the input rounded down to 64 fraction bits, as integer part and fraction
      let v : Int := if 0 ≤ e + 64 then alignTo s m (e + 64) 0 else (if s then -(m : Int) else m) / 2 ^ (-(e + 64)).toNat
      let r := exp2Frac (v % 2 ^ 64).toNat
      (r, r + 2 ^ 12, v / 2 ^ 64 - 64)
    | 1 =>
      let lg := Nat.log2 m
      let v : Int := ((lg : Int) + e) * 2 ^ 48 + log2Frac (if 64 ≤ lg then m >>> (lg - 64) else m <<< (64 - lg))
      (v, v + 2, -48)
    | 2 =>
      let q : Int := (2 ^ 128 / m : Nat)
      (if s then -(q + 1) else q, if s then -q else q + 1, -(128 : Int) - e)
    | _ =>
      -- rsqrt: 1 / sqrt(m 2^e), with an even exponent
      let odd := decide (e % 2 ≠ 0)
      let r : Int := (isqrt 130 (2 ^ 256 / (if odd then 2 * m else m)) 0 : Nat)
      (r, r + 1, -(128 : Int) - (if odd then e - 1 else e) / 2)
  | _ => (0, 0, 0)

/-- Whether an FP32 value lies within the error bound of a special function for an input (R103), measured from both ends of
the enclosure of the exact result. -/
def sfWithin (fn : Nat) (x : FVal) (exact : Int × Int × Int) (got : FVal) : Bool :=
  match got with
  | .fin t n g =>
    let q := min (min exact.2.2 g) (-260)
    let at_ (v : Int) : Int := v * (1 <<< (exact.2.2 - q).toNat : Nat)
    let far : Nat := max (at_ exact.1 - alignTo t n g q).natAbs (at_ exact.2.1 - alignTo t n g q).natAbs
    let ulpExp : Int := max ((Nat.log2 (min exact.1.natAbs exact.2.1.natAbs) : Int) + exact.2.2 - 23) (-149)
    let near : Bool := decide (0 ≤ x.cmp (.fin false 1 (-1))) && decide (x.cmp (.fin false 1 1) ≤ 0)
    if fn = 1 && near then decide (far ≤ 1 <<< (-22 - q).toNat)
    else decide (far ≤ (if fn ≤ 1 then 2 else 1) * (1 <<< (ulpExp - q).toNat))
  | _ => false

/-- Whether R103 gives an input neither a result nor a bound: a reciprocal beyond the FP32 range, that is an input of at most
2^-128 in size. -/
def sfOpen (fn : Nat) (x : FVal) : Bool :=
  match x with
  | .fin _ m e => decide (fn = 2) && decide ((FVal.fin false m e).cmp (.fin false 1 (-128)) ≤ 0)
  | _ => false

/-- The special cases of R103: those whose result the spec states exactly. exp2 of an integer below -149 is none of them: no
FP32 value is its exact result, and the bound alone holds for it (log entry 10). -/
def sfSpecial (fn : Nat) (x : FVal) : Option Nat :=
  match fn, x with
  | _, .nan => some 0x7FC00000
  | 0, .inf true => some 0
  | 0, .inf false => some 0x7F800000
  | 0, .fin s m e =>
    if m = 0 then some 0x3F800000
    else if 0 ≤ (FVal.fin s m e).cmp (.fin false 128 0) then some 0x7F800000
    else if 0 ≤ e ∨ m % 2 ^ (-e).toNat = 0 then
      let i : Int := if 0 ≤ e then alignTo s m e 0 else alignTo s (m >>> (-e).toNat) 0 0
      if i < -149 then none else some (Fmt.fp32.encode .rne (.fin false 1 i))
    else none
  | 1, .inf false => some 0x7F800000
  | 1, .inf true => some 0x7FC00000
  | 1, .fin s m _ => if m = 0 then some 0xFF800000 else if s then some 0x7FC00000 else none
  | 2, .inf s => some (Fmt.fp32.sign s)
  | 2, .fin s m e =>
    if m = 0 then some (0x7F800000 + Fmt.fp32.sign s)
    else if sfOpen 2 (.fin s m e) then none
    else if m = 2 ^ Nat.log2 m then some (Fmt.fp32.encode .rne (.fin s 1 (-((Nat.log2 m : Int) + e))))
    else none
  | _, .inf false => some 0
  | _, .inf true => some 0x7FC00000
  | _, .fin s m _ => if m = 0 then some (0x7F800000 + Fmt.fp32.sign s) else if s then some 0x7FC00000 else none

/-- A special-function result (R103): the special cases exactly; otherwise the free value where it lies within the error
bound, and the value nearest the lower end of the enclosure where it does not (log entry 10); the free value alone where R103
gives neither result nor bound (log entry 11). -/
def sfResult (fn : Nat) (a : Word) : Word :=
  let x := Fmt.fp32.decode a.toNat
  match sfSpecial fn x with
  | some c => BitVec.ofNat 32 c
  | none =>
    let exact := sfExact fn x
    let pick := Config.sfPick fn a
    if sfOpen fn x || sfWithin fn x exact (Fmt.fp32.decode pick.toNat) then pick
    else BitVec.ofNat 32 (Fmt.fp32.encode .rne (.fin (decide (exact.1 < 0)) exact.1.natAbs exact.2.2))

end Sys2Proof.Machine
end

