-- ==== Sys2Proof/Machine/Objects.lean ====
section
/-!
DEFINITION. The object dictionary: one row per object, with what INFO returns of it (R429 to R431, R441), its default
and the plain range of its value.
-/
namespace Sys2Proof.Machine

/-- An object of the dictionary: index x 256 + subindex, type code 1 to 10 in the order of R430, element type of an
ARRAY (9 for fixed-size entries), access 0 RO, 1 RW, 2 WO, 3 RWQ, persist flag, element size in bytes, element count or
largest length (0 for one element per logical core), default, and the least and greatest value that a write accepts. -/
structure Obj where
  key     : Nat
  typ     : Nat
  etyp    : Nat
  acc     : Nat
  persist : Bool
  esize   : Nat
  count   : Nat
  dflt    : Nat
  lo      : Nat
  hi      : Nat
  deriving DecidableEq, Repr

/-- Objects 1000h:01h to 2030h:01h. -/
def objRows0 : List Obj := [
  -- VENDOR_ID
  ⟨0x100001, 3, 0, 0, false, 2, 1, 8013, 0, 65535⟩,
  -- PF_DEVICE_ID
  ⟨0x100002, 3, 0, 0, false, 2, 1, 37376, 0, 65535⟩,
  -- VF_DEVICE_ID
  ⟨0x100003, 3, 0, 0, false, 2, 1, 37377, 0, 65535⟩,
  -- SERIAL
  ⟨0x100004, 8, 0, 0, false, 1, 255, 0, 0, 0⟩,
  -- MAC_ADDRESS
  ⟨0x100005, 5, 0, 0, false, 8, 1, 0, 0, 2 ^ 64 - 1⟩,
  -- MFG_DIGEST
  ⟨0x100006, 9, 0, 0, false, 1, 64, 0, 0, 0⟩,
  -- FW_VERSION
  ⟨0x100007, 4, 0, 0, false, 4, 1, 0, 0, 4294967295⟩,
  -- FW_SLOT
  ⟨0x100008, 2, 0, 0, false, 1, 1, 0, 0, 255⟩,
  -- ROM_VERSION
  ⟨0x100009, 4, 0, 0, false, 4, 1, 0, 0, 4294967295⟩,
  -- PART_NUMBER
  ⟨0x101001, 8, 0, 0, false, 1, 255, 0, 0, 0⟩,
  -- SERVING_CORES
  ⟨0x101002, 3, 0, 0, false, 2, 1, 0, 0, 65535⟩,
  -- SPARES_PER_DIE
  ⟨0x101003, 2, 0, 0, false, 1, 1, 2, 0, 255⟩,
  -- RATED_ACLK_MHZ
  ⟨0x101004, 4, 0, 0, false, 4, 1, 2700, 0, 4294967295⟩,
  -- SPARES_FREE
  ⟨0x101005, 3, 0, 0, false, 2, 1, 16, 0, 65535⟩,
  -- MGMT_UDP_PORT
  ⟨0x200101, 3, 0, 3, true, 2, 1, 50466, 1024, 65535⟩,
  -- PLCA_NODE_COUNT
  ⟨0x200102, 2, 0, 3, true, 1, 1, 8, 2, 32⟩,
  -- PLCA_NODE_ID
  ⟨0x200103, 2, 0, 0, false, 1, 1, 0, 0, 255⟩,
  -- SESSION_IDLE_S
  ⟨0x200104, 3, 0, 1, true, 2, 1, 120, 10, 3600⟩,
  -- MODULE_CMD
  ⟨0x200201, 2, 0, 2, false, 1, 1, 0, 1, 3⟩,
  -- MODULE_STATE
  ⟨0x200202, 2, 0, 0, false, 1, 1, 5, 0, 255⟩,
  -- CONFIG_DEFAULTS
  ⟨0x200203, 1, 0, 2, false, 1, 1, 0, 0, 1⟩,
  -- TICK_PERIOD_US
  ⟨0x201001, 4, 0, 3, true, 4, 1, 2000, 100, 50000⟩,
  -- PLAN_CUTOFF_US
  ⟨0x201002, 4, 0, 3, true, 4, 1, 50, 20, 12500⟩,
  -- TICK_NUMBER
  ⟨0x201003, 5, 0, 0, false, 8, 1, 0, 0, 2 ^ 64 - 1⟩,
  -- TICK_START_NS
  ⟨0x201004, 5, 0, 0, false, 8, 1, 0, 0, 2 ^ 64 - 1⟩,
  -- C0_CORE_PERMILLE
  ⟨0x201101, 3, 0, 3, true, 2, 1, 100, 0, 500⟩,
  -- C0_MEM_PERMILLE
  ⟨0x201102, 3, 0, 3, true, 2, 1, 100, 0, 500⟩,
  -- C0_POWER_PERMILLE
  ⟨0x201103, 3, 0, 3, true, 2, 1, 100, 0, 500⟩,
  -- QUOTA_WINDOW_TICKS
  ⟨0x201104, 4, 0, 1, true, 4, 1, 500, 1, 1048576⟩,
  -- NEAR_WAYS
  ⟨0x203001, 2, 0, 3, true, 1, 1, 4, 0, 8⟩]

/-- Objects 2030h:02h to 3012h:01h. -/
def objRows1 : List Obj := [
  -- PIN_WAYS
  ⟨0x203002, 2, 0, 1, true, 1, 1, 8, 0, 12⟩,
  -- STRICT_DISCARD
  ⟨0x203003, 1, 0, 1, true, 1, 1, 0, 0, 1⟩,
  -- HOST_HINTS
  ⟨0x203004, 10, 9, 1, false, 32, 16, 0, 0, 2 ^ 256 - 1⟩,
  -- RACE_MODE
  ⟨0x204001, 2, 0, 3, true, 1, 1, 0, 0, 1⟩,
  -- CODE_STRENGTH_FAST
  ⟨0x205001, 2, 0, 1, true, 1, 1, 2, 1, 3⟩,
  -- CODE_STRENGTH_SLOW
  ⟨0x205002, 2, 0, 1, true, 1, 1, 2, 1, 3⟩,
  -- CODE_STRENGTH_ACTIVE
  ⟨0x205003, 10, 2, 0, false, 1, 2, 0, 0, 255⟩,
  -- REPLICA_TABLE
  ⟨0x205101, 10, 9, 1, true, 32, 64, 0, 0, 2 ^ 256 - 1⟩,
  -- REPLICA_STATE
  ⟨0x205102, 10, 2, 0, false, 1, 64, 0, 0, 255⟩,
  -- SCRUB_BASE
  ⟨0x205201, 5, 0, 1, false, 8, 1, 0, 0, 2 ^ 64 - 1⟩,
  -- SCRUB_LENGTH
  ⟨0x205202, 5, 0, 1, false, 8, 1, 0, 0, 2 ^ 64 - 1⟩,
  -- SCRUB_START
  ⟨0x205203, 1, 0, 2, false, 1, 1, 0, 0, 1⟩,
  -- SCRUB_BUSY
  ⟨0x205204, 1, 0, 0, false, 1, 1, 0, 0, 1⟩,
  -- SCRUB_RESULT
  ⟨0x205205, 9, 0, 0, false, 1, 256, 0, 0, 0⟩,
  -- RETIRE_PAGE
  ⟨0x205301, 5, 0, 2, false, 8, 1, 0, 0, 2 ^ 64 - 1⟩,
  -- RETIRED_LIST
  ⟨0x205302, 10, 5, 0, true, 8, 4096, 0, 0, 2 ^ 64 - 1⟩,
  -- RETIRED_COUNT
  ⟨0x205303, 3, 0, 0, true, 2, 1, 0, 0, 65535⟩,
  -- SPARE_SLOTS_FREE
  ⟨0x205304, 10, 4, 0, false, 4, 96, 0x40000, 0, 4294967295⟩,
  -- E2E_TIMEOUT_US
  ⟨0x206001, 3, 0, 1, true, 2, 1, 8, 2, 1000⟩,
  -- CHIVE_HOLD_NS
  ⟨0x206002, 3, 0, 1, true, 2, 1, 2000, 100, 20000⟩,
  -- COLL_PEER_TIMEOUT_TICKS
  ⟨0x206003, 4, 0, 1, true, 4, 1, 16, 1, 65535⟩,
  -- LANE_MARGIN_LIMIT
  ⟨0x206004, 3, 0, 1, true, 2, 1, 64, 0, 65535⟩,
  -- BUNDLE_RETRY_LIMIT
  ⟨0x206005, 3, 0, 1, true, 2, 1, 256, 0, 65535⟩,
  -- SENSOR_VALUE
  ⟨0x300001, 10, 7, 0, false, 4, 412, 0x7fc00000, 0, 4294967295⟩,
  -- SENSOR_MIN
  ⟨0x300002, 10, 7, 0, false, 4, 412, 0x7fc00000, 0, 4294967295⟩,
  -- SENSOR_MAX
  ⟨0x300003, 10, 7, 0, false, 4, 412, 0x7fc00000, 0, 4294967295⟩,
  -- SENSOR_CLEAR
  ⟨0x300004, 3, 0, 2, false, 2, 1, 0, 0, 65535⟩,
  -- MONITOR_CONFIG
  ⟨0x301001, 10, 9, 1, true, 32, 32, 0, 0, 2 ^ 256 - 1⟩,
  -- MONITOR_RECORD
  ⟨0x301101, 10, 9, 0, false, 160, 32, 0, 0, 2 ^ 1280 - 1⟩,
  -- MONITOR_CLEAR
  ⟨0x301201, 2, 0, 2, false, 1, 1, 0, 0, 255⟩]

/-- Objects 3040h:01h to 3072h:05h. -/
def objRows2 : List Obj := [
  -- CONV_SATURATE
  ⟨0x304001, 10, 5, 0, false, 8, 0, 0, 0, 2 ^ 64 - 1⟩,
  -- CONV_NAN_ZERO
  ⟨0x304002, 10, 5, 0, false, 8, 0, 0, 0, 2 ^ 64 - 1⟩,
  -- SCALE_NONFINITE
  ⟨0x304003, 10, 5, 0, false, 8, 0, 0, 0, 2 ^ 64 - 1⟩,
  -- CONV_CLEAR
  ⟨0x304004, 3, 0, 2, false, 2, 1, 0, 0, 65535⟩,
  -- PARTIAL_BARRIER
  ⟨0x305001, 10, 5, 0, false, 8, 0, 0, 0, 2 ^ 64 - 1⟩,
  -- WATCHDOG_STOPS
  ⟨0x305002, 10, 5, 0, false, 8, 0, 0, 0, 2 ^ 64 - 1⟩,
  -- LMEM_REPLAYS
  ⟨0x305003, 10, 5, 0, false, 8, 0, 0, 0, 2 ^ 64 - 1⟩,
  -- INBOX_REFUSED
  ⟨0x305004, 10, 5, 0, false, 8, 0, 0, 0, 2 ^ 64 - 1⟩,
  -- INBOX_ABANDONED
  ⟨0x305005, 10, 5, 0, false, 8, 0, 0, 0, 2 ^ 64 - 1⟩,
  -- DEPOSIT_DROPPED
  ⟨0x305006, 10, 5, 0, false, 8, 0, 0, 0, 2 ^ 64 - 1⟩,
  -- CORE_CTR_CLEAR
  ⟨0x305007, 3, 0, 2, false, 2, 1, 0, 0, 65535⟩,
  -- MATRIX_OPS
  ⟨0x306001, 10, 5, 0, false, 8, 0, 0, 0, 2 ^ 64 - 1⟩,
  -- ARRAY_BUSY
  ⟨0x306002, 10, 5, 0, false, 8, 0, 0, 0, 2 ^ 64 - 1⟩,
  -- FETCH_STRETCH
  ⟨0x306003, 10, 5, 0, false, 8, 0, 0, 0, 2 ^ 64 - 1⟩,
  -- RANGE_WAITS
  ⟨0x306004, 10, 5, 0, false, 8, 0, 0, 0, 2 ^ 64 - 1⟩,
  -- MATRIX_CTR_CLEAR
  ⟨0x306005, 3, 0, 2, false, 2, 1, 0, 0, 65535⟩,
  -- RO_HITS
  ⟨0x307001, 10, 5, 0, false, 8, 0, 0, 0, 2 ^ 64 - 1⟩,
  -- RO_MISSES
  ⟨0x307002, 10, 5, 0, false, 8, 0, 0, 0, 2 ^ 64 - 1⟩,
  -- RO_MERGES
  ⟨0x307003, 10, 5, 0, false, 8, 0, 0, 0, 2 ^ 64 - 1⟩,
  -- MISS_REG_STALLS
  ⟨0x307004, 10, 5, 0, false, 8, 0, 0, 0, 2 ^ 64 - 1⟩,
  -- RO_CTR_CLEAR
  ⟨0x307005, 3, 0, 2, false, 2, 1, 0, 0, 65535⟩,
  -- HINT_IGNORED
  ⟨0x307101, 5, 0, 0, false, 8, 1, 0, 0, 2 ^ 64 - 1⟩,
  -- DISCARD_READS
  ⟨0x307102, 10, 5, 0, false, 8, 8, 0, 0, 2 ^ 64 - 1⟩,
  -- BACK_INVALIDATIONS
  ⟨0x307103, 10, 5, 0, false, 8, 4, 0, 0, 2 ^ 64 - 1⟩,
  -- CACHE_CTR_CLEAR
  ⟨0x307104, 3, 0, 2, false, 2, 1, 0, 0, 65535⟩,
  -- CONFLICTS
  ⟨0x307201, 10, 5, 0, false, 8, 4, 0, 0, 2 ^ 64 - 1⟩,
  -- QUEUE_FULL_CYCLES
  ⟨0x307202, 10, 5, 0, false, 8, 4, 0, 0, 2 ^ 64 - 1⟩,
  -- RETRIES
  ⟨0x307203, 10, 5, 0, false, 8, 4, 0, 0, 2 ^ 64 - 1⟩,
  -- OWNER_FORWARDS
  ⟨0x307204, 10, 5, 0, false, 8, 4, 0, 0, 2 ^ 64 - 1⟩,
  -- WRITE_INVALIDATIONS
  ⟨0x307205, 10, 5, 0, false, 8, 4, 0, 0, 2 ^ 64 - 1⟩]

/-- Objects 3072h:06h to 4010h:02h. -/
def objRows3 : List Obj := [
  -- FINAL_HOLDS
  ⟨0x307206, 10, 5, 0, false, 8, 0, 0, 0, 2 ^ 64 - 1⟩,
  -- COHERENCE_CTR_CLEAR
  ⟨0x307207, 3, 0, 2, false, 2, 1, 0, 0, 65535⟩,
  -- LINE_PROBE_ADDR
  ⟨0x307301, 5, 0, 1, false, 8, 1, 0, 0, 2 ^ 64 - 1⟩,
  -- LINE_PROBE
  ⟨0x307302, 9, 0, 0, false, 1, 40, 0, 0, 0⟩,
  -- CE_COUNT
  ⟨0x308001, 10, 5, 0, false, 8, 2, 0, 0, 2 ^ 64 - 1⟩,
  -- UE_COUNT
  ⟨0x308002, 10, 5, 0, false, 8, 2, 0, 0, 2 ^ 64 - 1⟩,
  -- MIRROR_REPAIRS
  ⟨0x308003, 5, 0, 0, false, 8, 1, 0, 0, 2 ^ 64 - 1⟩,
  -- LC_GRANTS
  ⟨0x308004, 10, 5, 0, false, 8, 2, 0, 0, 2 ^ 64 - 1⟩,
  -- GUARD_GRANTS
  ⟨0x308005, 10, 5, 0, false, 8, 2, 0, 0, 2 ^ 64 - 1⟩,
  -- LOST_WRITES
  ⟨0x308006, 5, 0, 0, false, 8, 1, 0, 0, 2 ^ 64 - 1⟩,
  -- MEM_CTR_CLEAR
  ⟨0x308007, 2, 0, 2, false, 1, 1, 0, 0, 255⟩,
  -- LINK_RESENDS
  ⟨0x309001, 10, 5, 0, false, 8, 96, 0, 0, 2 ^ 64 - 1⟩,
  -- FLIT_CRC_ERRORS
  ⟨0x309002, 10, 5, 0, false, 8, 96, 0, 0, 2 ^ 64 - 1⟩,
  -- E2E_RESENDS
  ⟨0x309003, 10, 5, 0, false, 8, 12, 0, 0, 2 ^ 64 - 1⟩,
  -- CHIVE_ABSORBED
  ⟨0x309004, 10, 5, 0, false, 8, 12, 0, 0, 2 ^ 64 - 1⟩,
  -- CHIVE_PASSED
  ⟨0x309005, 10, 5, 0, false, 8, 12, 0, 0, 2 ^ 64 - 1⟩,
  -- ELEVATOR_CRC_ERRORS
  ⟨0x309006, 10, 5, 0, false, 8, 64, 0, 0, 2 ^ 64 - 1⟩,
  -- NET_CTR_CLEAR
  ⟨0x309007, 2, 0, 2, false, 1, 1, 0, 0, 255⟩,
  -- FEC_CORRECTED
  ⟨0x30A001, 10, 5, 0, false, 8, 8, 0, 0, 2 ^ 64 - 1⟩,
  -- FEC_UNCORRECTED
  ⟨0x30A002, 10, 5, 0, false, 8, 8, 0, 0, 2 ^ 64 - 1⟩,
  -- PORT_RESENDS
  ⟨0x30A003, 10, 5, 0, false, 8, 8, 0, 0, 2 ^ 64 - 1⟩,
  -- PEER_REFUSED
  ⟨0x30A004, 10, 5, 0, false, 8, 8, 0, 0, 2 ^ 64 - 1⟩,
  -- PORT_FAILOVERS
  ⟨0x30A005, 10, 5, 0, false, 8, 8, 0, 0, 2 ^ 64 - 1⟩,
  -- PEER_CTR_CLEAR
  ⟨0x30A006, 2, 0, 2, false, 1, 1, 0, 0, 255⟩,
  -- REPLACE_FLAG
  ⟨0x400001, 1, 0, 0, true, 1, 1, 0, 0, 1⟩,
  -- REPLACE_REASONS
  ⟨0x400002, 4, 0, 0, true, 4, 1, 0, 0, 4294967295⟩,
  -- MGMT_STATE
  ⟨0x400101, 10, 2, 0, false, 1, 2, 0, 0, 255⟩,
  -- MGMT_TAKEOVERS
  ⟨0x400102, 4, 0, 0, true, 4, 1, 0, 0, 4294967295⟩,
  -- CORE_SITE_MAP
  ⟨0x401001, 10, 3, 0, false, 2, 0, 0, 0, 65535⟩,
  -- SITE_STATE
  ⟨0x401002, 10, 2, 0, false, 1, 288, 0, 0, 255⟩]

/-- Objects 4010h:03h to 5000h:03h. -/
def objRows4 : List Obj := [
  -- ELEVATOR_STATE
  ⟨0x401003, 10, 2, 0, false, 1, 64, 0, 0, 255⟩,
  -- BOUND_VOID_1
  ⟨0x402001, 5, 0, 0, false, 8, 1, 0, 0, 2 ^ 64 - 1⟩,
  -- BOUND_VOID_2
  ⟨0x402002, 5, 0, 0, false, 8, 1, 0, 0, 2 ^ 64 - 1⟩,
  -- BOUND_VOID_3
  ⟨0x402003, 5, 0, 0, false, 8, 1, 0, 0, 2 ^ 64 - 1⟩,
  -- BOUND_VOID_4
  ⟨0x402004, 5, 0, 0, false, 8, 1, 0, 0, 2 ^ 64 - 1⟩,
  -- CORE_RATE
  ⟨0x403001, 10, 3, 0, false, 2, 0, 1000, 0, 65535⟩,
  -- SLOW_RUN
  ⟨0x403002, 10, 2, 0, false, 1, 0, 0, 0, 255⟩,
  -- SLOW_FLAG
  ⟨0x403003, 10, 2, 0, false, 1, 0, 0, 0, 255⟩,
  -- CACHE_BANK_STATE
  ⟨0x404001, 10, 2, 0, false, 1, 68, 0, 0, 255⟩,
  -- CE_TABLE_FAST
  ⟨0x405001, 10, 9, 0, false, 32, 64, 0, 0, 2 ^ 256 - 1⟩,
  -- CE_TABLE_SLOW
  ⟨0x405002, 10, 9, 0, false, 32, 64, 0, 0, 2 ^ 256 - 1⟩,
  -- CE_TABLE_OVERFLOW
  ⟨0x405003, 10, 5, 0, false, 8, 2, 0, 0, 2 ^ 64 - 1⟩,
  -- CE_TABLE_CLEAR
  ⟨0x405004, 2, 0, 2, false, 1, 1, 0, 0, 255⟩,
  -- CHANNEL_STATE
  ⟨0x405005, 10, 2, 0, false, 1, 224, 0, 0, 255⟩,
  -- TSV_SPARES_USED
  ⟨0x405006, 10, 2, 0, false, 1, 128, 0, 0, 255⟩,
  -- BUNDLE_STATE
  ⟨0x406001, 10, 2, 0, false, 1, 96, 0, 0, 255⟩,
  -- LANE_SPARES_USED
  ⟨0x406002, 10, 2, 0, false, 1, 96, 0, 0, 255⟩,
  -- LINK_BUNDLES
  ⟨0x406003, 10, 2, 0, false, 1, 8, 12, 0, 255⟩,
  -- ROUTER_STATE
  ⟨0x406004, 10, 2, 0, false, 1, 288, 0, 0, 255⟩,
  -- DIAG_TABLES
  ⟨0x406005, 10, 5, 0, false, 8, 2, 0xaaaaaaaaaaaaaaaa, 0, 2 ^ 64 - 1⟩,
  -- HW_FAULTS
  ⟨0x407001, 10, 4, 0, true, 4, 18, 0, 0, 4294967295⟩,
  -- LAST_HW_RECORD
  ⟨0x407002, 4, 0, 0, false, 4, 1, 0, 0, 4294967295⟩,
  -- SPARES_FREE_DIE
  ⟨0x407003, 10, 2, 0, false, 1, 8, 2, 0, 255⟩,
  -- TAKEOVER_ACTIVE
  ⟨0x407004, 2, 0, 0, false, 1, 1, 0, 0, 255⟩,
  -- SERVICE_STATE
  ⟨0x408001, 2, 0, 0, false, 1, 1, 0, 0, 255⟩,
  -- LATCH_STATE
  ⟨0x408002, 2, 0, 0, false, 1, 1, 0, 0, 255⟩,
  -- SERVICE_REQUEST
  ⟨0x408003, 2, 0, 2, false, 1, 1, 0, 1, 2⟩,
  -- LOG_OLDEST
  ⟨0x500001, 4, 0, 0, true, 4, 1, 0, 0, 4294967295⟩,
  -- LOG_NEWEST
  ⟨0x500002, 4, 0, 0, true, 4, 1, 0, 0, 4294967295⟩,
  -- LOG_SELECT
  ⟨0x500003, 4, 0, 1, false, 4, 1, 0, 0, 4294967295⟩]

/-- Objects 5000h:04h to 7040h:03h. -/
def objRows5 : List Obj := [
  -- LOG_RECORD
  ⟨0x500004, 9, 0, 0, false, 1, 128, 0, 0, 0⟩,
  -- START_LAST
  ⟨0x501001, 9, 0, 0, false, 1, 256, 0, 0, 0⟩,
  -- START_FAILS
  ⟨0x501002, 2, 0, 0, true, 1, 1, 0, 0, 255⟩,
  -- START_SELECT
  ⟨0x501003, 4, 0, 1, false, 4, 1, 0, 0, 4294967295⟩,
  -- START_RECORD
  ⟨0x501004, 9, 0, 0, false, 1, 256, 0, 0, 0⟩,
  -- DEVICE_CERT
  ⟨0x600001, 9, 0, 0, false, 1, 1536, 0, 0, 0⟩,
  -- ALIAS_CERT
  ⟨0x600002, 9, 0, 0, false, 1, 1536, 0, 0, 0⟩,
  -- IDENTITY_PUBKEY
  ⟨0x600003, 9, 0, 0, false, 1, 1793, 0, 0, 0⟩,
  -- UPDATE_CMD
  ⟨0x601001, 2, 0, 2, false, 1, 1, 0, 1, 3⟩,
  -- UPDATE_IMAGE
  ⟨0x601002, 9, 0, 2, false, 1, 33554432, 0, 0, 0⟩,
  -- UPDATE_STATE
  ⟨0x601003, 2, 0, 0, false, 1, 1, 0, 0, 255⟩,
  -- SLOT_INFO
  ⟨0x601004, 10, 9, 0, true, 16, 2, 0, 0, 2 ^ 128 - 1⟩,
  -- NEXT_SLOT
  ⟨0x601005, 2, 0, 0, true, 1, 1, 0, 0, 255⟩,
  -- VERSION_FLOOR
  ⟨0x601006, 4, 0, 0, true, 4, 1, 0, 0, 4294967295⟩,
  -- CONFIRM_S
  ⟨0x601007, 3, 0, 1, true, 2, 1, 30, 5, 600⟩,
  -- CLIENT_KEYS
  ⟨0x602001, 10, 9, 1, true, 1800, 16, 0, 0, 2 ^ 14400 - 1⟩,
  -- SESSIONS
  ⟨0x602002, 10, 9, 0, false, 8, 8, 0, 0, 2 ^ 64 - 1⟩,
  -- CLASS_GRANT
  ⟨0x701001, 10, 2, 1, true, 1, 256, 0, 0, 7⟩,
  -- C1_WEIGHT
  ⟨0x701002, 10, 3, 1, true, 2, 256, 100, 1, 10000⟩,
  -- ADMIT_LIMIT
  ⟨0x701003, 10, 3, 1, true, 2, 256, 256, 1, 4096⟩,
  -- CLIENT_QUOTA_US
  ⟨0x701004, 10, 4, 1, true, 4, 256, 0, 0, 4294967295⟩,
  -- SPILL_BASE
  ⟨0x701005, 10, 5, 1, false, 8, 256, 0, 0, 2 ^ 64 - 1⟩,
  -- SPILL_PAGES
  ⟨0x701006, 10, 4, 1, false, 4, 256, 0, 0, 4294967295⟩,
  -- STRICT_BARRIER
  ⟨0x702001, 10, 2, 1, true, 1, 256, 0, 0, 1⟩,
  -- ACCT_SELECT
  ⟨0x703001, 3, 0, 1, false, 2, 1, 0, 0, 16383⟩,
  -- ACCT_RECORD
  ⟨0x703002, 9, 0, 0, false, 1, 184, 0, 0, 0⟩,
  -- ACCT_CLEAR
  ⟨0x703003, 3, 0, 2, false, 2, 1, 0, 0, 16383⟩,
  -- PIN_REFS
  ⟨0x704001, 10, 4, 0, false, 4, 256, 0, 0, 4294967295⟩,
  -- SOFT_PIN_LINES
  ⟨0x704002, 10, 4, 0, false, 4, 256, 0, 0, 4294967295⟩,
  -- SOFT_PIN_REQUESTS
  ⟨0x704003, 10, 5, 0, false, 8, 256, 0, 0, 2 ^ 64 - 1⟩]

/-- Objects 7040h:04h to 9000h:04h. -/
def objRows6 : List Obj := [
  -- SOFT_PIN_LOST
  ⟨0x704004, 10, 5, 0, false, 8, 256, 0, 0, 2 ^ 64 - 1⟩,
  -- PIN_SATURATED
  ⟨0x704005, 10, 5, 0, false, 8, 256, 0, 0, 2 ^ 64 - 1⟩,
  -- FN_STATE
  ⟨0x705001, 10, 2, 0, false, 1, 256, 0, 0, 255⟩,
  -- DRAIN_LIMIT_TICKS
  ⟨0x705002, 10, 3, 1, true, 2, 256, 1, 1, 4096⟩,
  -- FN_QUIESCE
  ⟨0x705003, 2, 0, 2, false, 1, 1, 0, 0, 255⟩,
  -- FN_RESUME
  ⟨0x705004, 2, 0, 2, false, 1, 1, 0, 0, 255⟩,
  -- DIRTY_LOST
  ⟨0x705005, 10, 5, 0, false, 8, 256, 0, 0, 2 ^ 64 - 1⟩,
  -- EVC_SELECT
  ⟨0x705006, 2, 0, 1, false, 1, 1, 0, 0, 255⟩,
  -- EVC_VALUES
  ⟨0x705007, 9, 0, 1, false, 1, 32768, 0, 0, 0⟩,
  -- DOORBELL_IGNORED
  ⟨0x705008, 10, 5, 0, false, 8, 256, 0, 0, 2 ^ 64 - 1⟩,
  -- MODULE_ID
  ⟨0x800001, 3, 0, 3, true, 2, 1, 0, 0, 65535⟩,
  -- PEER_E2E_TIMEOUT_US
  ⟨0x800002, 3, 0, 1, true, 2, 1, 64, 16, 5000⟩,
  -- TICK_ROLE
  ⟨0x800003, 2, 0, 3, true, 1, 1, 0, 0, 2⟩,
  -- TICK_SOURCE_MASK
  ⟨0x800004, 2, 0, 1, true, 1, 1, 0, 0, 255⟩,
  -- TICK_ALIGN_STATE
  ⟨0x800005, 2, 0, 0, false, 1, 1, 0, 0, 255⟩,
  -- TICK_OFFSET_NS
  ⟨0x800006, 6, 0, 0, false, 4, 1, 0, 0, 4294967295⟩,
  -- TICK_TRIM_PPB
  ⟨0x800007, 6, 0, 0, false, 4, 1, 0, 0, 4294967295⟩,
  -- PORT_ENABLE
  ⟨0x801001, 10, 2, 1, true, 1, 8, 1, 0, 1⟩,
  -- PORT_EXPECT
  ⟨0x801002, 10, 3, 1, true, 2, 8, 0, 0, 65535⟩,
  -- PORT_STATE
  ⟨0x801003, 10, 2, 0, false, 1, 8, 1, 0, 255⟩,
  -- PORT_PARTNER
  ⟨0x801004, 10, 4, 0, false, 4, 8, 0, 0, 4294967295⟩,
  -- PORT_FIBRES
  ⟨0x801005, 10, 3, 0, false, 2, 8, 0, 0, 65535⟩,
  -- FIBRE_SER_LIMIT
  ⟨0x801006, 4, 0, 1, true, 4, 1, 0x186a0, 0, 4294967295⟩,
  -- PEER_FUNC_SELECT
  ⟨0x802001, 2, 0, 1, false, 1, 1, 0, 0, 255⟩,
  -- PEER_WINDOWS
  ⟨0x802002, 10, 9, 1, false, 32, 16, 0, 0, 2 ^ 256 - 1⟩,
  -- PEER_GRANTS
  ⟨0x802003, 10, 9, 1, false, 32, 16, 0, 0, 2 ^ 256 - 1⟩,
  -- POWER_CAP_W
  ⟨0x900001, 3, 0, 1, true, 2, 1, 3300, 884, 3300⟩,
  -- POWER_ORDER
  ⟨0x900002, 2, 0, 3, true, 1, 1, 0, 0, 5⟩,
  -- LINK_FLOOR_W
  ⟨0x900003, 3, 0, 1, true, 2, 1, 450, 300, 700⟩,
  -- MEM_FLOOR_W
  ⟨0x900004, 3, 0, 1, true, 2, 1, 350, 250, 700⟩]

/-- Objects 9000h:05h to 9030h:04h. -/
def objRows7 : List Obj := [
  -- COMPUTE_FLOOR_W
  ⟨0x900005, 3, 0, 1, true, 2, 1, 200, 100, 1600⟩,
  -- CLASS0_POWER_FLOOR_W
  ⟨0x900006, 7, 0, 0, false, 4, 1, 0x44814000, 0, 4294967295⟩,
  -- FULL_LOAD_CORE_W
  ⟨0x900007, 7, 0, 0, false, 4, 1, 0x40c66666, 0, 4294967295⟩,
  -- INPUT_POWER_W
  ⟨0x900008, 7, 0, 0, false, 4, 1, 0, 0, 4294967295⟩,
  -- FEED_MODE
  ⟨0x900009, 2, 0, 0, false, 1, 1, 0, 0, 255⟩,
  -- FEED_STATE
  ⟨0x90000A, 10, 2, 0, false, 1, 2, 0, 0, 255⟩,
  -- BUDGETS_W
  ⟨0x90000B, 10, 7, 0, false, 4, 3, 0, 0, 4294967295⟩,
  -- POWER_STEP
  ⟨0x90000C, 10, 2, 0, false, 1, 3, 0, 0, 255⟩,
  -- PHASES_IN_SERVICE
  ⟨0x90000D, 10, 2, 0, false, 1, 13, 0, 0, 255⟩,
  -- DROOP_THRESHOLD_MV
  ⟨0x901001, 3, 0, 1, true, 2, 1, 40, 20, 100⟩,
  -- DROOP_EVENTS
  ⟨0x901002, 10, 5, 0, false, 8, 0, 0, 0, 2 ^ 64 - 1⟩,
  -- HINTS_APPLIED
  ⟨0x901003, 5, 0, 0, false, 8, 1, 0, 0, 2 ^ 64 - 1⟩,
  -- CORE_CEILING_MHZ
  ⟨0x902001, 10, 3, 0, true, 2, 0, 0, 0, 65535⟩,
  -- CORE_SETPOINT_MHZ
  ⟨0x902002, 10, 3, 0, false, 2, 0, 2700, 0, 65535⟩,
  -- ACLK_TARGET_MHZ
  ⟨0x902003, 3, 0, 3, true, 2, 1, 2700, 2700, 3100⟩,
  -- CLKDLY_CODE
  ⟨0x902004, 2, 0, 0, false, 1, 1, 0, 0, 255⟩,
  -- MUX_RECOVERIES
  ⟨0x902005, 4, 0, 0, true, 4, 1, 0, 0, 4294967295⟩,
  -- THERMAL_STATE
  ⟨0x903001, 10, 2, 0, false, 1, 12, 0, 0, 255⟩,
  -- THERMAL_LIMIT_EVENTS
  ⟨0x903002, 10, 4, 0, true, 4, 12, 0, 0, 4294967295⟩,
  -- THERMAL_RESTART
  ⟨0x903003, 1, 0, 2, false, 1, 1, 0, 0, 1⟩,
  -- COOLANT_STATE
  ⟨0x903004, 2, 0, 0, false, 1, 1, 0, 0, 255⟩]

/-- Every object but the subindex-00h objects of R429. -/
def objRows : List Obj :=
  objRows0 ++ objRows1 ++ objRows2 ++ objRows3 ++ objRows4 ++ objRows5 ++ objRows6 ++ objRows7

/-- The object of an index and subindex. Subindex 00h of an index in use is a U8 RO object (R429). -/
def findObj (idx sub : Nat) : Option Obj :=
  if sub = 0 then
    if objRows.any fun o => o.key / 256 = idx then some ⟨idx * 256, 2, 0, 0, false, 1, 1, 0, 0, 255⟩ else none
  else objRows.find? fun o => o.key = idx * 256 + sub

/-- The highest subindex in use of an index (R429). -/
def highestSub (idx : Nat) : Nat :=
  objRows.foldl (fun a o => if o.key / 256 = idx then max a (o.key % 256) else a) 0

/-- The serving cores of the package (R3, R6); `g` is the serving cores per die. -/
def coreTotal (g : Nat) : Nat := 8 * g

/-- The element count of an object (R441); a per-core array has one element per logical core. -/
def Obj.len (o : Obj) (g : Nat) : Nat := if o.typ = 10 ∧ o.count = 0 then coreTotal g else o.count

/-- The manufacturing record's serving site of a logical core (R29): DESIGN CHOICE (log entry 5): on each die the
serving sites are the first ones in PSN order, then two spares, then the disabled sites. -/
def recordSite (g c : Nat) : Nat := 36 * (c / g) + c % g

/-- The manufacturing record's state of a site (R29, R4): 0 serving, 1 spare, 2 disabled (log entry 5). -/
def recordState (g psn : Nat) : Nat :=
  let i := psn % 36
  if i < g then 0 else if i < g + 2 then 1 else 2

/-- The manufacturing record's ceiling of every site, in MHz: DESIGN CHOICE 3,100 (log entry 5). -/
def recordCeiling : Nat := 3100

/-- The reset value of element `e` of an object: its default, or for the objects whose default the spec derives from the
manufacturing record or from the element, that value (R3, R7, R29, R60; log entries 5 and 19). -/
def objDefault (g key e : Nat) : Nat :=
  match key with
  | 0x101002 => coreTotal g
  | 0x401001 => if e < coreTotal g then recordSite g e else 0xFFFF
  | 0x401002 => recordState g e
  | 0x404001 => if e % 17 = 16 then 1 else 0
  | 0x701001 => if e = 0 then 7 else 6
  | 0x400101 => if e = 0 then 0 else 1
  | 0x205003 => 2
  | 0x902001 => recordCeiling
  | 0x90000D => if e = 0 then 16 else 8
  | 0x900009 => 1
  | 0x100007 => 0x01000000
  | 0x601004 => if e = 0 then 0x01000000 + 2 ^ 64 else 0
  | _ => match objRows.find? fun o => o.key = key with
    | some o => o.dflt
    | none => 0

/-- The key of element `e` of an object in the sparse dictionary. -/
def dkey (idx sub e : Nat) : Nat := (idx * 256 + sub) * 2 ^ 20 + e

/-- What an unlisted key of the dictionary reads as. -/
def dictDefault (g : Nat) (k : Nat) : Nat := objDefault g (k / 2 ^ 20) (k % 2 ^ 20)

end Sys2Proof.Machine
end

