-- ==== Sys2Proof/Machine/Ops.lean ====
section
/-!
DEFINITION. The operations that every family of commands shares: outcomes, objects, registers, cores, the log, events,
interrupts and counters.
-/
namespace Sys2Proof.Machine

/-- The outcome of a command. -/
abbrev Out := Host.Outcome State Fault Refusal

/-- A command that names an event which cannot occur in this state (log entry 2). -/
def cannot : Out := .fault .cannotOccur

/-- The state `t` where the event can occur. -/
def guarded (b : Bool) (t : State) : Out := if b then .next t else cannot

/-! ## Objects -/

/-- Element `e` of an object. -/
def State.obj (s : State) (idx sub e : Nat) : Nat := sget (dictDefault s.grade) s.dict (dkey idx sub e)

/-- Sets element `e` of an object. -/
def State.setObj (s : State) (idx sub e v : Nat) : State :=
  { s with dict := sset (dictDefault s.grade) s.dict (dkey idx sub e) v }

/-- Adds to a U64 counter, which saturates at all ones. -/
def State.bump (s : State) (idx sub e n : Nat) : State := s.setObj idx sub e (satAdd 64 (s.obj idx sub e) n)

/-- Adds to a U32 counter, which saturates at all ones. -/
def State.bump32 (s : State) (idx sub e n : Nat) : State := s.setObj idx sub e (satAdd 32 (s.obj idx sub e) n)

/-- Returns every element of an object to its default. -/
def State.clearObj (s : State) (idx sub : Nat) : State :=
  { s with dict := sclear s.dict (dkey idx sub 0) (dkey idx (sub + 1) 0) }

/-- The tick number (R39). -/
def State.tick (s : State) : Nat := s.obj 0x2010 3 0

/-- The device time of the current tick's boundary (R39). -/
def State.tickStart (s : State) : Nat := s.obj 0x2010 4 0

/-- MODULE_STATE (R436): 0 RUNNING, 1 QUIESCING, 2 QUIESCED, 3 WARM_STARTING, 4 SERVICE_HOLD, 5 STARTING. -/
def State.moduleState (s : State) : Nat := s.obj 0x2002 2 0

/-- Sets MODULE_STATE. -/
def State.setModule (s : State) (v : Nat) : State := s.setObj 0x2002 2 0 v

/-- Whether the module is released and serves steps: RUNNING, QUIESCING or QUIESCED. -/
def State.released (s : State) : Bool := decide (s.moduleState ≤ 2)

/-- The state of a function (R416): 0 ABSENT, 1 ZEROING, 2 READY, 3 DRAINING, 4 QUIESCED. -/
def State.fnState (s : State) (f : Nat) : Nat := s.obj 0x7050 1 f

/-- Sets the state of a function. -/
def State.setFn (s : State) (f v : Nat) : State := s.setObj 0x7050 1 f v

/-- Flags the module for replacement with a reason bit (R438, R529). -/
def flagReplace (s : State) (reason : Nat) : State :=
  (s.setObj 0x4000 1 0 1).setObj 0x4000 2 0 (s.obj 0x4000 2 0 ||| 2 ^ reason)

/-- The default of an object of 2060h by subindex (R362). -/
def limitDefault (sub : Nat) : Nat := ([0, 8, 2000, 16, 64, 256] : List Nat).getD sub 0

/-- A value of 2060h by subindex: the one in effect since the last tick boundary (R362). -/
def netLimit (s : State) (sub : Nat) : Nat := sget limitDefault s.net.limits sub

/-- The values written to 2060h take effect (R362). -/
def latchLimits (s : State) : State :=
  let l := ([1, 2, 3, 4, 5] : List Nat).foldl (fun m k => sset limitDefault m k (s.obj 0x2060 k 0)) s.net.limits
  { s with net := { s.net with limits := l } }

/-- The cores that serve: the site map does not read FFFFh (R6, R30). -/
def inService (s : State) (c : Nat) : Bool := decide (c < coreTotal s.grade) && decide (s.obj 0x4010 1 c ≠ 0xFFFF)

/-- The site that serves a logical core (R27). -/
def siteOfCore (s : State) (c : Nat) : Nat := s.obj 0x4010 1 c

/-- The compute die of a logical core (R29). -/
def dieOfCore (s : State) (c : Nat) : Nat := c / s.grade

/-! ## Registers -/

/-- The reset value of a register (R395, R402, R405, R418): CQ_TAIL and EVQ_TAIL show PHASE 1, every MSI-X vector is
masked; every other register resets to 0. -/
def regDefault (k : Nat) : Nat :=
  let fn := k / 2 ^ 25
  let off := k % 2 ^ 25
  if 0x1800 ≤ off ∧ off < 0x2000 ∧ off % 32 = 0xC then 0x10000
  else if off = 0x2010 then 0x10000
  else if fn = 0 ∧ 0x10000 ≤ off ∧ off < 0x18000 ∧ off % 16 = 12 then 1
  else if fn ≠ 0 ∧ 0xC000 ≤ off ∧ off < 0xC100 ∧ off % 16 = 12 then 1
  else 0

/-- The key of a register. -/
def rkey (fn off : Nat) : Nat := fn * 2 ^ 25 + off

/-- A stored register of a function's BAR. -/
def State.reg (s : State) (fn off : Nat) : Nat := sget regDefault s.regs (rkey fn off)

/-- Sets a stored register. -/
def State.setReg (s : State) (fn off v : Nat) : State := { s with regs := sset regDefault s.regs (rkey fn off) v }

/-- An event of an SQC register (R539): SEQ advances by 1 modulo 65,536 and the event bit is set. -/
def sqcEvent (s : State) (fn off bitNo : Nat) : State :=
  let v := s.reg fn off
  s.setReg fn off (putBits (putBits v 0 16 (bits v 0 16 + 1)) bitNo 1 1)

/-! ## Cores and groups -/

/-- The state of a logical core. -/
def State.core (s : State) (c : Nat) : Core := sget (fun _ => Core.idle) s.cores c

/-- Sets the state of a logical core. -/
def State.setCore (s : State) (c : Nat) (k : Core) : State :=
  { s with cores := sset (fun _ => Core.idle) s.cores c k }

/-- A group slot of a core; an unlisted slot is empty. -/
def Core.group (k : Core) (slot : Nat) : Group := sget (fun _ => Group.empty) k.groups slot

/-- Sets a group slot. -/
def Core.setGroup (k : Core) (slot : Nat) (g : Group) : Core :=
  { k with groups := sset (fun _ => Group.empty) k.groups slot g }

/-- STATUS[1:0] (R110): 0 empty, 1 active, 2 pending, 3 ended. -/
def Group.state (g : Group) : Nat := bits g.status.toNat 0 2

/-- STATUS[6:2], the wait cause (R110, R117). -/
def Group.cause (g : Group) : Nat := bits g.status.toNat 2 5

/-- STATUS[13:8], the path-stack depth. -/
def Group.depth (g : Group) : Nat := bits g.status.toNat 8 6

/-- STATUS[19:16], the barrier waited on. -/
def Group.barrier (g : Group) : Nat := bits g.status.toNat 16 4

/-- STATUS[20], waiting at a barrier. -/
def Group.atBarrier (g : Group) : Bool := bit g.status.toNat 20

/-- Sets bits of STATUS. -/
def Group.setStatus (g : Group) (off len v : Nat) : Group :=
  { g with status := BitVec.ofNat 32 (putBits g.status.toNat off len v) }

/-- Moves a group to the pending set with a wait cause (R117). -/
def Group.pend (g : Group) (cause waitsOn : Nat) : Group :=
  { ((g.setStatus 0 2 2).setStatus 2 5 cause) with waitsOn := waitsOn, resolved := none }

/-- Moves a group to the active set (R118). -/
def Group.activate (g : Group) : Group :=
  { ((g.setStatus 0 2 1).setStatus 2 5 0) with resolved := none }

/-- The next value of the model's order stamp. -/
def State.tickStamp (s : State) : State := { s with stamp := s.stamp + 1 }

/-- A wait that resolves is stamped, so that promotion is in the order of R118. -/
def Group.resolve (g : Group) (at_ : Nat) : Group := { g with resolved := some at_ }

/-- The groups of a core that live: started and not ended (R126). -/
def Core.live (k : Core) : List (Nat × Group) := k.groups.filter fun p => p.2.state = 1 || p.2.state = 2

/-- Advances the PC of a group by one instruction. -/
def Group.advance (g : Group) : Group := { g with pc := g.pc + 1, waitsOn := 0 }

/-! ## The log (R454, R525 to R527) -/

/-- A record with nothing named; CORE holds FFFFh when no core is named, FUNC FFh for the module. -/
def LogRec.blank : LogRec := ⟨0, 0, 0, 0xFF, 0, 0, 0, 0, 0xFFFF, 0, 0, 0, 0, 0, 0, 0, 0, 0, 0⟩

/-- The index after `n` (R454): after FFFF_FFFFh it wraps to 1. -/
def nextIndex (n : Nat) : Nat := if n ≥ 2 ^ 32 - 1 then 1 else n + 1

/-- SEQ_REF of a record (R527): for START its number, else the index of the first record held of its KIND and CAUSE (DEDUCED, log
entry 40). -/
def seqRefOf (s : State) (r : LogRec) : Nat :=
  if r.kind = 7 then r.seqRef
  else (((s.mgmt.log ++ s.mgmt.logPend).find? fun x => decide (x.kind = r.kind) && decide (x.cause = r.cause)).map LogRec.index).getD 0

/-- Writes a log record: it takes the next index, the device time and the tick, and waits for its flash write (R454,
R455). -/
def logRecord (s : State) (r : LogRec) : State :=
  let i := nextIndex (s.obj 0x5000 2 0)
  let s := { s with mgmt := { s.mgmt with logPend := s.mgmt.logPend ++
    [{ r with index := i, time := s.now, tick := s.tick, seqRef := seqRefOf s r }] } }
  let s := s.setObj 0x5000 2 0 i
  if s.obj 0x5000 1 0 = 0 then s.setObj 0x5000 1 0 i else s

/-- The index of the newest record. -/
def newestRecord (s : State) : Nat := s.obj 0x5000 2 0

/-- Queues an event for a function's event queue (R405). -/
def queueEvent (s : State) (fn : Fn) (kind code queue stepId : Nat) : State :=
  { s with host := { s.host with evPend := s.host.evPend ++
    [⟨fn, kind, code, queue, stepId, s.tick, s.now, newestRecord s⟩] } }

/-- Writes a record that names a function and notifies the function's event queue once (R405, R525). -/
def fnRecord (s : State) (fn : Fn) (r : LogRec) (evKind code queue : Nat) : State :=
  let s := logRecord s { r with func := fn.val }
  queueEvent s fn evKind code queue r.stepId

/-- Sends something to the outside. -/
def State.emit (s : State) (o : Output) : State := { s with out := s.out ++ [o] }

/-- UART_TX prints a line for a record; it is high-impedance while PD19 is off (R562). -/
def uartLine (s : State) (index kind cause : Nat) : State :=
  if s.power.domains.getLsbD 19 then s.emit (.uart index kind cause) else s

/-- Writes a hardware record (R525): KIND 0002h, with 4070h:02h and the cause's count in 4070h:01h. -/
def hwRecord (s : State) (r : LogRec) : State :=
  let s := logRecord s { r with kind := 2, scope := 2 }
  let s := s.setObj 0x4070 2 0 (newestRecord s)
  s.bump32 0x4070 1 (r.cause - 0x50) 1

/-- A report through AER (R530): severity 0 correctable, 1 non-fatal, 2 fatal; `ref` is DW0 of the header log. -/
def aer (s : State) (fn : Fn) (error : String) (severity ref : Nat) : State := s.emit (.aer fn error severity ref)

/-! ## Interrupts (R404) -/

/-- The MSI-X vectors of a function (R390). -/
def vectorCount (fn : Nat) : Nat := if fn = 0 then 2048 else 16

/-- The offset of a vector's table entry (R395, R397). -/
def msixEntry (fn v : Nat) : Nat := if fn = 0 then 0x10000 + 16 * v else 0xC000 + 16 * v

/-- The offset of the PBA word of a vector. -/
def pbaWord (fn v : Nat) : Nat := if fn = 0 then 0x18000 + 4 * (v / 32) else 0xD000 + 4 * (v / 32)

/-- Sends a vector's message; a masked vector sets its pending bit instead. -/
def sendVector (s : State) (fn : Fn) (v : Nat) : State :=
  if bit (s.reg fn.val (msixEntry fn.val v + 12)) 0 then
    s.setReg fn.val (pbaWord fn.val v) (s.reg fn.val (pbaWord fn.val v) ||| 2 ^ (v % 32))
  else s.emit (.msix fn v)

/-! ## Time -/

/-- Whether a moment of device time is not before the present. -/
def notBefore (s : State) (ns : Nat) : Bool := decide (s.now ≤ ns)

/-- Device time moves to `ns`. -/
def State.at (s : State) (ns : Nat) : State := { s with now := ns }

/-- Whether an environment's choice lies in a free value: draws the next free 64-bit value. -/
def drawFree (s : State) : BitVec 64 × State := (Config.freeBits s.free, { s with free := s.free + 1 })

/-! ## Lists of steps -/

/-- Updates the step with a key. -/
def updStep (s : State) (key : Nat) (f : Step → Step) : State :=
  { s with sage := { s.sage with steps := s.sage.steps.map fun t => if t.key = key then f t else t } }

/-- The step with a key. -/
def findStep (s : State) (key : Nat) : Option Step := s.sage.steps.find? fun t => t.key = key

/-- Adds a status to a step, with the record that decides it (R72, R74). -/
def Step.addStatus (t : Step) (st : StepStatus) (ref : Nat) : Step :=
  { t with statuses := t.statuses ++ [st], errRef := if t.errRef = 0 then ref else t.errRef }

/-- Cancels the commands of a step that have not started (R74). -/
def Step.cancelRest (t : Step) : Step :=
  { t with cmds := t.cmds.map fun c => if c.phase = .waiting then { c with phase := .cancelled } else c }

/-- CLASS of a descriptor (R41). -/
def Step.cls (t : Step) : Nat := bits t.raw.toNat 64 2

/-- A BOUND_VOID record (R69), one for each step: in the log, on the function's event queue, and in the counter of its
cause: 1 COST, 2 RESIDENCY, 3 POWER_CAP, 4 THERMAL. -/
def boundVoid (s : State) (key cause : Nat) : State :=
  match findStep s key with
  | none => s
  | some t =>
    if t.voided then s
    else
      let s := fnRecord s t.fn { LogRec.blank with
        kind := 3
        severity := 1
        cause := cause
        scope := 1
        stepId := bits t.raw.toNat 0 64 } 1 cause 0
      (updStep s key fun t => { t with voided := true }).bump 0x4020 cause 0 1

/-- STEP_ID of a descriptor (R41). -/
def Step.id (t : Step) : Nat := bits t.raw.toNat 0 64

end Sys2Proof.Machine
end

