-- ==== Sys2Proof/Machine/Operands.lean ====
section
/-!
DEFINITION. Operand forms of kernel code: register specifiers and groups (R178, R179), register reads and writes over
the register file (R109), and the registers that an outstanding load will write (R116, R117).
-/
namespace Sys2Proof.Machine

/-- What a 7-bit specifier names (R178). -/
inductive Reg where
  | v (n : Nat)
  | u (n : Nat)
  | p (n : Nat)
  | zero
  deriving DecidableEq, Repr

/-- The register of a specifier; none for a reserved one (R178). -/
def regOf (spec : BitVec 7) : Option Reg :=
  let n := spec.toNat
  if n < 0x40 then some (.v n)
  else if n < 0x60 then some (.u (n - 0x40))
  else if n < 0x68 then some (.p (n - 0x60))
  else if n = 0x68 then some .zero
  else none

/-- A specifier of a v register. -/
def isV (spec : BitVec 7) : Bool := decide (spec.toNat < 0x40)

/-- A specifier of a u register. -/
def isU (spec : BitVec 7) : Bool := decide (0x40 ≤ spec.toNat) && decide (spec.toNat < 0x60)

/-- A specifier of a predicate. -/
def isP (spec : BitVec 7) : Bool := decide (0x60 ≤ spec.toNat) && decide (spec.toNat < 0x68)

/-- The specifier of ZERO. -/
def isZ (spec : BitVec 7) : Bool := spec == 0x68

/-- A source of a vector instruction: v, u or ZERO (R185). -/
def isVUZ (spec : BitVec 7) : Bool := isV spec || isU spec || isZ spec

/-- A source of a scalar instruction: u or ZERO (R191). -/
def isUZ (spec : BitVec 7) : Bool := isU spec || isZ spec

/-- The number of a v, u or p register within its kind. -/
def regNo (spec : BitVec 7) : Nat :=
  let n := spec.toNat
  if n < 0x40 then n else if n < 0x60 then n - 0x40 else n - 0x60

/-- Whether `count` registers from a specifier form a register group (R179): the first index is a multiple of the
count, and the run ends within its file. -/
def groupOk (spec : BitVec 7) (count : Nat) : Bool :=
  decide (regNo spec % count = 0) &&
    ((isV spec && decide (regNo spec + count ≤ 64)) || (isU spec && decide (regNo spec + count ≤ 32)))

/-- The key of a register-file word: slot, row, thread (R109). -/
def rfKey (slot row lane : Nat) : Nat := slot * 2048 + row * 32 + lane

/-- Thread `lane`'s v register. -/
def Core.v (k : Core) (slot row lane : Nat) : Word := sget (fun _ => 0) k.rf (rfKey slot row lane)

/-- Sets thread `lane`'s v register. -/
def Core.setV (k : Core) (slot row lane : Nat) (w : Word) : Core :=
  { k with rf := sset (fun _ => 0) k.rf (rfKey slot row lane) w }

/-- A uniform register: thread n's v63 (R109). -/
def Core.u (k : Core) (slot n : Nat) : Word := k.v slot 63 n

/-- Sets a uniform register. -/
def Core.setU (k : Core) (slot n : Nat) (w : Word) : Core := k.setV slot 63 n w

/-- A predicate of a group. -/
def Group.pred (g : Group) (n : Nat) : Word := g.preds.toList.getD n 0

/-- Sets a predicate. -/
def Group.setPred (g : Group) (n : Nat) (w : Word) : Group := { g with preds := g.preds.setIfInBounds n w }

/-- The value that thread `lane` sees of a source (R178). -/
def Core.src (k : Core) (g : Group) (slot : Nat) (spec : BitVec 7) (lane : Nat) : Word :=
  match regOf spec with
  | some (.v n) => k.v slot n lane
  | some (.u n) => k.u slot n
  | some (.p n) => if (g.pred n).getLsbD lane then 1 else 0
  | _ => 0

/-- The value of a scalar source: a u register, ZERO, or a predicate's mask (R178). -/
def Core.usrc (k : Core) (g : Group) (slot : Nat) (spec : BitVec 7) : Word :=
  match regOf spec with
  | some (.u n) => k.u slot n
  | some (.p n) => g.pred n
  | _ => 0

/-- The 64-bit value of a register pair that thread `lane` sees (R179). -/
def Core.pair (k : Core) (g : Group) (slot : Nat) (spec : BitVec 7) (lane : Nat) : Nat :=
  (k.src g slot spec lane).toNat + 2 ^ 32 * (k.src g slot (spec + 1) lane).toNat

/-- The `count` registers from a specifier that thread `lane` sees, as one number, low register first. -/
def Core.regs (k : Core) (g : Group) (slot : Nat) (spec : BitVec 7) (lane : Nat) : Nat → Nat
  | 0 => 0
  | n + 1 => (k.src g slot spec lane).toNat + 2 ^ 32 * k.regs g slot (if isZ spec then spec else spec + 1) lane n

/-- The lane numbers of a group. -/
def lanes : List Nat := List.range 32

/-- The lanes set in a mask, ascending. -/
def lanesOf (mask : Word) : List Nat := lanes.filter fun t => mask.getLsbD t

/-- Writes v register `row` of every lane in `mask` with `f lane`. -/
def Core.setVs (k : Core) (slot row : Nat) (mask : Word) (f : Nat → Word) : Core :=
  (lanesOf mask).foldl (fun k t => k.setV slot row t (f t)) k

/-- Writes `count` registers of one lane from a number, low register first. -/
def Core.setRun (k : Core) (slot row lane : Nat) : Nat → Nat → Core
  | 0, _ => k
  | n + 1, x => (k.setV slot row lane (BitVec.ofNat 32 x)).setRun slot (row + 1) lane n (x / 2 ^ 32)

/-- A mask whose bit t is `f t` for the lanes in `mask` and the old bit elsewhere (R190). -/
def maskWith (old mask : Word) (f : Nat → Bool) : Word :=
  BitVec.ofNat 32 (lanes.foldl (fun a t => a + (if (if mask.getLsbD t then f t else old.getLsbD t) then 2 ^ t else 0)) 0)

/-! ## Registers that a load will write -/

/-- Registers per thread of a width code (R193). -/
def widthRegs (w : BitVec 3) : Nat := if w = 4 then 2 else if w = 5 then 4 else 1

/-- Whether an outstanding load of a slot will write a word of v row `row`, or of its `lane` when one is named. -/
def LoadRec.writes (l : LoadRec) (slot row : Nat) (lane : Option Nat) : Bool :=
  decide (l.slot.val = slot) && isV l.dst && decide (regNo l.dst ≤ row) && decide (row < regNo l.dst + widthRegs l.width) &&
    (match lane with
     | none => true
     | some t => l.lanes.any fun a => a.lane.val = t)

/-- The load that a register of a slot waits for: for u_k, a load that writes thread k's v63 (R109, R117). -/
def Core.waitsFor (k : Core) (slot : Nat) (spec : BitVec 7) : Option Nat :=
  match regOf spec with
  | some (.v n) => (k.loads.find? fun l => l.writes slot n none).map LoadRec.tag
  | some (.u n) => (k.loads.find? fun l => l.writes slot 63 (some n)).map LoadRec.tag
  | _ => none

/-- The registers of a run from a specifier. -/
def specRun (spec : BitVec 7) (count : Nat) : List (BitVec 7) :=
  if isZ spec then [spec] else (List.range count).map fun i => spec + BitVec.ofNat 7 i

/-- The first load that one of the registers waits for. -/
def Core.waitTag (k : Core) (slot : Nat) (specs : List (BitVec 7)) : Option Nat :=
  specs.findSome? fun sp => k.waitsFor slot sp

end Sys2Proof.Machine
end

