-- ==== Sys2Proof/Machine/Flags.lean ====
section
/-!
DEFINITION. The guard and the effective mask (R181, R182), compare conditions (R190), and the conversion counts and
counters that arithmetic sets (R89, R106).
-/
namespace Sys2Proof.Machine

/-- GE, bit 57 of a word. -/
def guardOn (guard : BitVec 5) : Bool := guard.getLsbD 4

/-- The effective mask of an instruction (R181). -/
def effMask (g : Group) (guard : BitVec 5) : Word :=
  if guardOn guard then
    let p := g.pred (bits guard.toNat 0 3)
    g.mask &&& (if guard.getLsbD 3 then ~~~p else p)
  else g.mask

/-- The integer compare conditions of isetp (R190). -/
def intCompare (cond : Nat) (signed : Bool) (a b : Word) : Bool :=
  let lt := if signed then a.slt b else a.ult b
  match cond with
  | 0 => a == b
  | 1 => a != b
  | 2 => lt
  | 3 => lt || a == b
  | 4 => !(lt || a == b)
  | _ => !lt

/-- Counts a conversion's events for a logical core (R106): saturations, NaNs written as 0, NaN scales. -/
def countConv (s : State) (core sat nan0 nonfinite : Nat) : State :=
  let s := if sat = 0 then s else s.bump 0x3040 1 core sat
  let s := if nan0 = 0 then s else s.bump 0x3040 2 core nan0
  if nonfinite = 0 then s else s.bump 0x3040 3 core nonfinite

/-- The rounding mode of a ROUND code (R86); code 10b draws r (R88, R89). -/
def rmode (round : Nat) (r : Nat) : RMode :=
  match round with
  | 0 => .rne
  | 1 => .rtz
  | _ => .sr r

/-- The free value r of stochastic rounding for an element (R89; log entry 9). -/
def srDraw (seed core gidx conv pos : Nat) : Nat := (Config.srRandom seed core gidx conv pos).toNat

end Sys2Proof.Machine
end

