-- ==== Sys2Proof/Machine/Issue.lean ====
section
/-!
DEFINITION. Issuing an instruction of a group: the group that may issue (R116, R117), the end of a group and of a
command on a core (R111, R119), barriers' release (R127), and the one operation that takes a group fault (R210 to
R212, R74).
-/
namespace Sys2Proof.Machine

/-- The fault causes of R210. -/
def causeIllegal : Nat := 1
/-- FORMAT. -/
def causeFormat : Nat := 2
/-- SHAPE. -/
def causeShape : Nat := 3
/-- ALIGN. -/
def causeAlign : Nat := 4
/-- LMEM_RANGE. -/
def causeRange : Nat := 5
/-- PATH_OVERFLOW. -/
def causePath : Nat := 6
/-- BARRIER_PARTIAL. -/
def causeBarrier : Nat := 7
/-- ADDR_MAP. -/
def causeMap : Nat := 8
/-- ACCESS. -/
def causeAccess : Nat := 9
/-- POISON. -/
def causePoison : Nat := 10
/-- WATCHDOG. -/
def causeWatchdog : Nat := 11

/-- The wait causes of R117. -/
def waitLoad : Nat := 1
/-- TICKET. -/
def waitTicket : Nat := 2
/-- BARRIER. -/
def waitBarrier : Nat := 3
/-- INBOX. -/
def waitInbox : Nat := 4
/-- YIELD. -/
def waitYield : Nat := 5
/-- START. -/
def waitStart : Nat := 6

/-! ## The end of groups and commands -/

/-- Whether the last group of a core's range has ended and everything its command left behind is done: tickets
retired, loads and transfers finished, writes acknowledged (R111, R267). -/
def Core.done (k : Core) : Bool :=
  match k.cmd with
  | none => false
  | some c => k.live.isEmpty && (c.stopping || decide (c.first + c.count ≤ c.next)) && k.mq.isEmpty && k.loads.isEmpty &&
      k.xfers.isEmpty && k.writes.isEmpty

/-- The core after its command has ended on it: what belongs to the command is gone, the caches and the clock stay. -/
def Core.release (k : Core) : Core :=
  { Core.idle with ro := k.ro, miss := k.miss, cycles := k.cycles, hw := k.hw }

/-- Whether any core still runs a command of a step. -/
def runsOnCores (s : State) (step idx : Nat) : Bool :=
  s.cores.any fun p => match p.2.cmd with
    | some c => decide (c.step = step) && decide (c.idx = idx)
    | none => false

/-- Whether spilled state of a command waits to resume. -/
def spilled (s : State) (step idx : Nat) : Bool :=
  s.sage.spills.any fun r => decide (r.step = step) && decide (r.cmd = idx)

/-- Sets the phase of a command of a step. -/
def setPhase (s : State) (step idx : Nat) (p : CmdPhase) : State :=
  updStep s step fun t => { t with cmds := t.cmds.zipIdx.map fun q => if q.2 = idx then { q.1 with phase := p } else q.1 }

/-- Frees a core whose command has ended on it; when it ended on every core, the command is done (R111, R267). -/
def settleCore (s : State) (c : Nat) : State :=
  let k := s.core c
  match k.cmd with
  | none => s
  | some cmd =>
    if k.done then
      let s := s.setCore c k.release
      if runsOnCores s cmd.step cmd.idx || spilled s cmd.step cmd.idx then s else setPhase s cmd.step cmd.idx .done
    else s

/-! ## Barriers (R126 to R130) -/

/-- The groups that wait at a barrier. -/
def Core.atBarrier (k : Core) (b : Nat) : List (Nat × Group) :=
  k.live.filter fun p => p.2.atBarrier && decide (p.2.barrier = b)

/-- The group count that the latest arrival at a barrier named; 0 means every live group. -/
def latestExpect (l : List (Nat × Group)) : Nat :=
  (l.foldl (fun a p => if a.1 ≤ p.2.waitsOn then (p.2.waitsOn, p.2.barExpect.toNat) else a) (0, 0)).2

/-- A group that a barrier releases: its wait is resolved, a progress event (R127, R135). -/
def Group.released (g : Group) (at_ : Nat) : Group :=
  { (((g.setStatus 20 1 0).setStatus 16 4 0).resolve at_) with barExpect := 0, watchdog := 0 }

/-- Releases barrier `b` when the groups that wait there reach the count (R127). -/
def Core.tryRelease (k : Core) (b at_ : Nat) : Core :=
  let w := k.atBarrier b
  let e := latestExpect w
  let need := if e = 0 then k.live.length else e
  if w.isEmpty || decide (w.length < need) then k
  else w.foldl (fun k p => k.setGroup p.1 (p.2.released at_)) k

/-- Checks every barrier, as at every group end (R127). -/
def Core.checkBarriers (k : Core) (at_ : Nat) : Core := (List.range 16).foldl (fun k b => k.tryRelease b at_) k

/-- A group ends: its slot becomes empty (R119), loads that no register waits for any more are dropped (DEDUCED, log
entry 20), and barriers are checked. -/
def endGroup (s : State) (c slot : Nat) : State :=
  let k := s.core c
  let k := { k with
    loads := k.loads.filter fun l => decide (l.slot.val ≠ slot)
    held := k.held.filter fun h => decide (h.slot.val ≠ slot)
    roQueue := k.roQueue.filter fun n => decide (n ≠ slot) }
  let k := (k.setGroup slot Group.empty).checkBarriers s.stamp
  settleCore (s.setCore c k).tickStamp c

/-! ## Group faults (R74, R210 to R212) -/

/-- Every core of a command stops starting further groups of it (R74). -/
def stopCommand (s : State) (step idx : Nat) : State :=
  { s with cores := s.cores.map fun p => match p.2.cmd with
      | some c => if c.step = step ∧ c.idx = idx then (p.1, { p.2 with cmd := some { c with stopping := true } }) else p
      | none => p }

/-- Settles every core of a command, as when its groups stop starting. -/
def settleAll (s : State) (step idx : Nat) : State :=
  (s.cores.filterMap fun p => match p.2.cmd with
      | some c => if c.step = step ∧ c.idx = idx then some p.1 else none
      | none => none).foldl settleCore s

/-- What a group fault leaves in the log and in its step: the error record, its notice on the function's event queue, the
command starts no further group, the step's remaining commands are cancelled and its status is POISON or GROUP_FAULT
(R74, R212, R525). `pc` is that of the faulting instruction; `detail` names a poisoned table line (R290). -/
def noteFault (s : State) (c slot cause addr : Nat) (pc : Word) (detail : Nat := 0) : State :=
  match (s.core c).cmd with
  | none => s
  | some cmd =>
    let id := match findStep s cmd.step with
      | some t => t.id
      | none => 0
    let named := cause = causeMap ∨ cause = causeAccess ∨ cause = causePoison
    let r : LogRec := { LogRec.blank with
      kind := 1
      severity := 2
      cause := cause
      core := c
      pc := pc.toNat
      stepId := id
      address := if named then addr else 0
      detail := detail
      slot := slot
      cmdIndex := cmd.idx }
    let s := fnRecord s cmd.fn r 4 cause 0
    let st : StepStatus := if cause = causePoison then .poison else .groupFault
    let s := updStep s cmd.step fun t => (t.addStatus st (newestRecord s)).cancelRest
    stopCommand s cmd.step cmd.idx

/-- What a group that has faulted left behind faults it no second time: one record for each faulting group (R212). -/
def Core.mute (k : Core) (slot gidx : Nat) : Core :=
  { k with
    mq := k.mq.map fun o => if o.slot.val = slot ∧ o.gidx = gidx then { o with quiet := true } else o
    writes := k.writes.map fun w => if w.slot.val = slot ∧ w.gidx = gidx then { w with quiet := true } else w }

/-- Settles the cores of the command that runs on a core. -/
def settleCommand (s : State) (c : Nat) (cmd : Option CoreCmd) : State :=
  match cmd with
  | some x => settleAll s x.step x.idx
  | none => settleCore s c

/-- A group fault (R212): the group stops at once, and what its command left is noted. -/
def takeFault (s : State) (c slot cause addr : Nat) (pc : Word) (detail : Nat := 0) : State :=
  let cmd := (s.core c).cmd
  let k := (s.core c).mute slot ((s.core c).group slot).gidx
  settleCommand (endGroup (noteFault (s.setCore c k) c slot cause addr pc detail) c slot) c cmd

/-- A fault that a group's earlier operation raises after it issued (R165, R203): the group faults wherever it is in its
program; a group that has ended leaves its record and its step's status. -/
def lateFault (s : State) (c slot gidx cause addr : Nat) (pc : Word) : State :=
  let g := (s.core c).group slot
  if (g.state = 1 ∨ g.state = 2) ∧ g.gidx = gidx then takeFault s c slot cause addr pc
  else
    let cmd := (s.core c).cmd
    settleCommand (noteFault (s.setCore c ((s.core c).mute slot gidx)) c slot cause addr pc) c cmd

/-- A step fault (R74, R525): an ERROR record of scope step that names the step, its notice on the function's event
queue, the status FAULT_UNRECOVERED, and the commands that have not started are cancelled. -/
def stepFault (s : State) (key cause cmd : Nat) : State :=
  match findStep s key with
  | none => s
  | some t =>
    let r : LogRec := { LogRec.blank with
      kind := 1
      severity := 2
      cause := cause
      scope := 1
      stepId := t.id
      cmdIndex := cmd }
    let s := fnRecord s t.fn r 4 cause 0
    updStep s key fun t => (t.addStatus .faultUnrecovered (newestRecord s)).cancelRest

/-! ## Issue -/

/-- What an instruction of a group did: it completed, it faults (also with effects that stand, R211, and what the record's DETAIL
names, R290), the group waits and has not executed it, or the group ended. -/
inductive Effect where
  | go (s : State) (k : Core) (g : Group)
  | fault (cause addr : Nat)
  | faultIn (s : State) (k : Core) (cause addr detail : Nat)
  | wait (cause on : Nat)
  | ends (s : State) (k : Core)
  deriving DecidableEq, Repr

/-- Whether a core's clock runs for its command: the command's slice has not ended, and the core is neither fenced nor gated
(R61, R119, R481, R531). -/
def Core.runs (k : Core) : Bool :=
  (match k.cmd with
    | some c => !c.paused
    | none => false) && !k.hw.fenced && !k.hw.gated

/-- The command and group that may issue: the core runs its command, and the group is in the active set (R117). -/
def canIssue (s : State) (g : GroupRef) : Bool :=
  (s.core g.core).runs && decide (((s.core g.core).group g.slot).state = 1)

/-- Applies what an instruction did. -/
def applyEffect (s : State) (g : GroupRef) (e : Effect) : State :=
  let k := s.core g.core
  let gr := k.group g.slot
  match e with
  | .go s k gr => s.setCore g.core (k.setGroup g.slot gr)
  | .fault cause addr => takeFault s g.core g.slot cause addr gr.pc
  | .faultIn s k cause addr detail => takeFault (s.setCore g.core k) g.core g.slot cause addr gr.pc detail
  | .wait cause on => s.setCore g.core (k.setGroup g.slot (gr.pend cause on))
  | .ends s k => endGroup (s.setCore g.core k) g.core g.slot

/-- Issues an instruction of a group: an ill-formed one faults precisely (R182, R210); one whose registers a load will
still write moves the group to the pending set (R116, R117); otherwise it acts. `legal` answers the cause of the first
fault decided from the word and its named state. -/
def issue (s : State) (g : GroupRef) (legal : Option Nat) (regs : List (BitVec 7))
    (act : State → Core → Group → Effect) : Out :=
  let k := s.core g.core
  let gr := k.group g.slot
  guarded (canIssue s g) <|
    match legal with
    | some cause => takeFault s g.core g.slot cause 0 gr.pc
    | none =>
      match k.waitTag g.slot regs with
      | some tag => applyEffect s g (.wait waitLoad tag)
      | none => applyEffect s g (act s k gr)

/-- The first cause in table order of two checks (R210). -/
def firstFault (illegal format : Bool) : Option Nat :=
  if illegal then some causeIllegal else if format then some causeFormat else none

end Sys2Proof.Machine
end

