-- ==== Sys2Proof/Machine/Code.lean ====
section
/-!
DEFINITION. The codes of R302: the CRC-32 of lines and flits, and the Reed-Solomon code over GF(2^12) of a code page with its
encoder and its decoder (R301 to R304).
-/
namespace Sys2Proof.Machine

/-! ## CRC-32 -/

/-- The CRC-32 of R302 over `n` bits of `v`, first bit least significant, from register value `c`. -/
def crcBits : Nat → Nat → Nat → Nat
  | 0, _, c => c
  | n + 1, v, c =>
    let b := c ^^^ (v % 2)
    crcBits n (v / 2) (if b % 2 = 1 then (b / 2) ^^^ 0xEDB88320 else b / 2)

/-- CRC-32 of `n` bytes (R302). -/
def crc32 (v n : Nat) : Nat := crcBits (8 * n) v 0xFFFFFFFF ^^^ 0xFFFFFFFF

/-! ## GF(2^12) -/

/-- A field element times α, with the field polynomial x^12 + x^6 + x^4 + x + 1. -/
def gfX (a : Nat) : Nat := if 2 * a < 4096 then 2 * a else (2 * a) ^^^ 0x1053

/-- The product of two field elements. -/
def gfMul (a b : Nat) : Nat := go 12 a b 0
where
  go : Nat → Nat → Nat → Nat → Nat
    | 0, _, _, acc => acc
    | n + 1, a, b, acc => go n (gfX a) (b / 2) (if b % 2 = 1 then acc ^^^ a else acc)

/-- α to a power. -/
def gfAlpha : Nat → Nat
  | 0 => 1
  | n + 1 => gfX (gfAlpha n)

/-- The inverse of a field element that is not 0: its power 2^12 - 2. -/
def gfInv (a : Nat) : Nat := go 11 (gfMul a a) 1
where
  go : Nat → Nat → Nat → Nat
    | 0, _, acc => acc
    | n + 1, x, acc => go n (gfMul x x) (gfMul acc x)

/-- The value of a polynomial, highest power first, at a point. -/
def gfEval (x : Nat) (p : List Nat) : Nat := p.foldl (fun a c => gfMul a x ^^^ c) 0

/-! ## The code (R302, R303) -/

/-- A polynomial, highest power first, times (x + r). -/
def mulRoot (p : List Nat) (r : Nat) : List Nat :=
  ((p ++ [0]).zip (0 :: p)).map fun (c : Nat × Nat) => c.1 ^^^ gfMul r c.2

/-- The generator: the roots are α^0 to α^(n-1). -/
def rsGenerator (n : Nat) : List Nat := (List.range n).foldl (fun p i => mulRoot p (gfAlpha i)) [1]

/-- The `count` symbols of a number, 12 bits each, least significant first. -/
def symbols (v count : Nat) : List Nat := (List.range count).map fun i => bits v (12 * i) 12

/-- The number that symbols make. -/
def fromSymbols (l : List Nat) : Nat := l.zipIdx.foldl (fun a p => a + (p.1 <<< (12 * p.2))) 0

/-- Symbols of the message: 2,048 data bytes and metadata bytes 00h to 13h (R302). -/
def messageSymbols : Nat := 1379

/-- One symbol through the encoder: `r` is the remainder so far, highest power first. -/
def rsShift (g r : List Nat) (m : Nat) : List Nat :=
  let f := m ^^^ r.headD 0
  ((r.tail ++ [0]).zip g.tail).map fun (c : Nat × Nat) => c.1 ^^^ gfMul f c.2

/-- The 2t check symbols of a message. DESIGN CHOICE (log entry 53): the first symbol of the message is the coefficient of the
highest power, and the first check symbol follows the last message symbol. -/
def rsEncode (t : Nat) (msg : List Nat) : List Nat :=
  msg.foldl (rsShift (rsGenerator (2 * t))) (List.replicate (2 * t) 0)

/-- The syndromes of a received word: its values at the roots. -/
def rsSyndromes (t : Nat) (word : List Nat) : List Nat := (List.range (2 * t)).map fun j => gfEval (gfAlpha j) word

/-- The sum of two polynomials, lowest power first. -/
def polyAdd : List Nat → List Nat → List Nat
  | [], b => b
  | a, [] => a
  | x :: a, y :: b => (x ^^^ y) :: polyAdd a b

/-- The state of the search for the error locator: the locator and the last one before it grew, both lowest power first, its
degree, the steps since then, the discrepancy then. -/
structure Locator where
  c : List Nat
  b : List Nat
  l : Nat
  m : Nat
  d : Nat

/-- One step of the search over syndrome `n` (Berlekamp and Massey). -/
def Locator.step (s : List Nat) (q : Locator) (n : Nat) : Locator :=
  let d := (List.range (q.l + 1)).foldl (fun a i => a ^^^ gfMul (q.c.getD i 0) (if i ≤ n then s.getD (n - i) 0 else 0)) 0
  if d = 0 then { q with m := q.m + 1 }
  else
    let c := polyAdd q.c (List.replicate q.m 0 ++ q.b.map (gfMul (gfMul d (gfInv q.d))))
    if 2 * q.l ≤ n then ⟨c, q.c, n + 1 - q.l, 1, d⟩ else { q with c := c, m := q.m + 1 }

/-- The error locator of syndromes. -/
def locator (s : List Nat) : Locator := (List.range s.length).foldl (Locator.step s) ⟨[1], [1], 0, 1, 1⟩

/-- The places of a word of `n` symbols, as powers of x, at which the locator has its roots. -/
def errorPlaces (q : Locator) (n : Nat) : List Nat :=
  (List.range n).filter fun p => gfEval (gfAlpha ((4095 - p % 4095) % 4095)) q.c.reverse = 0

/-- The error at place `p`: X Ω(1/X) / Λ'(1/X) with X = α^p (Forney). -/
def errorValue (s : List Nat) (q : Locator) (p : Nat) : Nat :=
  let x := gfAlpha p
  let y := gfInv x
  let omega := (List.range s.length).map fun i =>
    (List.range (i + 1)).foldl (fun a j => a ^^^ gfMul (s.getD j 0) (q.c.getD (i - j) 0)) 0
  let deriv := (List.range (q.c.length - 1)).map fun i => if i % 2 = 0 then q.c.getD (i + 1) 0 else 0
  gfMul (gfMul x (gfEval y omega.reverse)) (gfInv (gfEval y deriv.reverse))

/-- Decodes a word: the error of each symbol, first symbol first, where at most t symbols are in error as the decoder finds
them. -/
def rsDecode (t : Nat) (word : List Nat) : Option (List Nat) :=
  let s := rsSyndromes t word
  let q := locator s
  let ps := errorPlaces q word.length
  if q.l ≤ t ∧ ps.length = q.l then
    some ((List.range word.length).map fun i =>
      if ps.contains (word.length - 1 - i) then errorValue s q (word.length - 1 - i) else 0)
  else none

/-! ## Code pages (R301, R304) -/

/-- The bits of the message of a code page: the data, then metadata bytes 00h to 13h. -/
def messageBits : Nat := 16544

/-- Where CHECK starts among the bits of a code page and its metadata (R301). -/
def checkBit : Nat := 16384 + 8 * 0x20

/-- The codeword symbols of what a code page and its metadata hold, at a level that corrects `t` symbols (R302). -/
def pageWord (t v : Nat) : List Nat := symbols (bits v 0 messageBits) messageSymbols ++ symbols (bits v checkBit (24 * t)) (2 * t)

/-- Whether inverted bits make line `i` fail its CRC: CRC-32 is linear, so the CRC of the inverted data bits differs from the
inverted bits of the stored CRC (R302, R304). A page with no bit inverted passes. -/
def crcFails (flips i : Nat) : Bool :=
  decide (flips ≠ 0) && decide (crcBits 4096 (bits flips (4096 * i) 4096) 0 ≠ bits flips (16384 + 32 * i) 32)

/-- The lines of a code page that fail their CRC. -/
def failedCrcs (flips : Nat) : List Nat := (List.range 4).filter fun i => crcFails flips i

/-- What a decode makes of inverted bits (R304): how many symbols it corrected and the message bits still inverted after it;
none where the decode finds more than t symbol errors, or leaves a line that fails its CRC. The code is linear, so the
inverted bits alone decide it; with none inverted there is nothing to correct. -/
def decodeFlips (t flips : Nat) : Option (Nat × Nat) :=
  match (if flips = 0 then some [] else rsDecode t (pageWord t flips)) with
  | none => none
  | some errs =>
    let fix := fromSymbols (errs.take messageSymbols)
    let left := bits flips 0 messageBits ^^^ fix
    if 2 ^ messageBits ≤ fix ∨ failedCrcs left ≠ [] then none
    else some ((errs.filter fun e => e ≠ 0).length, left)

end Sys2Proof.Machine
end

