-- ==== Sys2Proof/Machine/Links.lean ====
section
/-!
DEFINITION. Agents, routes inside and between the dies (R18, R28, R332 to R336), packets (R331), the service of virtual
channels (R337) and the link layer of Lamif-S bundles and Lamif-O ports (R350 to R352, R369).
-/
namespace Sys2Proof.Machine

/-! ## Agents (R332) -/

/-- The agent number of a slice's home. -/
def agentHome (k : Nat) : Nat := 0x120 + 8 * k

/-- The agent number of a slice's near partition, which is also the base die's request port. -/
def agentNear (k : Nat) : Nat := 0x121 + 8 * k

/-- The agent number of a base die's memory controllers, by tier. -/
def agentCtrl (b tier : Nat) : Nat := 0x122 + 8 * b + tier

/-- The agent number of a base die's copy engines. -/
def agentCopy (b : Nat) : Nat := 0x124 + 8 * b

/-- The agent number of the host interface. -/
def agentHost : Nat := 0x125

/-- The agent number of the management of a base die. -/
def agentMgmt (b : Nat) : Nat := 0x126 + 8 * b

/-- The agent number of a base die's part of Chervil. -/
def agentChervil (b : Nat) : Nat := 0x127 + 8 * b

/-- The agent number of a peer port. -/
def agentPort (p : Nat) : Nat := 0x140 + p

/-- The slice whose near partition an agent number names. -/
def portOf (agent : Nat) : Option (Fin 4) :=
  if agent = 0x121 then some 0 else if agent = 0x129 then some 1 else if agent = 0x131 then some 2
  else if agent = 0x139 then some 3 else none

/-! ## Slots and base dies -/

/-- The slot of an address (R333): the XOR fold, six bits at a time, of its line number. -/
def routeSlot (a : Nat) : Nat := go 10 (a / 512)
where
  go : Nat → Nat → Nat
    | 0, _ => 0
    | n + 1, l => (l % 64) ^^^ go n (l / 64)

/-- The base die that an agent sits on or above (R14, R332). -/
def baseOf (a : Nat) : Nat :=
  if a < 0x120 then a / 72
  else if a < 0x140 then (a - 0x120) / 8
  else if a < 0x148 then (a - 0x140) / 2
  else if a < 0x270 then (a - 0x150) / 72
  else (a - 0x270) % 4

/-- The place of an agent's die in the arrays per die: CD0 to CD7, then BD0 to BD3 (R363). -/
def dieIndex (a : Nat) : Nat :=
  if a < 0x120 then a / 36
  else if a < 0x150 then 8 + baseOf a
  else if a < 0x270 then (a - 0x150) / 36
  else 8 + baseOf a

/-- The link direction from a base die to a ring neighbour: 2 x link + direction, links 0 front, 1 right, 2 rear, 3 left,
direction 0 from the lower-numbered die (R17, R363). -/
def linkDir (x y : Nat) : Nat :=
  match x, y with
  | 0, 1 => 0
  | 1, 0 => 1
  | 1, 3 => 2
  | 3, 1 => 3
  | 2, 3 => 4
  | 3, 2 => 5
  | 0, 2 => 6
  | _, _ => 7

/-- Whether two base dies are ring neighbours: they differ in one bit of their number (R17). -/
def adjacent (x y : Nat) : Bool := x ^^^ y == 1 || x ^^^ y == 2

/-- The slot of a message about a line (R333). -/
def slotOf (l : Line) : Nat := routeSlot (l.no * 512)

/-- The slot of a packet between two agents that names no line (R333). -/
def pairSlot (src dst : Nat) : Nat := (src ^^^ dst) % 64

/-! ## Inside a compute die (R28, R334, R335) -/

/-- The router that an elevator of a die attaches to, 6 x row + column. -/
def elevatorRouter (e : Nat) : Nat := 6 * (if e < 4 then 1 else 4) + e % 4 + 1

/-- The router of a destination of a router table: entries 0 to 35 are the sites of the die, 36 to 43 its elevators. -/
def destRouter (d : Nat) : Nat := if d < 36 then d else elevatorRouter (d - 36)

/-- The router behind a port of a router: 1 up a row, 2 down a row, 3 and 4 along the row to a lower and a higher column. -/
def behind (r port : Nat) : Option Nat :=
  match port with
  | 1 => if 6 ≤ r then some (r - 6) else none
  | 2 => if r < 30 then some (r + 6) else none
  | 3 => if r % 6 ≠ 0 then some (r - 1) else none
  | 4 => if r % 6 ≠ 5 then some (r + 1) else none
  | _ => none

/-- The default entry of a router for a destination: along the row to its column, then along the column; 0 leaves the mesh
here (R335). -/
def defaultPort (r d : Nat) : Nat :=
  let t := destRouter d
  if r % 6 < t % 6 then 4 else if t % 6 < r % 6 then 3 else if r / 6 < t / 6 then 2 else if t / 6 < r / 6 then 1 else 0

/-- The entry of a router's table (R335), by physical site number and destination. -/
def routeEntry (s : State) (psn d : Nat) : Nat :=
  sget (fun k => defaultPort (k / 44 % 36) (k % 44)) s.net.routeTable (psn * 44 + d)

/-- The routers from a site to a destination of its die, as the tables send a packet; at most 15 hops. -/
def meshWalk (s : State) (d : Nat) : Nat → Nat → List Nat
  | 0, psn => [psn]
  | n + 1, psn =>
    match behind (psn % 36) (routeEntry s psn d) with
    | none => [psn]
    | some r => psn :: meshWalk s d n (36 * (psn / 36) + r)

/-- The elevator of a site for a slot (R334): the next usable one of its half taken cyclically, else of the other half. -/
def elevatorOf (s : State) (psn slot : Nat) : Nat :=
  let h := psn % 36 / 18
  let order := ((List.range 4).map fun i => 4 * h + (slot + i) % 4) ++ ((List.range 4).map fun i => 4 * (1 - h) + (slot + i) % 4)
  (order.find? fun e => decide (s.obj 0x4010 3 (8 * (psn / 36) + e) = 0)).getD (4 * h)

/-- The routers of a die between a site and the elevator of a slot, which packets of both directions take (R334, R335). -/
def meshPath (s : State) (psn slot : Nat) : List Nat := meshWalk s (36 + elevatorOf s psn slot) 15 psn

/-- The routers that a set of failed ones leaves on a shortest way to a goal, each with its port there: `n` rounds from what is
reached (R359). -/
def avoidTable (bad : List Nat) : Nat → List (Nat × Nat) → List (Nat × Nat)
  | 0, reached => reached
  | n + 1, reached =>
    avoidTable bad n (reached ++ (List.range 36).filterMap fun r =>
      if bad.contains r ∨ (reached.any fun p => p.1 = r) then none
      else (([4, 3, 2, 1] : List Nat).find? fun port => match behind r port with
        | some q => reached.any fun p => p.1 = q
        | none => false).map fun port => (r, port))

/-- Loads the tables of a die so that its routes avoid the failed routers (R359). DESIGN CHOICE (log entry 21): the routes are
shortest ones, along the row first; the spec bounds their length and does not give them. -/
def avoidRouters (s : State) (die : Nat) (bad : List Nat) : State :=
  { s with net := { s.net with routeTable := (List.range 44).foldl (fun t d =>
      (avoidTable bad 36 [(destRouter d, 0)]).foldl (fun t p =>
        sset (fun k => defaultPort (k / 44 % 36) (k % 44)) t ((36 * die + p.1) * 44 + d) p.2) t) s.net.routeTable } }

/-! ## Between base dies (R18, R336) -/

/-- The neighbour through which a diagonal pair sends a slot (R336). -/
def viaDie (s : State) (x y slot : Nat) : Nat :=
  let entry := if min x y = 0 then 0 else 1
  let low := if entry = 0 then 1 else 0
  let high := if entry = 0 then 2 else 3
  if bit (s.obj 0x4060 5 entry) slot then high else low

/-- The link directions that a slot crosses from one base die to another. -/
def route (s : State) (x y slot : Nat) : List Nat :=
  if x = y then []
  else if adjacent x y then [linkDir x y]
  else [linkDir x (viaDie s x y slot), linkDir (viaDie s x y slot) y]

/-- The bundle of a link direction that carries a slot (R336). -/
def slotBundle (s : State) (dir slot : Nat) : Nat := sget (fun k => k % 64 % 12) s.net.slotTable (dir * 64 + slot)

/-- The Chive units on a packet's route from a core site to a base die: the routers of its die, then the crossbars (R336,
R343). -/
def unitPath (s : State) (psn dst slot : Nat) : List Nat :=
  let src := baseOf psn
  let dies := if src = dst then [src] else if adjacent src dst then [src, dst] else [src, viaDie s src dst slot, dst]
  ((meshPath s psn slot).map fun r => 0x150 + r) ++ dies.map fun d => 0x270 + d

/-- The crossbars' Chive units from one base die to another. -/
def dieUnits (s : State) (src dst slot : Nat) : List Nat :=
  (if src = dst then [src] else if adjacent src dst then [src, dst] else [src, viaDie s src dst slot, dst]).map fun d => 0x270 + d

/-! ## Packets (R331) -/

/-- A packet header, 16 B. -/
def packetHeader (code : BitVec 8) (len src dst seq vc : Nat) (marks : Marks) (line tag aux : Nat) : Nat :=
  code.toNat + len % 64 * 2 ^ 8 + src % 1024 * 2 ^ 16 + dst % 1024 * 2 ^ 26 + seq % 65536 * 2 ^ 36 + vc % 8 * 2 ^ 52 +
    marks.toNat * 2 ^ 56 + line % 2 ^ 31 * 2 ^ 64 + tag % 65536 * 2 ^ 96 + aux % 65536 * 2 ^ 112

/-- The LINE field of a line: address bits [39:9], or the routing value of a host-memory line (R331, R333). -/
def lineField (l : Line) : Nat := if l.host then slotOf l else l.no % 2 ^ 31

/-- A packet of a slot: the header and the units after it. -/
def mkPacket (slot vc units header rest : Nat) : LinkPacket := ⟨slot, vc, units, header + rest * 2 ^ 128⟩

/-! ## Flits -/

/-- The first 252 bytes of a flit (R350). -/
def flitBytes (f : Flit) : Nat :=
  f.seqKind.toNat + f.ack.toNat * 2 ^ 16 + f.vc.toNat * 2 ^ 32 + f.zero.toNat * 2 ^ 40 + f.start.toNat * 2 ^ 48 +
    f.creditA.toNat * 2 ^ 64 + f.creditB.toNat * 2 ^ 80 + f.body.toNat * 2 ^ 96

/-- Whether a flit's CRC is good. -/
def flitGood (f : Flit) : Bool := decide (f.crc.toNat = crc32 (flitBytes f) 252)

/-- A flit with the CRC of its contents. -/
def flitSealed (f : Flit) : Flit := { f with crc := BitVec.ofNat 32 (crc32 (flitBytes f) 252) }

/-- SEQ. -/
def flitSeq (f : Flit) : Nat := bits f.seqKind.toNat 0 12
/-- KIND: 0 DATA, 1 IDLE, 2 TRAIN. -/
def flitKind (f : Flit) : Nat := bits f.seqKind.toNat 12 4

/-- The units of a flit that belong to packets, when `left` units of the packet that goes on are still to come: those to come
after the flit, and the number of units (R331, R350). -/
def flitUnits (f : Flit) (left : Nat) : Nat × Nat :=
  (List.range 15).foldl (fun a u =>
    let l := if f.start.getLsbD u then 1 + bits f.body.toNat (128 * u + 8) 6 else a.1
    if l = 0 then a else (l - 1, a.2 + 1)) (left, 0)

/-! ## The state of a link direction -/

/-- The key of a link direction: bundles 0 to 95, then ports. -/
def linkKey (l : LinkId) : Nat :=
  match l with
  | .bundle b => b.val
  | .port p => 96 + p.val

/-- The link layer state of a direction. -/
def linkOf (s : State) (k : Nat) : LinkDir := sget (fun _ => LinkDir.fresh) s.net.links k

/-- Sets it. -/
def setLink (s : State) (k : Nat) (d : LinkDir) : State :=
  { s with net := { s.net with links := sset (fun _ => LinkDir.fresh) s.net.links k d } }

/-- The direction that is paired with one: the bundle of the same number in the other direction, the port itself (R351). -/
def pairedLink (k : Nat) : Nat := if k < 96 then 24 * (k / 24) + (k % 24 + 12) % 24 else k

/-- DATA flits of the retry buffer (R351, R369). -/
def retryDepth (k : Nat) : Nat := if k < 96 then 256 else 2048

/-- The receiver's buffer for a VC, in units of 16 B (R352, R369). -/
def linkBuffer (k vc : Nat) : Nat :=
  let l := if k < 96 then [148, 256, 512, 1024, 512, 64] else [2048, 4096, 8192, 16384, 8192, 2048]
  l.getD vc 0

/-- Units of 16 B that one count of a CREDIT field stands for (R369). -/
def creditUnit (k : Nat) : Nat := if k < 96 then 1 else 16

/-- Whether the sender holds credit for a packet (R337, R352). -/
def hasCredit (k : Nat) (d : LinkDir) (p : LinkPacket) : Bool :=
  let u := creditUnit k
  let cum := u * sget (fun _ => 0) d.credits p.vc
  let sent := sget (fun _ => 0) d.sent p.vc
  decide ((sent + u * 4096 - cum % (u * 4096)) % (u * 4096) + p.units ≤ linkBuffer k p.vc)

/-- The ACK field that a direction's flits carry: the last SEQ accepted in the other direction, valid (R350, R351). -/
def ackField (s : State) (k : Nat) : Nat := ((linkOf s (pairedLink k)).expect + 4095) % 4096 + 4096

/-- A CREDIT field of a direction's flits: the units, or whole blocks, of a virtual channel that the other direction's receiver
has freed (R350, R352, R369). -/
def creditField (s : State) (k vc : Nat) : BitVec 16 :=
  BitVec.ofNat 16 (vc % 6 + 8 + 16 * (sget (fun _ => 0) (linkOf s (pairedLink k)).freed (vc % 6) / creditUnit k % 4096))

/-- The flits of a packet: each carries 15 units, the first marks the header; units after the packet's last hold zeros
(R350). The two virtual channels whose credits a flit reports go with its SEQ (DESIGN CHOICE, log entry 21). -/
def packetFlits (s : State) (k : Nat) : Nat → Nat → LinkPacket → Nat → List (Nat × Flit)
  | 0, _, _, _ => []
  | n + 1, i, p, seq =>
    let f : Flit :=
      { seqKind := BitVec.ofNat 16 ((seq + i) % 4096)
        ack := BitVec.ofNat 16 (ackField s k)
        vc := BitVec.ofNat 8 p.vc
        zero := 0
        start := if i = 0 then 1 else 0
        creditA := creditField s k (2 * (seq + i))
        creditB := creditField s k (2 * (seq + i) + 1)
        body := BitVec.ofNat 1920 (bits p.body (1920 * i) 1920)
        crc := 0 }
    (p.slot, flitSealed f) :: packetFlits s k n (i + 1) p seq

/-! ## The service of virtual channels (R337) -/

/-- The weighted round robin of VC1 to VC5. -/
def robin : List Nat := [1, 1, 2, 2, 2, 2, 3, 3, 3, 3, 4, 4, 5]

/-- Whether the first waiting packet of a virtual channel may go: the retry buffer and its credit have room (R351, R352). -/
def vcReady (k : Nat) (d : LinkDir) (vc : Nat) : Bool :=
  match d.wait.find? fun p => p.vc = vc with
  | some p => decide (d.unacked.length + (p.units + 14) / 15 ≤ retryDepth k) && hasCredit k d p
  | none => false

/-- The virtual channel that is granted next, with the state of the service after the grant: VC0 first, unless another packet
waits and VC0 has had the last 7 grants; the others by weighted round robin. -/
def nextVc (k : Nat) (d : LinkDir) : Option (Nat × Nat × Nat) :=
  let others := ([1, 2, 3, 4, 5] : List Nat).any (vcReady k d)
  if vcReady k d 0 && (decide (d.run0 < 7) || !others) then some (0, d.run0 + 1, d.turn)
  else
    ((List.range 13).map fun i => (d.turn + i) % 13).findSome? fun i =>
      if vcReady k d (robin.getD i 1) then some (robin.getD i 1, 0, (i + 1) % 13) else none

/-- Whether a direction sends DATA flits: a paused or retired bundle sends none (R354, R355). -/
def linkSends (s : State) (k : Nat) : Bool := decide (96 ≤ k) || decide (s.obj 0x4060 1 k ≤ 1)

/-- Sends the packet of a direction that is granted next. -/
def sendNext (s : State) (k : Nat) : Option State :=
  let d := linkOf s k
  match nextVc k d with
  | none => none
  | some (vc, run0, turn) =>
    match takeFirst (fun p : LinkPacket => decide (p.vc = vc)) d.wait with
    | none => none
    | some (p, rest) =>
      let n := (p.units + 14) / 15
      some (setLink s k { d with
        next := (d.next + n) % 4096
        unacked := d.unacked ++ packetFlits s k n 0 p d.next
        sent := sset (fun _ => 0) d.sent p.vc (sget (fun _ => 0) d.sent p.vc + p.units)
        wait := rest
        run0 := run0
        turn := turn })

/-- Sends what a direction may send. -/
def drainLink (k : Nat) : Nat → State → State
  | 0, s => s
  | n + 1, s =>
    if linkSends s k then
      match sendNext s k with
      | none => s
      | some s => drainLink k n s
    else s

/-- A packet crosses a link direction. -/
def crossLink (s : State) (k : Nat) (p : LinkPacket) : State :=
  let d := linkOf s k
  let d := { d with wait := d.wait ++ [p] }
  drainLink k d.wait.length (setLink s k d)

/-- The diagonal pair of two base dies: 0 for BD0 and BD3, 1 for BD1 and BD2 (R336). -/
def diagonalPair (x y : Nat) : Nat := if min x y = 0 then 0 else 1

/-- A packet between two base dies crosses the ring links of its route (R18, R336); while its slot of a diagonal pair drains,
the base die holds it (R356). -/
def crossDies (s : State) (x y : Nat) (p : LinkPacket) : State :=
  if x ≠ y ∧ adjacent x y = false ∧ s.net.drainSlots.contains (diagonalPair x y, p.slot) then
    { s with net := { s.net with drainHold := s.net.drainHold ++ [⟨diagonalPair x y, x, y, p⟩] } }
  else (route s x y p.slot).foldl (fun s dir => crossLink s (12 * dir + slotBundle s dir p.slot) p) s

/-- A packet between two agents crosses the ring links between their base dies. -/
def crossRing (s : State) (src dst : Nat) (p : LinkPacket) : State := crossDies s (baseOf src) (baseOf dst) p

end Sys2Proof.Machine
end

