-- ==== Sys2Proof/Machine/MemSys.lean ====
section
/-!
DEFINITION. Memory below the caches: addresses and channels (R286, R287, R298), the controllers with their queues and slots
(R292, R293), what they store for a line and a code page (R301 to R305, R308 to R317), homes (R252, R253) and the stored value
of a line.
-/
namespace Sys2Proof.Machine

/-! ## Addresses -/

/-- Lines in device memory: 1 TiB of 512 B lines (R286). -/
def deviceLines : Nat := 2 ^ 31

/-- The key of a line in the cache tables. -/
def lineKey (l : Line) : Nat := 2 * l.no + b2n l.host

/-- The XOR fold of `n` groups of two bits (R252, R253). -/
def foldTwo : Nat → Nat → Nat
  | 0, _ => 0
  | n + 1, f => (f % 4) ^^^ foldTwo n (f / 4)

/-- The home slice of a device-physical address (R252). -/
def homeOfPa (pa : Nat) : Nat := foldTwo 12 (pa / 2 ^ 16 % 2 ^ 24)

/-- The home slice of a line: the fold over PA[39:16], or over bits [63:16] of the bus address (R252, R253). -/
def homeSlice (l : Line) : Nat := foldTwo (if l.host then 24 else 12) (l.no / 128)

/-- Whether the home or the line's tier is the fast tier (R19). -/
def fastLine (no : Nat) : Bool := decide (no < 0x4000000000 / 512)

/-- The memory channel of a device line (R287): fast channels 0 to 127, slow channels 128 to 223. -/
def channelOf (no : Nat) : Nat :=
  let a := no * 512
  if fastLine no then 16 * (a / 2 ^ 35) + a % 2 ^ 35 / 2 ^ 16 % 16
  else
    let o := a - 0x4000000000
    128 + 24 * (o / (192 * 2 ^ 30)) + o % (192 * 2 ^ 30) / 2048 % 24

/-- The tier of a device line: 0 fast, 1 slow. -/
def tierOf (no : Nat) : Nat := if fastLine no then 0 else 1

/-- The channels of a slow-tier region other than one of them, in order. -/
def otherChannels (ch : Nat) : List Nat := ((List.range 24).map fun k => ch / 24 * 24 + k).filter fun k => k ≠ ch

/-- The channel on which a device line lies now: code pages of a remapped slow-tier channel lie, in order, on the region's
other channels, each taking one in turn (R298). -/
def chanOf (s : State) (no : Nat) : Nat :=
  let ch := channelOf no
  if fastLine no || sget (fun _ => 0) s.mem.remap (ch - 128) = 0 then ch
  else
    let page := (no * 512 - 0x4000000000) % (192 * 2 ^ 30) / 2048 / 24
    128 + (otherChannels (ch - 128)).getD (page % 23) 0

/-- The slot of its channel in which a code page lies: its own, a spare one after a retirement, or the spare one that a
remapped channel's code page took (R298, R323). -/
def slotOfPage (s : State) (page : Nat) : Nat :=
  let no := 4 * page
  let own := if fastLine no then page % 2 ^ 24 / 32 / 16 * 32 + page % 32
    else (no * 512 - 0x4000000000) % (192 * 2 ^ 30) / 2048 / 24
  match sget (fun _ => 0) s.mem.spare page with
  | 0 => if chanOf s no = channelOf no then own else sget (fun _ => 0) s.mem.spare (2 ^ 40 + chanOf s no) + own / 23
  | n + 1 => n

/-! ## Controllers (R292, R293) -/

/-- The queue of a controller by number: LC, RD, WR, MT (R292). -/
def Ctrl.queue (c : Ctrl) (q : Nat) : List CtrlOp :=
  match q with
  | 0 => c.lc
  | 1 => c.rd
  | 2 => c.wr
  | _ => c.mt

/-- A controller with an operation put into a queue. -/
def Ctrl.put (c : Ctrl) (q : Nat) (o : CtrlOp) : Ctrl :=
  match q with
  | 0 => { c with lc := c.lc ++ [o] }
  | 1 => { c with rd := c.rd ++ [o] }
  | 2 => { c with wr := c.wr ++ [o] }
  | _ => { c with mt := c.mt ++ [o] }

/-- The slots of a channel's controller (R292). -/
def slotsOf (ch : Nat) : Nat := if ch < 128 then 64 else 32

/-- The queue that rule 1 of R293 picks: the first non-empty one with fewer than 8 of the last 64 grants. -/
def guardPick (c : Ctrl) : Option Nat :=
  [0, 1, 2, 3].find? fun q => !(c.queue q).isEmpty && decide ((c.last.filter fun x => x = q).length < 8)

/-- The queue that R293 grants a slot to. -/
def grantPick (c : Ctrl) (slots : Nat) : Option Nat :=
  match guardPick c with
  | some q => some q
  | none =>
    if !c.lc.isEmpty then some 0
    else if decide (slots ≤ c.wr.length) then some 2
    else if !c.rd.isEmpty then some 1
    else if !c.wr.isEmpty then some 2
    else if !c.mt.isEmpty then some 3
    else none

/-- The controller of a channel. -/
def ctrlOf (s : State) (ch : Nat) : Ctrl := sget (fun _ => Ctrl.idle) s.mem.ctrl ch

/-- Sets the controller of a channel. -/
def setCtrl (s : State) (ch : Nat) (c : Ctrl) : State :=
  { s with mem := { s.mem with ctrl := sset (fun _ => Ctrl.idle) s.mem.ctrl ch c } }

/-- The tier of a channel. -/
def chanTier (ch : Nat) : Nat := if ch < 128 then 0 else 1

/-- Counts a grant: LC grants and grants under rule 1, per tier (R293, R328). -/
def countGrant (s : State) (ch q : Nat) (byGuard : Bool) : State :=
  let s := if q = 0 then s.bump 0x3080 4 (chanTier ch) 1 else s
  if byGuard then s.bump 0x3080 5 (chanTier ch) 1 else s

/-- The base die of a channel's controller (R14, R287). -/
def chanDie (ch : Nat) : Nat := if ch < 128 then ch / 32 else (ch - 128) / 24

/-- A request or a line crosses the ring between the home of a slice and the controller of a line, where they sit on different
base dies (R23): `units` after the header. -/
def crossCtrl (s : State) (slice no : Nat) (toCtrl : Bool) (vc units : Nat) : State :=
  let h := agentHome slice
  let c := agentCtrl (chanDie (chanOf s no)) (tierOf no)
  let src := if toCtrl then h else c
  let dst := if toCtrl then c else h
  crossRing s src dst (mkPacket (slotOf ⟨no, false⟩) vc (1 + units)
    (packetHeader (Config.msgCode 21) units src dst 0 vc 0 (lineField ⟨no, false⟩) 0 0) 0)

/-- An operation of a line, as it arrives. -/
def lineOp (s : State) (kind : OpKind) (no : Nat) (data : LineData) (marks : Marks) (lat : Bool) : CtrlOp :=
  ⟨kind, no, s.stamp, data, marks, lat, 0, 1⟩

/-- Adds an operation to a queue of the controller of its line (R292): 0 LC, 1 RD, 2 WR, 3 MT. -/
def enqueue (s : State) (q : Nat) (o : CtrlOp) : State :=
  let ch := chanOf s o.line
  (setCtrl s ch ((ctrlOf s ch).put q o)).tickStamp

/-- An operation passes a controller's queue and slot within a step (log entry 13): its grant counts (R293). -/
def passGrant (s : State) (ch q : Nat) : State :=
  let c := ctrlOf s ch
  countGrant (setCtrl s ch { c with last := (q :: c.last).take 64 }) ch q (decide ((c.last.filter fun x => x = q).length < 8))

/-- A home's read that passes a controller in the step of the access that makes it (log entry 13). -/
def passRead (s : State) (slice no : Nat) (lat : Bool) : State :=
  let s := passGrant s (chanOf s no) (if lat then 0 else 1)
  crossCtrl (crossCtrl s slice no true (if lat then 0 else 1) 0) slice no false (if lat then 0 else 3) 32

/-- A home's read of a line joins a controller's queue: LC or RD (R292). -/
def queueRead (s : State) (slice no : Nat) (lat : Bool) : State :=
  crossCtrl (enqueue s (if lat then 0 else 1) (lineOp s .read no 0 0 lat)) slice no true (if lat then 0 else 1) 0

/-- The write or mark-only update of a line that waits last at its controller. -/
def pendingOp (s : State) (no : Nat) : Option CtrlOp :=
  let c := ctrlOf s (chanOf s no)
  ((c.active ++ c.wr).filter fun o => (o.kind == .write || o.kind == .mark) && decide (o.line = no)).getLast?

/-- The write of a line that waits last at its controller. -/
def pendingWrite (s : State) (no : Nat) : Option CtrlOp :=
  let c := ctrlOf s (chanOf s no)
  ((c.active ++ c.wr).filter fun o => o.kind == .write && decide (o.line = no)).getLast?

/-- The writes and mark-only updates of a line that wait at its controller leave it, where a later operation on the line
overtakes what they would store (R306). -/
def dropWaiting (s : State) (no : Nat) : State :=
  let ch := chanOf s no
  let c := ctrlOf s ch
  let keep (o : CtrlOp) : Bool := !((o.kind == .write || o.kind == .mark) && decide (o.line = no))
  setCtrl s ch { c with
    wr := c.wr.filter keep
    active := c.active.filter keep }

/-! ## Stored lines -/

/-- Whether a line lies on a channel that is lost or retired (R297 to R300), as 4050h:05h shows. -/
def pageLost (s : State) (no : Nat) : Bool := decide (2 ≤ s.obj 0x4050 5 (chanOf s no))

/-- A sector's stored mark: set explicitly, or a sector of a remapped slow channel that nothing has written since (R298,
R299). -/
def sectorMark (s : State) (no i : Nat) : Bool :=
  sget (fun _ => false) s.mem.poison (4 * no + i) ||
    (sget (fun _ => 0) s.mem.remap (channelOf no - 128) = 1 && !fastLine no && !sget (fun _ => false) s.mem.clean (4 * no + i))

/-- The four sector marks of a line as they are stored. -/
def memMarks (s : State) (no : Nat) : Marks :=
  BitVec.ofNat 4 (b2n (sectorMark s no 0) + 2 * b2n (sectorMark s no 1) + 4 * b2n (sectorMark s no 2) +
    8 * b2n (sectorMark s no 3))

/-- The data of a line as it is stored. -/
def memData (s : State) (no : Nat) : LineData := BitVec.ofNat 4096 (memRead s.mem.dev (512 * no) 512)

/-- The discard mark of a line as its controller holds it, the operations that wait counted (R241, R301). -/
def memDiscard (s : State) (no : Nat) : Bool :=
  match pendingOp s no with
  | some o => o.kind == .mark
  | none => sget (fun _ => false) s.mem.discard no

/-- A line as a controller returns it (R306): the write that waits for it, or what is stored; a lost channel's reads carry every
mark (R298 to R300). -/
def ctrlRead (s : State) (no : Nat) : LineData × Marks :=
  if pageLost s no then (Config.lostLine no, 15)
  else match pendingWrite s no with
    | some o => (o.data, o.marks)
    | none => (memData s no, memMarks s no)

/-- Sets the marks of a line in memory. -/
def setMarks (s : State) (no : Nat) (m : Marks) : State :=
  let put (p : Sparse Bool) (i : Nat) : Sparse Bool := sset (fun _ => false) p (4 * no + i) (m.getLsbD i)
  let put1 (p : Sparse Bool) (i : Nat) : Sparse Bool := sset (fun _ => false) p (4 * no + i) true
  { s with mem := { s.mem with
      poison := put (put (put (put s.mem.poison 0) 1) 2) 3
      clean := if sget (fun _ => 0) s.mem.remap (channelOf no - 128) = 1 ∧ fastLine no = false then
        put1 (put1 (put1 (put1 s.mem.clean 0) 1) 2) 3 else s.mem.clean } }

/-- A controller writes a line, its marks, and clears its discard bit (R305); a write to a lost channel is dropped and
counted (R298, R300). -/
def ctrlWrite (s : State) (no : Nat) (d : LineData) (m : Marks) : State :=
  if pageLost s no then
    s.bump 0x3080 6 0 1
  else
    let s := setMarks s no m
    { s with mem := { s.mem with
        dev := memWrite s.mem.dev (512 * no) 512 d.toNat
        discard := sset (fun _ => false) s.mem.discard no false } }

/-- Sets a line's discard mark in memory (R241). -/
def setDiscard (s : State) (no : Nat) : State :=
  { s with mem := { s.mem with discard := sset (fun _ => false) s.mem.discard no true } }

/-! ## Replicated regions (R313 to R316) -/

/-- PRIMARY of replica entry `i`. -/
def repPrimary (s : State) (i : Nat) : Nat := bits (s.obj 0x2051 1 i) 0 64
/-- MIRROR. -/
def repMirror (s : State) (i : Nat) : Nat := bits (s.obj 0x2051 1 i) 64 64
/-- PAGES. -/
def repPages (s : State) (i : Nat) : Nat := bits (s.obj 0x2051 1 i) 128 32

/-- The replica entry whose primary range holds a line. -/
def replicaOf (s : State) (no : Nat) : Option Nat :=
  (List.range 64).find? fun i => decide (repPrimary s i ≤ 512 * no) && decide (512 * no < repPrimary s i + repPages s i * 65536)

/-- The mirror line of a primary line under an entry. -/
def mirrorLine (s : State) (i no : Nat) : Nat := (repMirror s i + (512 * no - repPrimary s i)) / 512

/-- A log record of a memory event (R304, R316): the address and, in DETAIL, the channel and the symbols corrected. -/
def memRecord (s : State) (cause no symbols : Nat) : State :=
  hwRecord s { LogRec.blank with
    severity := 1
    cause := cause
    address := no / 4 * 2048
    detail := chanOf s no + symbols * 2 ^ 32 }

/-! ## The metadata of a code page (R301 to R303, R305) -/

/-- The symbols that a tier's level in use corrects (R303). -/
def correctable (s : State) (tier : Nat) : Nat := 8 * 2 ^ (s.obj 0x2050 3 tier - 1)

/-- Metadata bytes 00h to 13h of a code page as they are stored: the CRC of each line, POISON, DISCARD. -/
def metaLow (s : State) (page : Nat) : Nat :=
  (List.range 4).foldl (fun a i =>
    let no := 4 * page + i
    a + (crc32 (memData s no).toNat 512 <<< (32 * i)) + ((memMarks s no).toNat <<< (128 + 4 * i)) +
      (b2n (sget (fun _ => false) s.mem.discard no) <<< (144 + i))) 0

/-- The data of a code page as it is stored. -/
def pageData (s : State) (page : Nat) : Nat := memRead s.mem.dev (2048 * page) 2048

/-- The 128 B of metadata of a code page (R301): the check bytes are the encoding of the data and metadata bytes 00h to 13h at
the level in use, which every write of a controller keeps (R305). -/
def pageMeta (s : State) (page : Nat) : BitVec 1024 :=
  let t := correctable s (tierOf (4 * page))
  let low := metaLow s page
  let msg := symbols (pageData s page + low * 2 ^ 16384) messageSymbols
  BitVec.ofNat 1024 (low + (fromSymbols (rsEncode t msg) <<< (8 * 0x20)))

/-- A code page and its metadata as the array returns them: what is stored, with the bits inverted that came back so (R304). -/
def arrayPage (s : State) (page : Nat) (e : ArrayErr) : Nat :=
  (pageData s page + (pageMeta s page).toNat * 2 ^ 16384) ^^^ e.flips.toNat

/-- Inverts bits of the stored data of a code page. -/
def flipData (s : State) (page flips : Nat) : State :=
  if bits flips 0 16384 = 0 then s
  else { s with mem := { s.mem with dev := memWrite s.mem.dev (2048 * page) 2048 (pageData s page ^^^ bits flips 0 16384) } }

/-! ## What homes do with memory (R304, R305, R315, R316) -/

/-- The copy that serves a marked primary line of an ACTIVE entry (R316). -/
def mirrorFor (s : State) (no : Nat) : Option Nat :=
  match replicaOf s no with
  | none => none
  | some i => if s.obj 0x2051 2 i = 2 then some (mirrorLine s i no) else none

/-- A home sends a line to its controller (R292). -/
def queueWrite (s : State) (slice no : Nat) (d : LineData) (m : Marks) : State :=
  crossCtrl (enqueue s 2 (lineOp s .write no d m false)) slice no true 3 32

/-- The home slice of a device line. -/
def sliceOfNo (no : Nat) : Nat := homeSlice ⟨no, false⟩

/-- A home serves a marked primary line from its clean mirror (R316): it rewrites the primary unless its channel is lost, counts
and logs. -/
def rewritePrimary (s : State) (no : Nat) (d : LineData) : State :=
  let s := if pageLost s no then s else queueWrite s (sliceOfNo no) no d 0
  memRecord (s.bump 0x3080 3 0 1) 0x5E no 0

/-- A home's fill from memory in the step of the access that needs it (R304, R316; log entry 13). -/
def homeFill (s : State) (no : Nat) (lat : Bool) : (LineData × Marks) × State :=
  let r := ctrlRead s no
  let s := passRead s (sliceOfNo no) no lat
  if r.2 = 0 then (r, s)
  else
    match mirrorFor s no with
    | none => (r, s)
    | some x =>
      let m := ctrlRead s x
      let s := passRead s (sliceOfNo no) x lat
      if m.2 = 0 then (m, rewritePrimary s no m.1) else (r, s)

/-- A home writes a line to memory: to both copies of a replicated primary line (R315). -/
def homeWrite (s : State) (no : Nat) (d : LineData) (m : Marks) : State :=
  let s := queueWrite s (sliceOfNo no) no d m
  match replicaOf s no with
  | none => s
  | some i => queueWrite s (sliceOfNo no) (mirrorLine s i no) d m

/-- A home sends the discard mark of a line to its controller (R241). -/
def queueMark (s : State) (no : Nat) : State :=
  crossCtrl (enqueue s 2 (lineOp s .mark no 0 0 false)) (sliceOfNo no) no true 3 0

/-! ## Host memory lines -/

/-- A line of host memory; its marks are those of a failed or poisoned read (R312, R392). -/
def hostLine (s : State) (no : Nat) : LineData × Marks :=
  (BitVec.ofNat 4096 (memRead s.mem.host (512 * no) 512),
    if sget (fun _ => false) s.mem.hostBad no then 15 else 0)

/-! ## The current value of a line -/

/-- A line of a home partition. -/
def homeLine (s : State) (l : Line) : HomeLine := sget (fun _ => HomeLine.none) s.coh.home (lineKey l)

/-- Sets a line of a home partition. -/
def setHome (s : State) (l : Line) (h : HomeLine) : State :=
  { s with coh := { s.coh with home := sset (fun _ => HomeLine.none) s.coh.home (lineKey l) h } }

/-- A line of the near partition of a slice. -/
def nearLine (s : State) (sl : Nat) (l : Line) : NearLine :=
  sget (fun _ => NearLine.none) s.coh.near (4 * lineKey l + sl)

/-- Sets a line of a near partition. -/
def setNear (s : State) (sl : Nat) (l : Line) (n : NearLine) : State :=
  { s with coh := { s.coh with near := sset (fun _ => NearLine.none) s.coh.near (4 * lineKey l + sl) n } }

/-- The near partition that owns a line in state O: its bit in PRESENCE (R256, R257). -/
def ownerOf (h : HomeLine) : Nat :=
  if h.presence.getLsbD 0 then 0 else if h.presence.getLsbD 1 then 1 else if h.presence.getLsbD 2 then 2 else 3

/-- The GRANT in flight for a line. -/
def grantInFlight (s : State) (l : Line) : Option Flight := s.coh.net.find? fun f => f.kind == .grant && f.msg.line == l

/-- The data of a line that a near partition owns: that of the GRANT which brings it while it has not arrived. -/
def ownerLine (s : State) (l : Line) : LineData × Marks :=
  let n := nearLine s (ownerOf (homeLine s l)) l
  match grantInFlight s l with
  | some f => (f.msg.data, f.msg.marks)
  | none => (n.data, n.marks)

/-- The value of a line as its coherence order stands: the owner's data, the home's, or memory's. -/
def peekLine (s : State) (l : Line) : LineData × Marks :=
  let h := homeLine s l
  if h.st = 3 then ownerLine s l
  else if h.st = 0 then (if l.host then hostLine s l.no else ctrlRead s l.no)
  else (h.data, h.marks)

/-! ## Lines of a range -/

/-- The parts of `n` bytes from an address, one per line: address and bytes. -/
def chunks : Nat → Nat → Nat → List (Nat × Nat)
  | 0, _, _ => []
  | f + 1, a, n =>
    if n = 0 then []
    else
      let k := min n (512 - a % 512)
      (a, k) :: chunks f (a + k) (n - k)

/-- The parts of a range. -/
def lineParts (a n : Nat) : List (Nat × Nat) := chunks (n / 512 + 2) a n

end Sys2Proof.Machine
end

