-- ==== Sys2Proof/Machine/Message.lean ====
section
/-!
DEFINITION. Coherence messages: their virtual channels, their packets, the end-to-end retry of their senders and destinations,
and messages in flight (R259, R260, R271, R331, R340, R341).
-/
namespace Sys2Proof.Machine

/-! ## Virtual channels and packets -/

/-- The virtual channel of a message (R259): VC0 for requests of class-0 steps and the responses to them; a line with its data
may travel on VC2 or VC3, which keep no order between them, so it is ordered with nothing else here. -/
def vcOf (kind : MsgKind) (cls0 : Bool) : Nat :=
  if cls0 then 0
  else match kind with
    | .rd | .rdo | .atom | .pres => 1
    | .wr | .dwn | .wb | .ownData => 3
    | .data | .grant => 4
    | _ => 2

/-- The virtual channel that a message takes over a link: DATA and GRANT travel on VC3 (DESIGN CHOICE, log entry 21; R259
gives VC2 or VC3). -/
def linkVc (kind : MsgKind) (cls0 : Bool) : Nat := if vcOf kind cls0 = 4 then 3 else vcOf kind cls0

/-- The place of a message in the table of R259. -/
def kindNo (k : MsgKind) : Nat :=
  match k with
  | .rd => 0 | .rdo => 1 | .wr => 2 | .atom => 3 | .pres => 4 | .dwn => 5 | .wb => 6 | .inv => 7 | .fwdRd => 8 | .fwdOwn => 9
  | .recall => 10 | .data => 11 | .grant => 12 | .ack => 13 | .invAck => 14 | .presAck => 15 | .wbAck => 16 | .ownData => 17
  | .ownDone => 18 | .retry => 19

/-- The units after the header: a line's data, a write's mask, and a unit for each operation of an atomic (R331; log entry
21). -/
def bodyUnits (kind : MsgKind) (m : Msg) : Nat :=
  match kind with
  | .wr => 36
  | .dwn | .wb | .data | .grant | .ownData => 32
  | .atom | .ack => min 36 m.ops.length
  | _ => 0

/-- The units after the header as a number: the line and the mask, or units that the spec gives no layout. -/
def bodyOf (s : State) (kind : MsgKind) (m : Msg) : Nat :=
  match kind with
  | .wr => m.data.toNat + m.mask.toNat * 2 ^ 4096
  | .dwn | .wb | .data | .grant | .ownData => m.data.toNat
  | .atom | .ack => bits (Config.unitBody s.free).toNat 0 (128 * min 36 m.ops.length)
  | _ => 0

/-- The packet of a message (R331). -/
def packetOf (s : State) (kind : MsgKind) (m : Msg) : LinkPacket :=
  let vc := linkVc kind m.cls0
  mkPacket (slotOf m.line) vc (1 + bodyUnits kind m)
    (packetHeader (Config.msgCode (kindNo kind)) (bodyUnits kind m) m.src m.dst m.seq vc m.marks (lineField m.line) m.fn.val 0)
    (bodyOf s kind m)

/-! ## End-to-end retry (R340, R341) -/

/-- The messages that their sender keeps until they are answered (R340). -/
def isAnswered (kind : MsgKind) : Bool :=
  kind == .rd || kind == .rdo || kind == .wr || kind == .atom || kind == .pres || kind == .dwn || kind == .wb || kind == .inv ||
    kind == .fwdRd || kind == .fwdOwn || kind == .recall

/-- The requests whose answer names their tag and final requester, since an owner may send it in the home's stead (R262). -/
def isKept (kind : MsgKind) : Bool := kind == .rd || kind == .rdo || kind == .wr || kind == .atom

/-- Whether a reply of a kind answers a message of another. -/
def replyTo (reply kind : MsgKind) : Bool :=
  match kind with
  | .rd => reply == .data || reply == .retry
  | .rdo => reply == .grant || reply == .retry
  | .wr | .atom => reply == .ack || reply == .retry
  | .pres => reply == .presAck
  | .dwn | .wb => reply == .wbAck
  | .inv => reply == .invAck
  | .fwdRd => reply == .ownData
  | .fwdOwn => reply == .ownDone
  | .recall => reply == .ownData
  | _ => false

/-- Whether a reply answers a message in a retry buffer. The answer to a request, which an owner may send in the home's stead,
names the request's tag and final requester; other answers repeat the number. -/
def answers (kind : MsgKind) (m : Msg) (e : E2e) : Bool :=
  decide (e.src = m.dst) && e.msg.line == m.line && replyTo kind e.kind &&
    (if isKept e.kind then decide (e.msg.tag = m.tag) && decide (e.msg.req = m.req) else decide (e.seq = m.seq))

/-- The messages of a sender to a destination that are not answered. -/
def unanswered (s : State) (src dst : Nat) : Nat :=
  (s.net.e2e.filter fun e => decide (e.src = src) && decide (e.dst = dst)).length +
    (s.net.redSent.filter fun r => !r.held && decide (r.packet.src = src) && decide (r.dst = dst)).length

/-- The last 64 replies that a destination keeps for a sender, with one more (R341). -/
def keepReply (r : E2eReply) (l : List E2eReply) : List E2eReply :=
  let mine (x : E2eReply) : Bool := decide (x.src = r.src) && decide (x.dst = r.dst)
  if (l.filter mine).length < 64 then l ++ [r]
  else match takeFirst mine l with
    | some (_, rest) => rest ++ [r]
    | none => l ++ [r]

/-- A message leaves its sender, over the ring links of its route (R18, R336). -/
def launch (s : State) (kind : MsgKind) (m : Msg) : State :=
  let s := crossRing s m.src m.dst (packetOf s kind m)
  { s with
    free := s.free + 1
    coh := { s.coh with net := s.coh.net ++ [⟨kind, m⟩] } }

/-- Keeps a message in its sender's end-to-end retry buffer under the next number to its destination, and sends it (R340). -/
def sendKept (s : State) (kind : MsgKind) (m : Msg) : State :=
  let k := m.src * 1024 + m.dst
  let seq := sget (fun _ => 0) s.net.e2eSeq k
  let m := { m with seq := seq }
  launch { s with net := { s.net with
      e2e := s.net.e2e ++ [⟨m.src, m.dst, seq, kind, m, 0, s.now⟩]
      e2eSeq := sset (fun _ => 0) s.net.e2eSeq k ((seq + 1) % 65536) } } kind m

/-- A message is sent: one that its sender keeps waits while 64 to its destination are unanswered (R340). -/
def post (s : State) (kind : MsgKind) (m : Msg) : State :=
  if isAnswered kind then
    if unanswered s m.src m.dst < 64 ∧ (s.net.e2eHold.all fun f => f.msg.src ≠ m.src ∨ f.msg.dst ≠ m.dst) then sendKept s kind m
    else { s with net := { s.net with e2eHold := s.net.e2eHold ++ [⟨kind, m⟩] } }
  else launch s kind m

/-- The replies that the destination of a packet keeps with its number (R341): its own, or the owner's in its stead. -/
def keepAsReply (s : State) (kind : MsgKind) (m : Msg) : State :=
  match s.net.e2e.find? fun e => answers kind m e with
  | none => s
  | some e => { s with net := { s.net with e2eDone := keepReply ⟨e.src, e.dst, e.seq, kind, m⟩ s.net.e2eDone } }

/-- A reply is kept and sent. -/
def postReply (s : State) (kind : MsgKind) (m : Msg) : State := post (keepAsReply s kind m) kind m

/-- Sends the first message that waited for a place in a sender's retry buffer (R340). -/
def releaseHeld (s : State) (src dst : Nat) : State :=
  if unanswered s src dst < 64 then
    match takeFirst (fun f : Flight => decide (f.msg.src = src) && decide (f.msg.dst = dst)) s.net.e2eHold with
    | none => s
    | some (f, rest) => sendKept { s with net := { s.net with e2eHold := rest } } f.kind f.msg
  else s

/-- A reply closes the message that it answers: it leaves the retry buffer, and one that waited for its place goes (R340). -/
def closeE2e (s : State) (kind : MsgKind) (m : Msg) : State :=
  match takeFirst (answers kind m) s.net.e2e with
  | none => s
  | some (e, rest) => releaseHeld { s with net := { s.net with e2e := rest } } e.src e.dst

/-- Whether a reply answers a message that waits for it: a reply to a packet that was sent twice is dropped (R341). -/
def awaited (s : State) (kind : MsgKind) (m : Msg) : Bool := s.net.e2e.any (answers kind m)

/-- The reply that a destination has kept for a packet (R341). -/
def keptReply (s : State) (kind : MsgKind) (m : Msg) : Option E2eReply :=
  s.net.e2eDone.find? fun r => decide (r.src = m.src) && decide (r.dst = m.dst) && decide (r.seq = m.seq) &&
    r.reply.line == m.line && replyTo r.kind kind

/-! ## Messages in flight -/

/-- What a port passes to a home in order for one line (R271); write-backs, downgrades and PRES leave through the same
port (DEDUCED, log entry 13). -/
def isRequest (kind : MsgKind) : Bool :=
  kind == .rd || kind == .rdo || kind == .wr || kind == .atom || kind == .dwn || kind == .wb || kind == .pres

/-- Whether an earlier message in flight must arrive first (R260, R271). -/
def mustPrecede (e f : Flight) : Bool :=
  e.msg.src == f.msg.src && e.msg.dst == f.msg.dst && e.msg.line == f.msg.line &&
    (vcOf e.kind e.msg.cls0 == vcOf f.kind f.msg.cls0 || (isRequest e.kind && isRequest f.kind))

/-- Takes a message out of flight, where it is there and nothing must arrive before it. -/
def takeFlight (f : Flight) : List Flight → Option (List Flight)
  | [] => none
  | e :: t => if e = f then some t else if mustPrecede e f then none else (takeFlight f t).map fun r => e :: r

/-- Whether a message is in flight. -/
def inFlight (s : State) (kind : MsgKind) (m : Msg) : Bool := s.coh.net.any fun f => decide (f = ⟨kind, m⟩)

/-- Whether a base die holds a message back while its slot drains (R356). -/
def heldBack (s : State) (kind : MsgKind) (m : Msg) : Bool :=
  s.net.drainHold.any fun h => decide (bits h.packet.body 0 128 = bits (packetOf s kind m).body 0 128)

/-- Whether a message may arrive now. -/
def mayArrive (s : State) (kind : MsgKind) (m : Msg) : Bool :=
  (takeFlight ⟨kind, m⟩ s.coh.net).isSome && !heldBack s kind m

/-- The state with a message taken out of flight. -/
def taken (s : State) (kind : MsgKind) (m : Msg) : State :=
  match takeFlight ⟨kind, m⟩ s.coh.net with
  | some net => { s with coh := { s.coh with net := net } }
  | none => s

/-- A message with nothing in it but its route, line, function and class. -/
def bareMsg (src dst req : Nat) (l : Line) (fn : Fn) (tclass : BitVec 3) (lat cls0 : Bool) (tag : Nat) : Msg :=
  { src := src
    dst := dst
    req := req
    line := l
    fn := fn
    tclass := tclass
    lat := lat
    data := 0
    mask := 0
    marks := 0
    kind := .and
    ops := []
    hint := 0
    tag := tag
    credited := false
    cls0 := cls0
    seq := 0
    fin := false }

/-- Whether messages other than requests are in flight about a line, or wait at a near partition that has accepted them: its
transactions have not settled everywhere. -/
def unsettled (s : State) (l : Line) : Bool :=
  (s.coh.net.any fun f => f.msg.line == l && !isKept f.kind) || s.coh.accepted.any fun f => f.msg.line == l

end Sys2Proof.Machine
end

