-- ==== Sys2Proof/Machine/Cache.lean ====
section
/-!
DEFINITION. The unified cache at its homes and near partitions (R213 to R226, R240 to R245, R251): sets, replacement,
invalidation, discard, request counters, and the reads, writes and atomics that an engine makes as one access in the
home's order (log entry 13).
-/
namespace Sys2Proof.Machine

/-! ## Geometry (R22, R223, R224) -/

/-- NEAR_WAYS. -/
def nearWays (s : State) : Nat := s.obj 0x2030 1 0

/-- The slice beneath the compute die of a logical core (R17). -/
def sliceOfCore (s : State) (c : Nat) : Nat := dieOfCore s c / 2

/-- The logical core that a site serves. -/
def coreOfSite (s : State) (psn : Nat) : Option Nat :=
  (List.range (coreTotal s.grade)).find? fun c => decide (siteOfCore s c = psn)

/-- The bank that holds a line at a slice, through replacements and folds (R223, R227, R228). -/
def bankOf (s : State) (sl no : Nat) : Nat := sget (fun k => k % 16) s.coh.bankMap (sl * 16 + no % 16)

/-- Whether two lines share a set of a slice. -/
def sameSet (s : State) (sl a b : Nat) : Bool :=
  decide (bankOf s sl a = bankOf s sl b) && decide (a / 16 % 2048 = b / 16 % 2048)

/-- The line of a cache key. -/
def keyLine (k : Nat) : Line := ⟨k / 2, k % 2 = 1⟩

/-- The home lines in the set of a line. -/
def homeSet (s : State) (l : Line) : List (Nat × HomeLine) :=
  s.coh.home.filter fun p => decide (p.2.st ≠ 0) && homeSlice (keyLine p.1) == homeSlice l &&
    sameSet s (homeSlice l) (p.1 / 2) l.no

/-- The lines of a near partition in the set of a line: those in S or M. -/
def nearSet (s : State) (sl : Nat) (l : Line) : List (Nat × NearLine) :=
  s.coh.near.filter fun p => (decide (p.2.st = 1) || decide (p.2.st = 2)) && p.1 % 4 == sl && sameSet s sl (p.1 / 8) l.no

/-- The entry of least use of a list. -/
def leastUsed {α : Type} (use : α → Nat) : List (Nat × α) → Option (Nat × α)
  | [] => none
  | p :: t =>
    match leastUsed use t with
    | none => some p
    | some q => if use q.2 < use p.2 then some q else some p

/-! ## Counters (R250, R251) -/

/-- Counts a unified-cache request: 0 HIT_NEAR, 1 HIT_HOME, 2 MISS, 3 DISCARD_READ (R251). -/
def countReq (s : State) (fn : Fn) (sl : Nat) (cls : BitVec 3) (kind : Nat) : State :=
  let k := ((fn.val * 4 + sl) * 8 + cls.toNat) * 4 + kind
  { s with coh := { s.coh with
      cacheCtr := sset (fun _ => 0) s.coh.cacheCtr k (satAdd 64 (sget (fun _ => 0) s.coh.cacheCtr k) 1) } }

/-- STRICT_DISCARD. -/
def strictDiscard (s : State) : Bool := decide (s.obj 0x2030 3 0 ≠ 0)

/-- Counts a read of a discarded line in its class (R242). -/
def countDiscard (s : State) (fn : Fn) (sl : Nat) (cls : BitVec 3) : State :=
  (countReq s fn sl cls 3).bump 0x3071 2 cls.toNat 1

/-! ## Copies elsewhere (R226, R256, R258) -/

/-- The places that a presence vector names. -/
def places (p : BitVec 292) : List Nat := (List.range 292).filter fun i => p.getLsbD i

/-- A presence vector with one bit changed. -/
def setBit (p : BitVec 292) (i : Nat) (b : Bool) : BitVec 292 :=
  if b then p ||| (1#292 <<< i) else p &&& ~~~(1#292 <<< i)

/-- A place drops its copy: a near partition, whose waiting requests will not keep the line, or a read-only cache, whose
miss register will not fill it (R256, R264). -/
def dropPlace (s : State) (l : Line) (bitNo : Nat) : State :=
  if bitNo < 4 then
    let s := setNear s bitNo l NearLine.none
    { s with coh := { s.coh with nearWait := s.coh.nearWait.map fun w =>
        if w.slice.val = bitNo ∧ w.msg.line = l ∧ w.kind = .rd then { w with drop := true } else w } }
  else
    match coreOfSite s (bitNo - 4) with
    | none => s
    | some c =>
      let k := s.core c
      s.setCore c { k with
        ro := sset (fun _ => RoLine.none) k.ro (lineKey l) RoLine.none
        miss := k.miss.map fun m => if m.line = l then { m with drop := true } else m }

/-- Every place drops its copy. -/
def dropPlaces (s : State) (l : Line) (p : BitVec 292) : State := (places p).foldl (fun s b => dropPlace s l b) s

/-- A line of a read-only cache; one never stored reads as use 0 and is absent (R216). -/
def roLine (k : Core) (l : Line) : Option RoLine :=
  let r := sget (fun _ => RoLine.none) k.ro (lineKey l)
  if r.use = 0 then none else some r

/-! ## Eviction and fills at the home (R225, R226, R241) -/

/-- Removes the pin references of a line from its functions' counts (R249). -/
def unpinCounts (s : State) (h : HomeLine) : State :=
  h.pins.foldl (fun s p =>
    let s := s.setObj 0x7040 1 p.1 (s.obj 0x7040 1 p.1 - p.2)
    if h.soft then s.setObj 0x7040 2 p.1 (s.obj 0x7040 2 p.1 - 1) else s) s

/-- A home evicts a line (R225, R226, R237, R241): copies elsewhere are invalidated and counted, a dirty owner's data is
recalled, dirty data is written to memory, a discarded line leaves its mark there, and a soft pin is lost. -/
def evictHome (s : State) (l : Line) : State :=
  let h := homeLine s l
  let now := peekLine s l
  let s := if h.st = 3 then s.bump 0x3072 4 (homeSlice l) 1 else s
  let s := dropPlaces (s.bump 0x3071 3 (homeSlice l) (places h.presence).length) l h.presence
  let s := if h.pins.isEmpty then s
    else (h.pins.foldl (fun s p => s.bump 0x7040 4 p.1 1) (unpinCounts s h))
  let s := if l.host then s else if h.discarded then queueMark s l.no
    else if h.st = 2 ∨ h.st = 3 then homeWrite s l.no now.1 now.2 else s
  setHome s l HomeLine.none

/-- Whether a home line may be evicted: it is not hard-pinned, and no transaction on it is open anywhere (R225, R226, R262,
R264). -/
def evictable (s : State) (p : Nat × HomeLine) : Bool :=
  (p.2.pins.isEmpty || p.2.soft) && p.2.busy.isNone && !unsettled s (keyLine p.1)

/-- The victim of a home set in the order of R225. -/
def homeVictim (s : State) (set : List (Nat × HomeLine)) : Option (Nat × HomeLine) :=
  let c := set.filter (evictable s)
  match c.filter fun p => p.2.discarded with
  | p :: _ => some p
  | [] =>
    match leastUsed HomeLine.use (c.filter fun p => p.2.pins.isEmpty) with
    | some p => some p
    | none => leastUsed HomeLine.use c

/-- Makes room for a line in its home set: victims leave until a way is free. -/
def makeRoom (l : Line) : Nat → State → State
  | 0, s => s
  | n + 1, s =>
    let set := homeSet s l
    if set.length < 16 - nearWays s then s
    else match homeVictim s set with
      | some p => makeRoom l n (evictHome s (keyLine p.1))
      | none => s

/-- Places a line in its home partition. -/
def insertHome (s : State) (l : Line) (h : HomeLine) : State :=
  let s := makeRoom l (homeSet s l).length s
  (setHome s l { h with use := s.stamp + 1 }).tickStamp

/-- Fills an absent line in the step of the access that needs it (R262, R292; log entry 13); its sector marks and its discard
mark come with it (R241). -/
def fillHome (s : State) (l : Line) (lat : Bool) : State :=
  if l.host then
    let r := hostLine s l.no
    insertHome s l { HomeLine.none with st := 1, data := r.1, marks := r.2 }
  else
    let r := homeFill s l.no lat
    insertHome r.2 l { HomeLine.none with st := 1, data := r.1.1, marks := r.1.2, discarded := memDiscard s l.no }

/-- Marks a home line used (R225). -/
def touchHome (s : State) (l : Line) : State :=
  (setHome s l { homeLine s l with use := s.stamp + 1 }).tickStamp

/-! ## Near partitions (R258, R265) -/

/-- Whether a near partition waits for the acknowledgement of a DWN or a WB of a line. -/
def backPending (s : State) (sl : Nat) (l : Line) : Bool :=
  s.net.e2e.any fun e => decide (e.src = agentNear sl) && e.msg.line == l && (e.kind == .dwn || e.kind == .wb)

/-- The victim of a near set in the order of R225: a line marked discarded, else the least recently used one. A line whose
PRES, DWN or WB is not acknowledged stays (R264, R265). -/
def nearVictim (s : State) (sl : Nat) (set : List (Nat × NearLine)) : Option (Nat × NearLine) :=
  let c := set.filter fun p => decide (p.2.pres = 0) && !backPending s sl (keyLine (p.1 / 4))
  match c.filter fun p => p.2.disc with
  | p :: _ => some p
  | [] => leastUsed NearLine.use c

/-- A near partition evicts a line: it drops it, or writes it back to its home from the write-back buffer when it is dirty
(R265). -/
def evictNear (s : State) (sl : Nat) (v : Line) : State :=
  let n := nearLine s sl v
  if n.st = 2 then
    let m := { bareMsg (agentNear sl) (agentHome (homeSlice v)) (agentNear sl) v 0 7 false false 0 with
      data := n.data
      mask := BitVec.allOnes 512
      marks := n.marks }
    post (setNear s sl v { n with st := 3 }) .wb m
  else setNear s sl v NearLine.none

/-- Makes room for a line in its near set. -/
def makeNearRoom (s : State) (sl : Nat) (l : Line) : State :=
  let set := nearSet s sl l
  if set.length < nearWays s then s
  else match nearVictim s sl set with
    | none => s
    | some p => evictNear s sl (keyLine (p.1 / 4))

/-- Places a line in a near partition. -/
def insertNear (s : State) (sl : Nat) (l : Line) (n : NearLine) : State :=
  let s := makeNearRoom s sl l
  (setNear s sl l { n with use := s.stamp + 1 }).tickStamp

/-! ## Writes to host memory (R253, R280, R312) -/

/-- The runs of set bits of a byte mask from bit `i`: offset and length. -/
def maskRuns (m : Nat) : Nat → Nat → Nat → List (Nat × Nat)
  | 0, i, len => if len = 0 then [] else [(i - len, len)]
  | n + 1, i, len =>
    if m.testBit i then maskRuns m n (i + 1) (len + 1)
    else if len = 0 then maskRuns m n (i + 1) 0
    else (i - len, len) :: maskRuns m n (i + 1) 0

/-- Sends a write of a line toward host memory: one TLP for each run of bytes, with EP set where the data carries a mark
(R253, R312), and with Relaxed Ordering where host software has enabled it and the write is not FINAL (R280). DESIGN CHOICE
(log entry 54): the attribute is set wherever it may be. -/
def hostForward (s : State) (fn : Fn) (no : Nat) (data : LineData) (mask : ByteMask) (marks : Marks) (fin : Bool) : State :=
  let relaxed := Config.relaxedOrdering fn.val && !fin
  let s := (maskRuns mask.toNat 512 0 0).foldl (fun s r => s.emit
    (.hostWrite fn (512 * no + r.1) r.2 (lineBytes data r.1 r.2) (touched (maskOf r.1 r.2) &&& marks != 0) relaxed)) s
  { s with mem := { s.mem with host := memWriteMask s.mem.host (512 * no) 512 data.toNat mask.toNat } }

/-! ## One access in the home's order (R262, R273, R279) -/

/-- Brings a line home for a write or an atomic: a fill where it is absent, unless the write covers the whole line; every
other copy is invalidated, a dirty owner's data recalled (R262). -/
def prepWrite (s : State) (l : Line) (whole lat : Bool) : State :=
  let sl := homeSlice l
  let h := homeLine s l
  match h.st with
  | 0 => if whole then insertHome s l { HomeLine.none with st := 1 } else fillHome s l lat
  | 3 =>
    let n := ownerLine s l
    let s := setNear (s.bump 0x3072 4 sl 1) (ownerOf h) l NearLine.none
    setHome s l { h with st := 2, data := n.1, marks := n.2, presence := 0 }
  | _ =>
    let s := if (places h.presence).isEmpty then s else s.bump 0x3072 5 sl (places h.presence).length
    setHome (dropPlaces s l h.presence) l { h with presence := 0 }

/-- Applies a write at the home: the line becomes dirty with no copies elsewhere and its discard mark goes (R241, R262,
R310); a host line stays clean and its write goes to the host (R253). -/
def applyWrite (s : State) (l : Line) (fn : Fn) (data : LineData) (mask : ByteMask) (marks : Marks) (fin : Bool) : State :=
  let h := homeLine s l
  let s := (setHome s l { h with
    st := if l.host then 1 else 2
    data := lineMerge h.data data mask
    marks := mergeMarks h.marks marks mask
    discarded := false
    presence := 0
    use := s.stamp + 1 }).tickStamp
  if l.host then hostForward s fn l.no data mask marks fin else s

/-- Hands a written line to the near partition of a slice as its dirty owner (R245). -/
def giveOwner (s : State) (l : Line) (sl : Nat) : State :=
  let h := homeLine s l
  let s := setHome s l { h with st := 3, presence := setBit 0 sl true }
  let m := { bareMsg (agentHome (homeSlice l)) (agentNear sl) (agentNear sl) l 0 7 false false 0 with
    data := h.data
    marks := h.marks }
  let s := crossRing s m.src m.dst (packetOf s .grant m)
  insertNear s sl l { NearLine.none with st := 2, data := h.data, marks := h.marks }

/-- The effect of a write hint after the write is applied: 0100h + d hands the line to the slice beneath CDd, or is
ignored and counted when NEAR_WAYS is 0 or the line is a host line (R245). -/
def applyHint (s : State) (l : Line) (hint : Nat) : State :=
  if 0x100 ≤ hint ∧ hint ≤ 0x107 then
    if l.host ∨ nearWays s = 0 then s.bump 0x3071 1 0 1
    else if (hint - 0x100) / 2 = homeSlice l then s
    else giveOwner s l ((hint - 0x100) / 2)
  else s

/-- Whether a transaction holds a line BUSY. -/
def lineBusy (s : State) (l : Line) : Bool := (homeLine s l).busy.isSome

/-- Counts a request at the home as a hit or a miss (R251). -/
def countHome (s : State) (fn : Fn) (cls : BitVec 3) (l : Line) : State :=
  countReq s fn (homeSlice l) cls (if (homeLine s l).st = 0 then 2 else 1)

/-- A line as a read at its home delivers it (R242, R243): a read of a discarded line is counted, and under
STRICT_DISCARD every sector is marked. -/
def deliver (s : State) (fn : Fn) (cls : BitVec 3) (l : Line) (fresh : Bool) : (LineData × Marks) × State :=
  let h := homeLine s l
  if h.discarded && !l.host then
    ((h.data, if strictDiscard s then 15 else h.marks), countDiscard s fn (homeSlice l) cls)
  else ((h.data, h.marks), countReq s fn (homeSlice l) cls (if fresh then 2 else 1))

/-- Brings the home's copy up to date for a read: a fill where the line is absent, the owner's data where one holds it
dirty (R262). -/
def prepRead (s : State) (l : Line) (lat : Bool) : State :=
  let h := homeLine s l
  match h.st with
  | 0 => fillHome s l lat
  | 3 =>
    let o := ownerOf h
    let n := nearLine s o l
    let x := ownerLine s l
    let s := setNear (s.bump 0x3072 4 (homeSlice l) 1) o l { n with st := if n.st = 3 then 3 else 1 }
    touchHome (setHome s l { h with st := 2, data := x.1, marks := x.2 }) l
  | _ => touchHome s l

/-- An engine's request and the home's reply cross the ring between the engine's agent and the home (R18, R26, R336). -/
def crossAccess (s : State) (src : Nat) (kind reply : MsgKind) (m : Msg) (data : LineData) (marks : Marks) : State :=
  let home := agentHome (homeSlice m.line)
  let s := crossRing s src home (packetOf s kind m)
  crossRing s home src (packetOf s reply { m with src := home, dst := src, data := data, marks := marks })

/-- An engine's read of a line at its home, from the engine's agent `src`. -/
def cohRead (s : State) (src : Nat) (fn : Fn) (cls : BitVec 3) (lat : Bool) (l : Line) : (LineData × Marks) × State :=
  let fresh := decide ((homeLine s l).st = 0)
  let r := deliver (prepRead s l lat) fn cls l fresh
  (r.1, crossAccess r.2 src .rd .data (bareMsg src (agentHome (homeSlice l)) src l fn cls lat lat 0) r.1.1 r.1.2)

/-- An engine's write of a line at its home, from the engine's agent `src`. -/
def cohWrite (s : State) (src : Nat) (fn : Fn) (cls : BitVec 3) (l : Line) (data : LineData) (mask : ByteMask) (marks : Marks)
    (hint : Nat) (fin : Bool) : State :=
  let s := crossAccess s src .wr .ack { bareMsg src (agentHome (homeSlice l)) src l fn cls false false 0 with
    data := data
    mask := mask
    marks := marks } 0 0
  let s := countHome s fn cls l
  if l.host && decide ((homeLine s l).st = 0) then
    let s := hostForward s fn l.no data mask marks fin
    applyHint s l hint
  else applyHint (applyWrite (prepWrite s l (mask == BitVec.allOnes 512) false) l fn data mask marks fin) l hint

/-! ## Atomics (R104, R201, R203, R273) -/

/-- Operand bytes of an atomic. -/
def atomSize : AtomKind → Nat
  | .addU64 | .swapU64 | .casU64 => 8
  | .casU128 => 16
  | _ => 4

/-- The new value of an atomic on an old value. -/
def atomApply (k : AtomKind) (old : Nat) (val cmp : BitVec 128) : Nat :=
  let w := bits val.toNat 0 32
  let a := BitVec.ofNat 32 old
  let b := BitVec.ofNat 32 w
  match k with
  | .addU32 => (old + w) % 2 ^ 32
  | .addU64 => (old + val.toNat) % 2 ^ 64
  | .addF32 => fpAdd .fp32 .rne old w
  | .addBf16x2 => fpAdd .bf16 .rne (bits old 0 16) (bits w 0 16) + 2 ^ 16 * fpAdd .bf16 .rne (bits old 16 16) (bits w 16 16)
  | .minS32 => if a.sle b then old else w
  | .maxS32 => if a.sle b then w else old
  | .minU32 => min old w
  | .maxU32 => max old w
  | .and => old &&& w
  | .or => old ||| w
  | .xor => old ^^^ w
  | .swapU32 => w
  | .swapU64 => bits val.toNat 0 64
  | .casU64 => if old = bits cmp.toNat 0 64 then bits val.toNat 0 64 else old
  | .casU128 => if old = cmp.toNat then val.toNat else old
  | .acq => if old = 0 then w else old

/-- Applies the operations of one instruction to a line in ascending lane order: the line, the old values, and whether
one was skipped because its operand bytes lie in a marked sector (R203, R273). -/
def runOps (k : AtomKind) (marks : Marks) : List LaneOp → LineData → LineData × List LaneOp × Bool
  | [], d => (d, [], false)
  | o :: t, d =>
    if touched (maskOf o.off (atomSize k)) &&& marks != 0 then
      let r := runOps k marks t d
      (r.1, r.2.1, true)
    else
      let old := lineBytes d o.off (atomSize k)
      let d' := lineMerge d (lineOf o.off (atomSize k) (atomApply k old o.val o.cmp)) (maskOf o.off (atomSize k))
      let r := runOps k marks t d'
      (r.1, { o with val := BitVec.ofNat 128 old } :: r.2.1, r.2.2)

/-- The byte mask of the operations that a line's marks let apply. -/
def opsMask (k : AtomKind) (marks : Marks) (ops : List LaneOp) : ByteMask :=
  ops.foldl (fun m o => if touched (maskOf o.off (atomSize k)) &&& marks != 0 then m else m ||| maskOf o.off (atomSize k)) 0

/-- Counts an atomic at a home: a read of a discarded line, or a hit or a miss (R242, R251). -/
def countAtom (s : State) (l : Line) (fn : Fn) (cls : BitVec 3) (fresh : Bool) : State :=
  if (homeLine s l).discarded && !l.host then countDiscard s fn (homeSlice l) cls
  else countReq s fn (homeSlice l) cls (if fresh then 2 else 1)

/-- An atomic at a home whose line is ready (R242, R243, R273): the old values, whether one was skipped, and the state.
Where it writes it clears the line's discard mark; where every operation is skipped the line is held as after a write, with
its mark (R203, R243). -/
def applyAtom (s : State) (l : Line) (fn : Fn) (k : AtomKind) (ops : List LaneOp) (fin : Bool) : (List LaneOp × Bool) × State :=
  let h := homeLine s l
  let marks : Marks := if h.discarded && !l.host && strictDiscard s then 15 else h.marks
  let r := runOps k marks ops h.data
  let mask := opsMask k marks ops
  ((r.2.1, r.2.2), if mask = 0 then setHome s l { h with st := if l.host then 1 else 2, presence := 0 }
    else applyWrite s l fn r.1 mask 0 fin)

/-- An atomic at the home of a line in one step. -/
def homeAtom (s : State) (fn : Fn) (cls : BitVec 3) (lat : Bool) (l : Line) (k : AtomKind) (ops : List LaneOp) :
    (List LaneOp × Bool) × State :=
  let fresh := decide ((homeLine s l).st = 0)
  applyAtom (countAtom (prepWrite s l false lat) l fn cls fresh) l fn k ops false

/-- An engine's atomic at the home of a line, from the engine's agent `src`. -/
def cohAtom (s : State) (src : Nat) (fn : Fn) (cls : BitVec 3) (lat : Bool) (l : Line) (k : AtomKind) (ops : List LaneOp) :
    (List LaneOp × Bool) × State :=
  let r := homeAtom s fn cls lat l k ops
  (r.1, crossAccess r.2 src .atom .ack { bareMsg src (agentHome (homeSlice l)) src l fn cls lat lat 0 with ops := ops } 0 0)

end Sys2Proof.Machine
end

