-- ==== Sys2Proof/Machine/PeerSend.lean ====
section
/-!
DEFINITION. Peer windows and the packets that leave through a peer port (R333, R374, R376, R378, R379, R381, R388).
-/
namespace Sys2Proof.Machine

/-- Whether a port carries traffic: UP or UP_REDUCED (R373). -/
def portUp (s : State) (p : Nat) : Bool := decide (s.obj 0x8010 3 p = 3) || decide (s.obj 0x8010 3 p = 4)

/-- The ports of a partner's group, ascending (R373). -/
def groupPorts (s : State) (partner : Nat) : List Nat :=
  (List.range 8).filter fun p => portUp s p && decide (bits (s.obj 0x8010 4 p) 0 16 = partner)

/-- The port that deals a slot of a partner's group (R374); none when no port is up. -/
def dealPort (s : State) (partner slot : Nat) : Option Nat :=
  let ps := groupPorts s partner
  if ps.isEmpty then none else ps[slot % ps.length]?

/-- A window entry of a function (R388). -/
def window (s : State) (fn i : Nat) : Nat := sget (fun _ => 0) s.host.windows (fn * 16 + i)

/-- VA_BASE of a window or a grant. -/
def winBase (w : Nat) : Nat := bits w 0 64
/-- LENGTH. -/
def winLength (w : Nat) : Nat := bits w 64 64
/-- REMOTE_VA. -/
def winRemote (w : Nat) : Nat := bits w 128 48
/-- HINT. -/
def winHint (w : Nat) : Nat := bits w 176 16
/-- MODULE. -/
def winModule (w : Nat) : Nat := bits w 192 16
/-- DST_FUNC. -/
def winFunc (w : Nat) : Nat := bits w 208 8
/-- LMEM_OFF. -/
def winLmem (w : Nat) : Nat := bits w 224 32

/-- The window of a function that holds a device-virtual address (R378). -/
def windowOf (s : State) (fn va : Nat) : Option Nat :=
  ((List.range 16).map fun i => window s fn i).find? fun w =>
    decide (winBase w ≤ va) && decide (va < winBase w + winLength w)

/-- The key under which a core orders its accesses to a line behind a window: no line of host memory has it. -/
def peerLine (va : Nat) : Line := ⟨2 ^ 60 + va / 512, true⟩

/-- A packet for a line behind a window (R379): REMOTE_VA of the line, and the hint of the window; the local offset of a
deposit moves with the line. -/
def peerPacket (s : State) (fn : Fn) (w va : Nat) : PeerPacket :=
  let base := va / 512 * 512
  { port := 0
    isAtom := false
    isRed := false
    remoteVa := BitVec.ofNat 48 (winRemote w + (base - winBase w))
    srcModule := BitVec.ofNat 16 (s.obj 0x8000 1 0)
    srcFn := fn
    dstFn := Fin.ofNat 256 (winFunc w)
    hint := BitVec.ofNat 16 (winHint w)
    lmemOff := BitVec.ofNat 32 (winLmem w + (base - winBase w))
    seq := 0
    data := 0
    mask := 0
    marks := 0
    kind := .and
    ops := []
    red := { src := 0, fn := fn, tag := 0, format := 0, cnt := 0, line := ⟨0, false⟩, data := 0, mask := 0, marks := 0, seq := 0 } }

/-- A packet travels from an agent to a port, as a write or an atomic does (R18, R336). -/
def crossToPort (s : State) (src p : Nat) (pk : PeerPacket) : State :=
  let units := if pk.isAtom then min 36 pk.ops.length else 36
  crossRing s src (agentPort p) (mkPacket (routeSlot pk.remoteVa.toNat) (if pk.isAtom then 1 else 3) (1 + units)
    (packetHeader (Config.msgCode (if pk.isAtom then 3 else 2)) units src (agentPort p) pk.seq.toNat (if pk.isAtom then 1 else 3)
      pk.marks (pk.remoteVa.toNat / 512) pk.srcFn.val 0)
    (if pk.isAtom then bits (Config.unitBody s.free).toNat 0 (128 * units) else pk.data.toNat + pk.mask.toNat * 2 ^ 4096))

/-- A packet, or a command's TAG_DONE, leaves through its port. -/
def emitPeer (s : State) (x : PeerSent) : State :=
  if x.pk.isRed && x.tag == 1 then s.emit (.tagDone x.port x.pk.srcFn x.pk.red.tag x.seq) else s.emit (.peer x.port x.pk)

/-- A packet takes the group's next sequence number and leaves through the port of its slot; none when the partner is
unreachable. -/
def launchPeer (s : State) (x : PeerSent) : Option State :=
  (dealPort s x.partner (routeSlot x.pk.remoteVa.toNat)).map fun p =>
    let seq := sget (fun _ => 0) s.peer.seq x.partner
    let pk := { x.pk with
      port := Fin.ofNat 8 p
      seq := BitVec.ofNat 16 seq }
    let x := { x with
      port := p
      seq := seq
      pk := pk
      sentNs := s.now
      held := false }
    emitPeer { s with peer := { s.peer with
      seq := sset (fun _ => 0) s.peer.seq x.partner ((seq + 1) % 65536)
      sent := s.peer.sent ++ [x] } } x

/-- Whether a partner's group has a free place for an unanswered packet (R381). -/
def peerRoom (s : State) (partner : Nat) : Bool :=
  decide ((s.peer.sent.filter fun x => !x.held && decide (x.partner = partner)).length < 4096)

/-- The first packet that waits for a place of a partner's group leaves. -/
def releasePeer (s : State) (partner : Nat) : State :=
  if peerRoom s partner then
    match takeFirst (fun x : PeerSent => x.held && decide (x.partner = partner)) s.peer.sent with
    | none => s
    | some (x, rest) => (launchPeer { s with peer := { s.peer with sent := rest } } x).getD s
  else s

/-- Sends a packet to a partner through the port of its slot, where it waits while 4,096 packets for the partner are unanswered;
none when the partner is unreachable (R374, R376, R381). A core's packet travels from its site. -/
def peerSend (s : State) (partner : Nat) (pk : PeerPacket) (step idx core tag : Nat) (l : Line) : Option State :=
  match dealPort s partner (routeSlot pk.remoteVa.toNat) with
  | none => none
  | some p =>
    let s := if core < 256 then crossToPort s (siteOfCore s core) p pk else s
    let x : PeerSent := ⟨p, partner, 0, pk, 0, step, idx, core, tag, l, s.now, true⟩
    if peerRoom s partner && (s.peer.sent.all fun y => !y.held || decide (y.partner ≠ partner)) then launchPeer s x
    else some { s with peer := { s.peer with sent := s.peer.sent ++ [x] } }

end Sys2Proof.Machine
end

