-- ==== Sys2Proof/Machine/VecFp.lean ====
section
/-!
DEFINITION. Vector instructions of kernel code: their operands (R178, R185, R187) and the FP32, packed 16-bit and
special-function rows (R185, R186, R103).
-/
namespace Sys2Proof.Machine

/-- A source of a vector or scalar instruction: a register specifier or IMM32. -/
inductive Src where
  | reg (spec : BitVec 7)
  | imm (w : Word)
  deriving DecidableEq, Repr

/-- The operands of an instruction with up to three sources; `illegal` says that a specifier kind or a MOD bit is not
allowed. -/
structure VArgs where
  guard   : BitVec 5
  dst     : BitVec 7
  a       : Src
  b       : Src
  c       : Src
  mod     : Nat
  illegal : Bool
  deriving DecidableEq, Repr

/-- The specifiers among sources. -/
def Src.specs : Src → List (BitVec 7)
  | .reg s => [s]
  | .imm _ => []

/-- The value that a lane sees of a source. -/
def Src.val (x : Src) (k : Core) (g : Group) (slot lane : Nat) : Word :=
  match x with
  | .reg s => k.src g slot s lane
  | .imm w => w

/-- Whether MOD has a bit set that the row does not use (R184); `used` is the mask of the bits it uses. -/
def modBad (mod : BitVec 16) (used : Nat) : Bool := mod &&& ~~~(BitVec.ofNat 16 used) != 0

/-- The vector operands of an R word (R178, R184, R185); a row of fewer sources ignores SB or SC. -/
def vArgsR (f : RFields) (useB useC : Bool) (used : Nat) : VArgs :=
  { guard := f.guard, dst := f.dst, a := .reg f.sa,
    b := if useB then .reg f.sb else .imm 0, c := if useC then .reg f.sc else .imm 0, mod := f.mod.toNat,
    illegal := !isV f.dst || !isVUZ f.sa || (useB && !isVUZ f.sb) || (useC && !isVUZ f.sc) || modBad f.mod used }

/-- The vector operands of an I word (R187): IMM32 in place of SB; ffma takes SC as DST. -/
def vArgsI (f : IFields) (useC : Bool) : VArgs :=
  { guard := f.guard, dst := f.dst, a := .reg f.sa, b := .imm f.imm, c := if useC then .reg f.dst else .imm 0, mod := 0,
    illegal := !isV f.dst || !isVUZ f.sa }

/-- The operands of a mnemonic with both forms. -/
def vArgs (f : RIForm) (useC : Bool) (used : Nat) : VArgs :=
  match f with
  | .r f => vArgsR f true useC used
  | .i f => vArgsI f useC

/-- The registers that an instruction names. -/
def VArgs.regs (v : VArgs) : List (BitVec 7) := v.a.specs ++ v.b.specs ++ v.c.specs ++ [v.dst]

/-- The state of a core after a vector instruction wrote DST of each thread in the effective mask (R181). -/
def vecWrite (k : Core) (gr : Group) (slot : Nat) (v : VArgs) (op : Word → Word → Word → Word) : Core :=
  k.setVs slot (regNo v.dst) (effMask gr v.guard) fun t =>
    op (v.a.val k gr slot t) (v.b.val k gr slot t) (v.c.val k gr slot t)

/-- A vector instruction that writes DST = op (A, B, C) in each active thread. -/
def vecRun (s : State) (g : GroupRef) (v : VArgs) (format : Bool) (op : Word → Word → Word → Word) : Out :=
  issue s g (firstFault v.illegal format) v.regs fun s k gr =>
    .go s (vecWrite k gr g.slot v op) gr.advance

/-! ## FP32 -/

/-- MOD[1:0] = 10b or 11b, which faults with cause FORMAT (R185). -/
def roundBad (mod : Nat) : Bool := decide (2 ≤ bits mod 0 2)

/-- An FP32 operation of the rounding mode and the operands with MOD's negations (R185). -/
def fop (mod : Nat) (op : RMode → Nat → Nat → Nat → Nat) (a b c : Word) : Word :=
  BitVec.ofNat 32 (op (rmode (bits mod 0 2) 0) (fpNeg .fp32 (bit mod 2) a.toNat) b.toNat (fpNeg .fp32 (bit mod 3) c.toNat))

/-- Runs an FP32 row. -/
def fpRun (s : State) (g : GroupRef) (v : VArgs) (op : RMode → Nat → Nat → Nat → Nat) : Out :=
  vecRun s g v (roundBad v.mod) (fop v.mod op)

/-- fadd. -/
def execFadd (g : GroupRef) (f : RIForm) (s : State) : Out :=
  fpRun s g (vArgs f false 7) fun m a b _ => fpAdd .fp32 m a b

/-- fsub. -/
def execFsub (g : GroupRef) (f : RFields) (s : State) : Out :=
  fpRun s g (vArgsR f true false 7) fun m a b _ => fpSub .fp32 m a b

/-- fmul. -/
def execFmul (g : GroupRef) (f : RIForm) (s : State) : Out :=
  fpRun s g (vArgs f false 7) fun m a b _ => fpMul .fp32 m a b

/-- ffma: one rounding. -/
def execFfma (g : GroupRef) (f : RIForm) (s : State) : Out :=
  fpRun s g (vArgs f true 15) fun m a b c => fpFma .fp32 m a b c

/-- fmin (R186). -/
def execFmin (g : GroupRef) (f : RIForm) (s : State) : Out :=
  fpRun s g (vArgs f false 7) fun _ a b _ => fpMin .fp32 a b

/-- fmax (R186). -/
def execFmax (g : GroupRef) (f : RIForm) (s : State) : Out :=
  fpRun s g (vArgs f false 7) fun _ a b _ => fpMax .fp32 a b

/-- fabs. -/
def execFabs (g : GroupRef) (f : RFields) (s : State) : Out :=
  fpRun s g (vArgsR f false false 7) fun _ a _ _ => fpAbs .fp32 a

/-! ## Packed BF16 and FP16 -/

/-- The format that MOD[4] of a VH row selects (R185). -/
def vhFmt (mod : Nat) : Fmt := if bit mod 4 then .fp16 else .bf16

/-- An operation on each 16-bit half. -/
def hop (mod : Nat) (op : Fmt → RMode → Nat → Nat → Nat → Nat) (a b c : Word) : Word :=
  let f := vhFmt mod
  let half (i : Nat) : Nat :=
    op f (rmode (bits mod 0 2) 0) (fpNeg f (bit mod 2) (bits a.toNat i 16)) (bits b.toNat i 16)
      (fpNeg f (bit mod 3) (bits c.toNat i 16))
  BitVec.ofNat 32 (half 0 + 2 ^ 16 * half 16)

/-- Runs a VH row. -/
def hpRun (s : State) (g : GroupRef) (v : VArgs) (op : Fmt → RMode → Nat → Nat → Nat → Nat) : Out :=
  vecRun s g v (roundBad v.mod) (hop v.mod op)

/-- hadd2. -/
def execHadd2 (g : GroupRef) (f : RFields) (s : State) : Out :=
  hpRun s g (vArgsR f true false 0x17) fun f m a b _ => fpAdd f m a b

/-- hsub2. -/
def execHsub2 (g : GroupRef) (f : RFields) (s : State) : Out :=
  hpRun s g (vArgsR f true false 0x17) fun f m a b _ => fpSub f m a b

/-- hmul2. -/
def execHmul2 (g : GroupRef) (f : RFields) (s : State) : Out :=
  hpRun s g (vArgsR f true false 0x17) fun f m a b _ => fpMul f m a b

/-- hfma2. -/
def execHfma2 (g : GroupRef) (f : RFields) (s : State) : Out :=
  hpRun s g (vArgsR f true true 0x1F) fun f m a b c => fpFma f m a b c

/-- hmin2 (R186). -/
def execHmin2 (g : GroupRef) (f : RFields) (s : State) : Out :=
  hpRun s g (vArgsR f true false 0x17) fun f _ a b _ => fpMin f a b

/-- hmax2 (R186). -/
def execHmax2 (g : GroupRef) (f : RFields) (s : State) : Out :=
  hpRun s g (vArgsR f true false 0x17) fun f _ a b _ => fpMax f a b

/-! ## Special functions (R103) -/

/-- Runs an SF row: no MOD bit is used (R185). -/
def sfRun (s : State) (g : GroupRef) (f : RFields) (fn : Nat) : Out :=
  vecRun s g (vArgsR f false false 0) false fun a _ _ => sfResult fn a

/-- exp2. -/
def execExp2 (g : GroupRef) (f : RFields) (s : State) : Out := sfRun s g f 0

/-- log2. -/
def execLog2 (g : GroupRef) (f : RFields) (s : State) : Out := sfRun s g f 1

/-- rcp. -/
def execRcp (g : GroupRef) (f : RFields) (s : State) : Out := sfRun s g f 2

/-- rsqrt. -/
def execRsqrt (g : GroupRef) (f : RFields) (s : State) : Out := sfRun s g f 3

end Sys2Proof.Machine
end

