-- ==== Sys2Proof/Machine/Control.lean ====
section
/-!
DEFINITION. Divergence and the path stack (R120 to R125), branches (R206), control rows (R207), barriers (R126 to
R130), descriptor writes (R205).
-/
namespace Sys2Proof.Machine

/-! ## Local memory as bytes -/

/-- `n` bytes of local memory, little-endian. -/
def Core.lread (k : Core) (a n : Nat) : Nat := memRead k.lmem a n

/-- Writes `n` bytes of local memory. -/
def Core.lwrite (k : Core) (a n v : Nat) : Core := { k with lmem := memWrite k.lmem a n v }

/-- Local memory of the command in bytes. -/
def CoreCmd.lmemBytes (c : CoreCmd) : Nat := c.lmemKib * 1024

/-- Whether the path-stack areas exist (R120). -/
def CoreCmd.hasStacks (c : CoreCmd) : Bool := decide (c.resident * 256 ≤ c.lmemBytes)

/-- The size of the local-memory window (R120). -/
def CoreCmd.window (c : CoreCmd) : Nat := if c.hasStacks then c.lmemBytes - c.resident * 256 else 0

/-- The address of path-stack entry `d` of a slot (R120, R121): the stack grows down from the area's top. -/
def CoreCmd.stackAddr (c : CoreCmd) (slot d : Nat) : Nat := c.lmemBytes - 256 * slot - 8 * (d + 1)

/-- A path-stack entry (R121): `rejoin` is bit 31 of the first word. -/
structure PathEntry where
  rejoin : Bool
  pc     : Nat
  mask   : Word
  deriving DecidableEq, Repr

/-- Entry `d` of a slot's path stack. -/
def Core.entry (k : Core) (c : CoreCmd) (slot d : Nat) : PathEntry :=
  let a := c.stackAddr slot d
  let w := k.lread a 4
  ⟨bit w 31, bits w 0 31, BitVec.ofNat 32 (k.lread (a + 4) 4)⟩

/-- Writes entry `d`. -/
def Core.setEntry (k : Core) (c : CoreCmd) (slot d : Nat) (e : PathEntry) : Core :=
  let a := c.stackAddr slot d
  (k.lwrite a 4 (e.pc % 2 ^ 31 + (if e.rejoin then 2 ^ 31 else 0))).lwrite (a + 4) 4 e.mask.toNat

/-- The path-stack depth after a change. -/
def Group.setDepth (g : Group) (d : Nat) : Group := g.setStatus 8 6 d

/-- Pushes entries, the first one lowest. The caller has checked the room (R125). -/
def pushAll (k : Core) (c : CoreCmd) (slot : Nat) (g : Group) : List PathEntry → Core × Group
  | [] => (k, g)
  | e :: t => pushAll (k.setEntry c slot g.depth e) c slot (g.setDepth (g.depth + 1)) t

/-- Whether `n` pushes fault with cause PATH_OVERFLOW (R125). -/
def pushFaults (c : CoreCmd) (g : Group) (n : Nat) : Bool := !c.hasStacks || decide (32 < g.depth + n)

/-- A join (R123): pops the top entry and goes to its instruction with its mask less the exited threads; with an empty
stack it does nothing but go on. A join that changes MASK is a progress event (R135). -/
def joinTop (k : Core) (c : CoreCmd) (slot : Nat) (g : Group) : Group :=
  if g.depth = 0 then g.advance
  else
    let e := k.entry c slot (g.depth - 1)
    let m := e.mask &&& ~~~g.exited
    { g.setDepth (g.depth - 1) with
      pc := BitVec.ofNat 32 e.pc
      mask := m
      watchdog := if m = g.mask then g.watchdog else 0 }

/-- Joins while MASK is 0 and the stack holds an entry (R124); a stack holds at most 32. -/
def joinWhileEmpty (k : Core) (c : CoreCmd) (slot : Nat) : Nat → Group → Group
  | 0, g => g
  | n + 1, g => if g.mask = 0 ∧ g.depth ≠ 0 then joinWhileEmpty k c slot n (joinTop k c slot g) else g

/-! ## Branches (R206) -/

/-- A branch target: PC plus a signed offset. -/
def target (pc : Word) (off : BitVec 20) : Int := (pc.toNat : Int) + off.toInt

/-- A target below 0, which faults with cause ILLEGAL at the branch. -/
def belowZero (pc : Word) (off : BitVec 20) : Bool := decide (target pc off < 0)

/-- The PC of a target. -/
def toPc (t : Int) : Word := BitVec.ofInt 32 t

/-- A reserved bit or a GUARD set in an X-B word (R180, R181). -/
def bBad (f : BFields) : Bool := f.guard != 0 || f.rsvd != 0

/-- The legality of a branch of the group that may issue. -/
def brLegal (s : State) (g : GroupRef) (f : BFields) (useTa useTb : Bool) : Option Nat :=
  let pc := ((s.core g.core).group g.slot).pc
  firstFault (bBad f || (useTa && belowZero pc f.ta) || (useTb && belowZero pc f.tb)) false

/-- A branch to TA that is taken on a condition of PS AND MASK and MASK. -/
def branchRun (s : State) (g : GroupRef) (f : BFields) (cond : Word → Word → Bool) : Out :=
  issue s g (brLegal s g f true false) [] fun s k gr =>
    if cond (gr.pred f.ps.toNat &&& gr.mask) gr.mask then .go s k { gr with pc := toPc (target gr.pc f.ta) }
    else .go s k gr.advance

/-- bra. -/
def execBra (g : GroupRef) (f : BFields) (s : State) : Out := branchRun s g f fun _ _ => true

/-- bany. -/
def execBany (g : GroupRef) (f : BFields) (s : State) : Out := branchRun s g f fun p _ => p != 0

/-- bnone. -/
def execBnone (g : GroupRef) (f : BFields) (s : State) : Out := branchRun s g f fun p _ => p == 0

/-- ball. -/
def execBall (g : GroupRef) (f : BFields) (s : State) : Out := branchRun s g f fun p m => p == m

/-- split (R122). -/
def execSplit (g : GroupRef) (f : BFields) (s : State) : Out :=
  issue s g (brLegal s g f true true) [] fun s k gr =>
    match k.cmd with
    | none => .go s k gr
    | some c =>
      let p := gr.pred f.ps.toNat
      let t := gr.mask &&& p
      let e := gr.mask &&& ~~~p
      if e = 0 then .go s k { gr with pc := toPc (target gr.pc f.ta) }
      else if t = 0 then .go s k gr.advance
      else if pushFaults c gr 2 then .fault causePath 0
      else
        let r := pushAll k c g.slot gr
          [⟨true, (toPc (target gr.pc f.tb)).toNat, gr.mask⟩, ⟨false, gr.pc.toNat + 1, e⟩]
        .go s r.1 { r.2 with pc := toPc (target gr.pc f.ta), mask := t }

/-- join (R123). -/
def execJoin (g : GroupRef) (f : BFields) (s : State) : Out :=
  issue s g (brLegal s g f false false) [] fun s k gr =>
    match k.cmd with
    | none => .go s k gr
    | some c => .go s k (joinTop k c g.slot gr)

/-- exit (R124). -/
def execExit (g : GroupRef) (f : BFields) (s : State) : Out :=
  issue s g (brLegal s g f false false) [] fun s k gr =>
    match k.cmd with
    | none => .go s k gr
    | some c =>
      let e := joinWhileEmpty k c g.slot 33 { gr with exited := gr.exited ||| gr.mask, mask := 0 }
      if e.mask = 0 then .ends s k else .go s k e

/-! ## Control (R207) -/

/-- A MOD bit or a GUARD that a CTL or INBOX row does not allow (R181, R184). DESIGN CHOICE (log entry 46): a register field
that the row does not use is ignored, whatever it holds, since R178 and R184 name no fault for it. -/
def ctlBad (f : RFields) (used : Nat) : Bool := f.guard != 0 || modBad f.mod used

/-- nop. -/
def execCtlNop (g : GroupRef) (f : RFields) (s : State) : Out :=
  issue s g (firstFault (ctlBad f 0) false) [] fun s k gr => .go s k gr.advance

/-- jr. -/
def execJr (g : GroupRef) (f : RFields) (s : State) : Out :=
  issue s g (firstFault (ctlBad f 0 || !isU f.sa) false) [f.sa] fun s k gr =>
    .go s k { gr with pc := k.u g.slot (regNo f.sa) }

/-- The count of a barrier arrival as BAR_EXPECT holds it, one byte; a count above 255 never releases the barrier, as
255 does not (DEDUCED, log entry 20). -/
def barExpect (w : Word) : Byte := BitVec.ofNat 8 (min w.toNat 255)

/-- Whether a barrier arrival is partial: MASK is not NOT EXITED (R128). -/
def partialArrival (gr : Group) : Bool := gr.mask != ~~~gr.exited

/-- bar (R126 to R129). -/
def execBar (g : GroupRef) (f : RFields) (s : State) : Out :=
  issue s g (firstFault (ctlBad f 15 || !isUZ f.sa) false) [f.sa] fun s k gr =>
    let strict := match k.cmd with
      | some c => c.strict
      | none => false
    let part := partialArrival gr
    if part && strict then .fault causeBarrier 0
    else
      let b := bits f.mod.toNat 0 4
      let s := if part then s.bump 0x3050 1 g.core 1 else s
      let gr := { ((gr.advance.pend waitBarrier s.stamp).setStatus 16 4 b).setStatus 20 1 1 with
        barExpect := barExpect (k.usrc gr g.slot f.sa) }
      let k := (k.setGroup g.slot gr).tryRelease b s.stamp
      .go s.tickStamp k (k.group g.slot)

/-- rdtime: u pair DST = device time in ns. -/
def execRdtime (g : GroupRef) (f : RFields) (s : State) : Out :=
  issue s g (firstFault (ctlBad f 0 || !(isU f.dst && groupOk f.dst 2)) false) [f.dst, f.dst + 1] fun s k gr =>
    .go s ((k.setU g.slot (regNo f.dst) (BitVec.ofNat 32 s.now)).setU g.slot (regNo f.dst + 1)
      (BitVec.ofNat 32 (s.now / 2 ^ 32))) gr.advance

/-- rdtick: u pair DST = current tick number. -/
def execRdtick (g : GroupRef) (f : RFields) (s : State) : Out :=
  issue s g (firstFault (ctlBad f 0 || !(isU f.dst && groupOk f.dst 2)) false) [f.dst, f.dst + 1] fun s k gr =>
    .go s ((k.setU g.slot (regNo f.dst) (BitVec.ofNat 32 s.tick)).setU g.slot (regNo f.dst + 1)
      (BitVec.ofNat 32 (s.tick / 2 ^ 32))) gr.advance

/-- rdcyc: u register DST = low 32 bits of the core's ACLK cycle count. The count that the core has reached is observed
(log entry 1); it never falls. -/
def execRdcyc (g : GroupRef) (f : RFields) (cycles : Nat) (s : State) : Out :=
  if (s.core g.core).cycles ≤ cycles then
    issue s g (firstFault (ctlBad f 0 || !isU f.dst) false) [f.dst] fun s k gr =>
      .go s ({ k with cycles := cycles }.setU g.slot (regNo f.dst) (BitVec.ofNat 32 cycles)) gr.advance
  else cannot

/-! ## Descriptors (R205) -/

/-- A descriptor of the core. -/
def Core.desc (k : Core) (n : Nat) : BitVec 256 := sget (fun _ => 0) k.descs n

/-- Sets a descriptor. -/
def Core.setDesc (k : Core) (n : Nat) (d : BitVec 256) : Core := { k with descs := sset (fun _ => 0) k.descs n d }

/-- dwr: word w of a descriptor = SA + IMM32. -/
def execDwr (g : GroupRef) (f : DFields) (s : State) : Out :=
  let illegal := f.guard != 0 || decide (64 ≤ f.dst.toNat) || decide (8 ≤ f.func.toNat) || !isUZ f.sa
  issue s g (firstFault illegal false) [f.sa] fun s k gr =>
    let w := k.usrc gr g.slot f.sa + f.imm
    .go s (k.setDesc f.dst.toNat (BitVec.ofNat 256 (putBits (k.desc f.dst.toNat).toNat (32 * f.func.toNat) 32 w.toNat)))
      gr.advance

end Sys2Proof.Machine
end

