-- ==== Sys2Proof/Machine/Tracker.lean ====
section
/-!
DEFINITION. Operand descriptors (R151, R154), the tile rule and the range tracker (R162 to R164, R200).
-/
namespace Sys2Proof.Machine

/-! ## Descriptors (R151) -/

/-- BASE. -/
def dBase (d : BitVec 256) : Nat := bits d.toNat 0 22
/-- SCALE_BASE. -/
def dScaleBase (d : BitVec 256) : Nat := bits d.toNat 32 22
/-- ROWS. -/
def dRows (d : BitVec 256) : Nat := bits d.toNat 64 7
/-- COLS. -/
def dCols (d : BitVec 256) : Nat := bits d.toNat 80 15
/-- ROW_PITCH. -/
def dPitch (d : BitVec 256) : Nat := bits d.toNat 96 22
/-- SCALE_PITCH. -/
def dScalePitch (d : BitVec 256) : Nat := bits d.toNat 128 16
/-- FORMAT. -/
def dFormat (d : BitVec 256) : Nat := bits d.toNat 144 4
/-- SCALED. -/
def dScaled (d : BitVec 256) : Bool := bit d.toNat 148
/-- ROUND. -/
def dRound (d : BitVec 256) : Nat := bits d.toNat 149 2
/-- TRANSPOSE. -/
def dTranspose (d : BitVec 256) : Bool := bit d.toNat 151
/-- BCAST. -/
def dBcast (d : BitVec 256) : Bool := bit d.toNat 152

/-- The bits that R151 reserves. -/
def dReserved (d : BitVec 256) : Bool :=
  bits d.toNat 22 10 != 0 || bits d.toNat 54 10 != 0 || bits d.toNat 71 9 != 0 || bit d.toNat 95 ||
    bits d.toNat 118 10 != 0 || bits d.toNat 153 103 != 0

/-- The row length in bytes: ceil(COLS x element bits / 8). -/
def dRowLen (d : BitVec 256) : Nat := (dCols d * fmtBits (dFormat d) + 7) / 8

/-- A byte span of local memory: its first byte and its length. -/
abbrev Span := Nat × Nat

/-- Whether two spans share a byte. -/
def overlaps (a b : Span) : Bool :=
  decide (0 < a.2) && decide (0 < b.2) && decide (a.1 < b.1 + b.2) && decide (b.1 < a.1 + a.2)

/-- Whether any span of one list shares a byte with any of the other. -/
def anyOverlap (a b : List Span) : Bool := a.any fun x => b.any fun y => overlaps x y

/-- The data span and, where SCALED is 1, the scale span of a descriptor (R154). -/
def dSpans (d : BitVec 256) : List Span :=
  (dBase d, (dRows d - 1) * dPitch d + dRowLen d) ::
    (if dScaled d then [(dScaleBase d, (dRows d - 1) * dScalePitch d + dCols d / 32)] else [])

/-! ## What an operation reads and writes -/

/-- The local-memory spans that a matrix operation reads (R163). -/
def MatOp.reads (o : MatOp) : List Span :=
  match o.kind with
  | .mma | .mmaz => dSpans o.da ++ dSpans o.db
  | .tld => dSpans o.da
  | _ => []

/-- The local-memory spans that a matrix operation writes (R163). -/
def MatOp.writes (o : MatOp) : List Span :=
  match o.kind with
  | .tst => dSpans o.da
  | _ => []

/-- The array pipe serves mma and mmaz, the transfer pipe the others (R146). -/
def MatOp.array (o : MatOp) : Bool :=
  match o.kind with
  | .mma | .mmaz => true
  | _ => false

/-- Whether an operation writes its tile; tst reads it only. -/
def MatOp.writesTile (o : MatOp) : Bool := o.kind != .tst

/-- Whether an operation reads its tile. -/
def MatOp.readsTile (o : MatOp) : Bool := o.kind == .mma || o.kind == .tst

/-- The local spans of a transfer. -/
def XferRec.spans (x : XferRec) : List Span := x.lanes.map fun a => (a.la, x.width)

/-! ## Holding (R162 to R164, R200) -/

/-- The order stamps of what holds a local-memory access over `spans`: matrix operations that have not fetched or
written them, loads into local memory not yet written, and, for a write, transfers that have not read them; all of them earlier in core issue order than `order`. -/
def Core.holders (k : Core) (order : Nat) (write : Bool) (spans : List Span) : List Nat :=
  ((k.mq.filter fun o => decide (o.order < order) && o.phase != .draining &&
      (anyOverlap o.writes spans || (write && anyOverlap o.reads spans))).map MatOp.order) ++
    ((k.xfers.filter fun x => decide (x.tag < order) && (!x.out || write) && anyOverlap x.spans spans).map XferRec.tag)

/-- What holds the data of a transfer from device memory, which is a local-memory write from its issue: earlier operations
that have not fetched or written its span, and earlier transfers that have not read it (R163, R200). -/
def Core.inHeld (k : Core) (x : XferRec) : Bool :=
  (k.held.any fun h => decide (h.order < x.tag) && anyOverlap h.spans x.spans) ||
  (k.mq.any fun o => decide (o.order < x.tag) && o.phase != .draining &&
      (anyOverlap o.writes x.spans || anyOverlap o.reads x.spans)) ||
    (k.xfers.any fun y => decide (y.tag < x.tag) && y.out && anyOverlap y.spans x.spans)

/-- What holds the read of a transfer to device memory: earlier writes to its span (R200). -/
def Core.outHeld (k : Core) (x : XferRec) : Bool :=
  (k.held.any fun h => decide (h.order < x.tag) && h.write && anyOverlap h.spans x.spans) ||
  (k.mq.any fun o => decide (o.order < x.tag) && o.phase != .draining && anyOverlap o.writes x.spans) ||
    (k.xfers.any fun y => decide (y.tag < x.tag) && !y.out && anyOverlap y.spans x.spans)

/-- What keeps a queued matrix operation from starting (R162, R163): an earlier one of the other pipe on its tile, an
earlier tst that has not retired and writes what it reads, an earlier one that reads or writes what it writes, earlier
loads and stores that the tracker holds, and transfers that have not written or read. -/
def Core.opHeld (k : Core) (o : MatOp) : Bool :=
  (k.mq.any fun e => decide (e.order < o.order) &&
    ((e.array != o.array && e.tile == o.tile &&
        (e.writesTile || (o.writesTile && e.readsTile && e.phase != .draining))) ||
      anyOverlap e.writes o.reads ||
      (e.phase != .draining && anyOverlap e.reads o.writes) ||
      (e.phase != .draining && anyOverlap e.writes o.writes))) ||
    (k.held.any fun h => decide (h.order < o.order) &&
      (anyOverlap h.spans o.writes || (h.write && anyOverlap h.spans o.reads))) ||
    (k.xfers.any fun x => decide (x.tag < o.order) &&
      ((!x.out && (anyOverlap x.spans o.reads || anyOverlap x.spans o.writes)) || (x.out && anyOverlap x.spans o.writes)))

/-- Starts the first queued operation of a pipe when the pipe is free and nothing holds it (R149, R162, R163). -/
def Core.startPipe (k : Core) (array : Bool) : Core :=
  if k.mq.any fun o => o.array == array && o.phase == .running then k
  else
    match k.mq.find? fun o => o.array == array && o.phase == .queued with
    | none => k
    | some o =>
      if k.opHeld o then k
      else { k with mq := updFirst (fun e => decide (e.order = o.order)) (fun e => { e with phase := .running }) k.mq }

/-- Starts what may start on either pipe. -/
def Core.startOps (k : Core) : Core := (k.startPipe true).startPipe false

/-- Whether the tracked operation or transfer of an order stamp still holds what waits for it. -/
def Core.stillHolds (k : Core) (order : Nat) : Bool :=
  (k.mq.any fun o => decide (o.order = order) && o.phase != .draining) || k.xfers.any fun x => decide (x.tag = order)

/-- Stamps the waits of TICKET groups that have resolved: a ticket whose count is 0, past whose twait the group then goes on
(R156), or a tracked access that no longer holds, which the group issues again (R164). -/
def Core.resolveTickets (k : Core) (at_ : Nat) : Core :=
  { k with groups := k.groups.map fun p =>
      if p.2.state = 2 ∧ p.2.cause = waitTicket ∧ p.2.resolved = none ∧
          (if p.2.waitsOn < 16 then sget (fun _ => 0) k.tickets p.2.waitsOn = 0 else k.stillHolds (p.2.waitsOn - 16) = false)
      then (p.1, (if p.2.waitsOn < 16 then p.2.advance else p.2).resolve at_) else p }

/-- The access of a slot's group that the tracker holds. -/
def Core.heldOf (k : Core) (slot : Nat) : Option HeldAcc := k.held.find? fun h => h.slot.val = slot

/-- What a group does whose access the tracker holds behind `holder`: it waits, keeps the access's place in core issue
order, and 3060h:04h counts the access once (R164). -/
def holdAccess (s : State) (k : Core) (gr : Group) (g : GroupRef) (write : Bool) (spans : List Span) (holder : Nat) :
    Effect :=
  let gr := gr.pend waitTicket (16 + holder)
  if (k.heldOf g.slot).isSome then .go s k gr
  else .go (s.bump 0x3060 4 g.core 1).tickStamp { k with held := k.held ++ [⟨g.slot, s.stamp, write, spans⟩] } gr

/-- Marks or clears local-memory sectors (R165, R309): sector n is bytes 128n to 128n + 127. -/
def Core.lmark (k : Core) (n : Nat) : Bool := sget (fun _ => false) k.lmarks n

/-- Sets the mark of a local-memory sector. -/
def Core.setLmark (k : Core) (n : Nat) (b : Bool) : Core := { k with lmarks := sset (fun _ => false) k.lmarks n b }

/-- The sectors that a span touches. -/
def Span.sectors (sp : Span) : List Nat :=
  if sp.2 = 0 then [] else (List.range ((sp.1 + sp.2 - 1) / 128 - sp.1 / 128 + 1)).map fun i => sp.1 / 128 + i

/-- Whether a sector that a span touches is marked. -/
def Core.spanMarked (k : Core) (sp : Span) : Bool := sp.sectors.any k.lmark

/-- Whether the spans of a list together cover a whole sector. -/
def coversSector (spans : List Span) (n : Nat) : Bool :=
  (List.range 128).all fun i => spans.any fun sp => decide (sp.1 ≤ 128 * n + i) && decide (128 * n + i < sp.1 + sp.2)

/-- Clears the marks of the sectors that clean data covers whole (R310). -/
def Core.cleanCovered (k : Core) (spans : List Span) : Core :=
  (spans.flatMap Span.sectors).foldl (fun k n => if k.lmark n && coversSector spans n then k.setLmark n false else k) k

end Sys2Proof.Machine
end

