-- ==== Sys2Proof/Machine/Net.lean ====
section
/-!
DEFINITION. A core's loads, transfers and writes between the core, the port and near partition beneath it and the homes (R218
to R220, R263 to R266, R275 to R277).
-/
namespace Sys2Proof.Machine

/-! ## What arrives at a core -/

/-- The lines of a load or transfer with one of them arrived. -/
def gotLine (l : Line) (data : LineData) (marks : Marks) (ws : List LineWait) : List LineWait :=
  ws.map fun w => if w.line = l then { w with got := true, data := data, marks := marks } else w

/-- A line arrives at a core for a load or a transfer, or with its discard mark at the miss register of a read-only fill
(R218). -/
def arriveLine (s : State) (c : Nat) (tag : Nat) (ro : Bool) (l : Line) (data : LineData) (marks : Marks) (disc : Bool) : State :=
  let k := s.core c
  s.setCore c <|
    if ro then
      { k with miss := k.miss.map fun m => if m.line = l then
          { m with avail := true, data := data, marks := marks, disc := disc } else m }
    else
      { k with
        loads := k.loads.map fun x => if x.tag = tag then { x with lines := gotLine l data marks x.lines } else x
        xfers := k.xfers.map fun x => if x.tag = tag then { x with lines := gotLine l data marks x.lines } else x }

/-- The address of the first operation of a write that its home did not apply (R203, R212). -/
def WriteRec.skippedVa (w : WriteRec) (olds : List LaneOp) : Nat :=
  match w.msg.ops.find? fun o => olds.all fun x => x.lane ≠ o.lane with
  | some o => w.va / 512 * 512 + o.off.val
  | none => w.va

/-- A write or atomic of a core is acknowledged (R266): old values go to the atomic's RET, and an operation that was
skipped faults its group with cause POISON (R203). -/
def ackWrite (s : State) (c : Nat) (tag : Nat) (l : Line) (olds : List LaneOp) (skipped : Bool) : State :=
  let k := s.core c
  match k.writes.find? fun w => decide (w.tag = tag) && w.msg.line == l with
  | none => s
  | some w =>
    let k := { k with
      writes := k.writes.filter fun x => !(decide (x.tag = tag) && x.msg.line == l)
      loads := k.loads.map fun x => if x.tag = tag then
        { x with
          lines := gotLine l 0 0 x.lines
          olds := x.olds ++ olds.map fun o => (o.lane, o.val)
          skipped := x.skipped || skipped } else x }
    let s := s.setCore c k
    if skipped && !w.quiet then lateFault s c w.slot w.gidx causePoison (w.skippedVa olds) w.pc else s

/-! ## The near partition beneath a core (R263, R264) -/

/-- Whether a core's access to a line goes through the near partition beneath it: the line's home is elsewhere and near
copies are kept (R22, R224, R263). -/
def nearPath (s : State) (c : Nat) (l : Line) : Bool :=
  decide (homeSlice l ≠ sliceOfCore s c) && decide (nearWays s ≠ 0)

/-- Whether a core runs a command of a class-0 step, whose requests travel on VC0 (R259). -/
def coreCls0 (s : State) (k : Core) : Bool :=
  match k.cmd with
  | none => false
  | some c => match findStep s c.step with
    | some t => decide (t.cls = 0)
    | none => false

/-- A load that hits in a near partition (R263, R264): the line goes to the core; a read-only fill downgrades a dirty
line and names its site to the home. -/
def nearServe (s : State) (c : Nat) (l : Line) (fn : Fn) (tclass : BitVec 3) (lat : Bool) (ro : Bool) (tag : Nat) : State :=
  let b := sliceOfCore s c
  let n := nearLine s b l
  let marks : Marks := if n.disc && strictDiscard s then 15 else n.marks
  let s := if n.disc then countDiscard s fn b tclass else countReq s fn b tclass 0
  let m := bareMsg (agentNear b) (agentHome (homeSlice l)) (siteOfCore s c) l fn tclass lat (coreCls0 s (s.core c)) tag
  let s := if ro && n.st == 2 then post s .dwn { m with data := n.data, mask := BitVec.allOnes 512, marks := n.marks } else s
  let s := if ro then post s .pres m else s
  let s := (setNear s b l { n with
    st := if ro then 1 else n.st
    pres := if ro then n.pres + 1 else n.pres
    down := n.down || (ro && n.st == 2)
    use := s.stamp + 1 }).tickStamp
  arriveLine s c tag ro l n.data (if ro then n.marks else marks) n.disc

/-- A store merged into a line that a near partition owns (R263, R266). -/
def nearMerge (s : State) (b : Nat) (m : Msg) : State :=
  let n := nearLine s b m.line
  (setNear s b m.line { n with
    data := lineMerge n.data m.data m.mask
    marks := mergeMarks n.marks m.marks m.mask
    disc := false
    use := s.stamp + 1 }).tickStamp

/-- Whether a store waits at a near partition for ownership of a line. -/
def storeWaits (s : State) (b : Nat) (l : Line) : Bool :=
  s.coh.nearWait.any fun w => decide (w.slice.val = b) && w.kind == .wr && w.msg.line == l

/-- Adds a waiting request at a port. -/
def addWait (s : State) (b : Nat) (kind : MsgKind) (m : Msg) (sent : Bool) : State :=
  { s with coh := { s.coh with nearWait := s.coh.nearWait ++ [⟨Fin.ofNat 4 b, kind, m, sent, false⟩] } }

/-- A core requests a line for a load, a transfer or a read-only fill (R22, R263). -/
def requestLine (s : State) (c : Nat) (l : Line) (fn : Fn) (tclass : BitVec 3) (lat : Bool) (ro : Bool) (tag : Nat) : State :=
  let b := sliceOfCore s c
  let m := { bareMsg (agentNear b) (agentHome (homeSlice l)) (siteOfCore s c) l fn tclass lat (coreCls0 s (s.core c)) tag with
    hint := if ro then 1 else 0 }
  let st := (nearLine s b l).st
  if nearPath s c l && storeWaits s b l then addWait s b .rd m false
  else if nearPath s c l && (st == 1 || st == 2) then nearServe s c l fn tclass lat ro tag
  else post (addWait s b .rd m true) .rd m

/-- A write or atomic of a core that is dropped for good (R342, R376): its atomic's registers keep their values, the FINAL
writes held behind it go with it when the partner is unreachable, and its step faults. -/
def dropWrite (s : State) (c : Nat) (w : WriteRec) (cause : Nat) : State :=
  let k := s.core c
  let lost (x : WriteRec) : Bool := (decide (x.tag = w.tag) && x.msg.line == w.msg.line) ||
    (w.peer.isSome && x.fin && x.held && decide (w.tag < x.tag))
  let gone := k.writes.filter lost
  let k := { k with
    writes := k.writes.filter fun x => !lost x
    loads := k.loads.map fun x => if gone.any fun y => y.tag = x.tag then
      { x with lines := x.lines.map fun y => { y with got := true } } else x }
  let s := s.setCore c k
  match k.cmd with
  | some cmd => stepFault s cmd.step cause cmd.idx
  | none => s

/-- A core's write behind a window leaves through the partner's ports; `hint` of its message holds the partner. -/
def sendPeerWrite (s : State) (c : Nat) (w : WriteRec) (pk : PeerPacket) : State :=
  match (s.core c).cmd with
  | none => s
  | some cmd =>
    match peerSend s w.msg.hint.toNat pk cmd.step cmd.idx c w.tag w.msg.line with
    | some s => s
    | none => dropWrite s c w 0x25

/-- A core's write or atomic leaves it (R263): through a peer port, to the near partition that owns the line or asks for
it, or to the home. -/
def sendWrite (s : State) (c : Nat) (w : WriteRec) : State :=
  let b := sliceOfCore s c
  let l := w.msg.line
  if let some pk := w.peer then sendPeerWrite s c w pk
  else if w.kind == .wr && nearPath s c l && !l.host then
    if (nearLine s b l).st = 2 then
      ackWrite (nearMerge (countReq s w.msg.fn b w.msg.tclass 0) b w.msg) c w.tag l [] false
    else
      let first := !storeWaits s b l
      let s := addWait s b .wr w.msg first
      if first then post s .rdo { w.msg with data := 0, mask := 0, marks := 0 } else s
  else post s w.kind w.msg

/-! ## Holding (R220, R271, R275 to R277) -/

/-- Whether a transfer to device memory that has not read its span will write a line. -/
def outPending (k : Core) (tag : Nat) (l : Line) : Bool :=
  k.xfers.any fun x => x.out && decide (x.tag < tag) && x.lanes.any fun a => a.line == l

/-- Whether a load of a line stays at the core: behind a held write to it, behind an atomic that its near copy does not
show, or, for a read-only load, behind any write to it. -/
def lineHeld (s : State) (c : Nat) (k : Core) (tag : Nat) (ro : Bool) (l : Line) : Bool :=
  (k.writes.any fun w => decide (w.tag < tag) && w.msg.line == l &&
    (w.held || ro || (nearPath s c l && (w.kind == .atom || l.host)))) || outPending k tag l

/-- Whether the core has writes that are not acknowledged and were issued before a FINAL write (R277). -/
def earlierWrites (k : Core) (tag : Nat) : Bool :=
  (k.writes.any fun w => decide (w.tag < tag)) || k.xfers.any fun x => x.out && decide (x.tag < tag)

/-- Whether a write stays at the core: a FINAL write until every earlier write is acknowledged; a write behind a held one,
a load not yet sent, or an atomic on its line. -/
def writeHeld (s : State) (c : Nat) (k : Core) (w : WriteRec) : Bool :=
  let l := w.msg.line
  (w.fin && earlierWrites k w.tag) ||
    (k.writes.any fun e => decide (e.tag < w.tag) && e.msg.line == l &&
      (e.held || (nearPath s c l && !l.host && w.kind == .wr && e.kind == .atom))) ||
    (k.loads.any fun x => decide (x.tag < w.tag) && x.lines.any fun y => y.line == l && !y.sent) ||
    (k.xfers.any fun x => !x.out && decide (x.tag < w.tag) && x.lines.any fun y => y.line == l && !y.sent) ||
    outPending k w.tag l

/-- Sends a held write that is no longer held. -/
def pumpWrite (s : State) (c : Nat) (w : WriteRec) : State :=
  let k := s.core c
  if (k.writes.any fun x => decide (x.tag = w.tag) && x.msg.line == w.msg.line && x.held) && !writeHeld s c k w then
    let k := { k with writes := k.writes.map fun x =>
      if x.tag = w.tag ∧ x.msg.line = w.msg.line then { x with held := false } else x }
    sendWrite (s.setCore c k) c w
  else s

/-- A line of a load or transfer is marked as requested. -/
def markSent (tag : Nat) (l : Line) (k : Core) : Core :=
  let f (ws : List LineWait) : List LineWait := ws.map fun w => if w.line = l then { w with sent := true } else w
  { k with
    loads := k.loads.map fun x => if x.tag = tag then { x with lines := f x.lines } else x
    xfers := k.xfers.map fun x => if x.tag = tag then { x with lines := f x.lines } else x }

/-- The sectors of a line that the lanes of a load need (R218). -/
def sectorsNeeded (width : Nat) (lanes : List LaneAddr) (l : Line) : Marks :=
  lanes.foldl (fun m a => if a.line = l then m ||| touched (maskOf a.off width) else m) 0

/-- A register of a free number among the 32 miss registers. -/
def freeMissReg (k : Core) : Option (Fin 32) :=
  ((List.range 32).map (Fin.ofNat 32)).find? fun n => !(k.miss.any fun m => m.no == n)

/-- Whether a read-only lookup can go on now (R219): the line hits, a register tracks it with a place for a waiter, or a
register is free. -/
def roReady (k : Core) (l : Line) : Bool :=
  (roLine k l).isSome || (k.miss.any fun m => m.line == l && decide (m.waiters.length < 16)) ||
    ((k.miss.all fun m => m.line != l) && (freeMissReg k).isSome)

/-- The marks that a read-only hit delivers: under STRICT_DISCARD every sector of a discarded line is marked (R243). -/
def roMarks (s : State) (r : RoLine) : Marks := if r.disc && strictDiscard s then 15 else r.marks

/-- The critical sector of a miss: the first that its load needs (R218). -/
def firstSector (need : Marks) : Fin 4 :=
  if need.getLsbD 0 then 0 else if need.getLsbD 1 then 1 else if need.getLsbD 2 then 2 else if need.getLsbD 3 then 3 else 0

/-- A read-only lookup of a load's line (R216, R218): a hit returns it, a miss joins the register that tracks the line or
takes a free one, which sends one request. -/
def roLookup (s : State) (c : Nat) (x : LoadRec) (need : Marks) (l : Line) : State :=
  let k := s.core c
  match roLine k l with
  | some r =>
    let k := { k with
      ro := sset (fun _ => RoLine.none) k.ro (lineKey l) { r with use := s.stamp + 1 }
      loads := k.loads.map fun y => if y.tag = x.tag then { y with lines := gotLine l r.data (roMarks s r) y.lines } else y }
    let s := if r.disc then countDiscard s x.fn (homeSlice l) x.tclass else s
    ((s.setCore c (markSent x.tag l k)).tickStamp).bump 0x3070 1 c 1
  | none =>
    if k.miss.any fun m => m.line == l then
      let k := { k with miss := k.miss.map fun m => if m.line = l then
        { m with need := m.need ||| need, waiters := m.waiters ++ [(x.slot, x.tag)] } else m }
      (s.setCore c (markSent x.tag l k)).bump 0x3070 3 c 1
    else match freeMissReg k with
      | none => s
      | some n =>
        let k := { k with miss := k.miss ++ [⟨n, l, need, firstSector need, false, 0, 0, 0, false, [(x.slot, x.tag)], false⟩] }
        requestLine ((s.setCore c (markSent x.tag l k)).bump 0x3070 2 c 1) c l x.fn x.tclass x.lat true x.tag

/-- Bytes per thread of a load's width. -/
def LoadRec.bytes (x : LoadRec) : Nat :=
  match x.width.toNat with
  | 1 => 1 | 2 => 2 | 3 => 4 | 4 => 8 | 5 => 16 | _ => 1

/-- Sends the request for a line of a load that is no longer held. -/
def pumpLine (s : State) (c : Nat) (x : LoadRec) (l : Line) : State :=
  let k := s.core c
  if lineHeld s c k x.tag x.ro l then s
  else if x.ro then (if roReady k l then roLookup s c x (sectorsNeeded x.bytes x.lanes l) l else s)
  else requestLine (s.setCore c (markSent x.tag l k)) c l x.fn x.tclass x.lat false x.tag

/-- Sends the request for a line of a transfer that is no longer held. -/
def pumpXfer (s : State) (c : Nat) (x : XferRec) (l : Line) : State :=
  let k := s.core c
  if lineHeld s c k x.tag false l then s
  else requestLine (s.setCore c (markSent x.tag l k)) c l x.fn x.tclass x.lat false x.tag

/-- Requests what loads and transfers may request. -/
def pumpLoads (s : State) (c : Nat) : State :=
  let k := s.core c
  let s := k.loads.foldl (fun s x => if x.ret then s
    else x.lines.foldl (fun s y => if y.sent then s else pumpLine s c x y.line) s) s
  k.xfers.foldl (fun s x => if x.out then s
    else x.lines.foldl (fun s y => if y.sent then s else pumpXfer s c x y.line) s) s

/-- Stamps the waits of LOAD groups whose load has arrived, or whose write is acknowledged (R117). -/
def Core.resolveLoads (k : Core) (at_ : Nat) : Core :=
  { k with groups := k.groups.map fun p =>
      if p.2.state = 2 ∧ p.2.cause = waitLoad ∧ p.2.resolved = none ∧
          (k.loads.all fun x => x.tag ≠ p.2.waitsOn) ∧ (k.writes.all fun w => w.tag ≠ p.2.waitsOn) then
        (p.1, p.2.resolve at_) else p }

/-- Sends from a core everything that nothing holds any more, then resolves its groups' waits and settles the end of its
command. -/
def pump (s : State) (c : Nat) : State :=
  let s := pumpLoads s c
  let s := (s.core c).writes.foldl (fun s w => if w.held then pumpWrite s c w else s) s
  let s := pumpLoads s c
  settleCore ((s.setCore c ((s.core c).resolveLoads s.stamp)).tickStamp) c

end Sys2Proof.Machine
end

