-- ==== Sys2Proof/Machine/Coherence.lean ====
section
/-!
DEFINITION. Coherence (R255 to R273): what the home, an owner, a holder of a copy and a requester do with each message, and the
rows of the messages that the module's own agents send.
-/
namespace Sys2Proof.Machine

/-! ## At the home -/

/-- The agent at a place of PRESENCE (R256, R332). -/
def placeAgent (i : Nat) : Nat := if i < 4 then agentNear i else i - 4

/-- The place of PRESENCE that an agent is. -/
def agentPlace (a : Nat) : Nat :=
  match portOf a with
  | some p => p.val
  | none => a + 4

/-- A reply from the receiver of a message to its sender; it repeats the number (R340). -/
def replyOf (m : Msg) : Msg :=
  { m with src := m.dst, dst := m.src, data := 0, mask := 0, marks := 0, ops := [], hint := 0, fin := false }

/-- Sends a line to the requester; `hint` 1 says that it carries a discard mark (R242). -/
def sendLine (s : State) (kind : MsgKind) (m : Msg) (data : LineData) (marks : Marks) (disc : Bool) : State :=
  postReply s kind { replyOf m with data := data, mask := BitVec.allOnes 512, marks := marks, hint := if disc then 1 else 0 }

/-- A presence vector with the places where the requester of a read keeps a copy (R256, R262). -/
def withRequester (s : State) (m : Msg) (p : BitVec 292) : BitVec 292 :=
  let p := match portOf m.src with
    | some b => if b.val ≠ homeSlice m.line ∧ nearWays s ≠ 0 then setBit p b.val true else p
    | none => p
  if m.hint = 1 ∧ m.req < 288 then setBit p (m.req + 4) true else p

/-- Sends a forward or a recall to the owner of a line, which holds it BUSY until the owner answers (R262). -/
def askOwner (s : State) (kind : MsgKind) (rk : MsgKind) (m : Msg) (h : HomeLine) : State :=
  let o := agentNear (ownerOf h)
  let s := s.bump 0x3072 4 (homeSlice m.line) 1
  let s := setHome s m.line { h with busy := some ⟨rk, m, [], some o, none⟩, use := s.stamp + 1 }
  post s.tickStamp kind { replyOf m with dst := o, hint := BitVec.ofNat 16 m.src }

/-- Invalidates the places of a list and holds the line BUSY until they have answered (R262, R264). -/
def askCopies (s : State) (rk : MsgKind) (m : Msg) (h : HomeLine) (ps : List Nat) : State :=
  let s := s.bump 0x3072 5 (homeSlice m.line) ps.length
  let s := setHome s m.line { h with busy := some ⟨rk, m, ps.map placeAgent, none, none⟩ }
  ps.foldl (fun s p => post s .inv { replyOf m with dst := placeAgent p }) s

/-- Reads an absent device line from memory and holds it BUSY until the line has come (R262, R304). -/
def askMemory (s : State) (rk : MsgKind) (m : Msg) : State :=
  let s := setHome s m.line { homeLine s m.line with busy := some ⟨rk, m, [], none, some m.line.no⟩ }
  queueRead s (homeSlice m.line) m.line.no m.lat

/-- A request for a host line that is absent waits for its read of host memory (R253, R392). -/
def askHost (s : State) (rk : MsgKind) (m : Msg) : State :=
  setHome s m.line { HomeLine.none with busy := some ⟨rk, m, [], none, none⟩ }

/-- Delivers a home's line to the requester of a read, counting it (R242, R251, R262). -/
def answerRead (s : State) (m : Msg) (fresh : Bool) : State :=
  let l := m.line
  let r := deliver (touchHome s l) m.fn m.tclass l fresh
  let s := r.2
  let h := homeLine s l
  let s := setHome s l { h with presence := withRequester s m h.presence }
  sendLine s .data m h.data h.marks (h.discarded && !l.host)

/-- Gives a line with ownership to a near partition (R262); the write that follows ends a discard (R241). -/
def grantLine (s : State) (m : Msg) : State :=
  let h := homeLine s m.line
  let s := sendLine s .grant m h.data h.marks false
  setHome s m.line { h with
    st := 3
    presence := setBit 0 (agentPlace m.src) true
    discarded := false
    use := s.stamp + 1 }

/-- Applies a write or an atomic whose line is ready and acknowledges it (R262, R266, R273). -/
def applyRequest (s : State) (kind : MsgKind) (m : Msg) (fresh : Bool) : State :=
  if kind = .wr then
    let s := applyHint (applyWrite s m.line m.fn m.data m.mask m.marks m.fin) m.line m.hint.toNat
    postReply s .ack (replyOf m)
  else
    let r := applyAtom (countAtom s m.line m.fn m.tclass fresh) m.line m.fn m.kind m.ops m.fin
    postReply r.2 .ack { replyOf m with ops := r.1.1, marks := if r.1.2 then 1 else 0 }

/-- The home serves a read (R262). -/
def serveRd (s : State) (m : Msg) : State :=
  let h := homeLine s m.line
  match h.st with
  | 0 => if m.line.host then askHost s .rd m else askMemory s .rd m
  | 3 => askOwner (countReq s m.fn (homeSlice m.line) m.tclass 1) .fwdRd .rd m h
  | _ => answerRead s m false

/-- The home serves a request for ownership (R262). -/
def serveRdo (s : State) (m : Msg) : State :=
  let l := m.line
  let s := countHome s m.fn m.tclass l
  let h := homeLine s l
  match h.st with
  | 0 => askMemory s .rdo m
  | 3 => askOwner s .fwdOwn .rdo m h
  | _ =>
    let others := (places h.presence).filter fun i => decide (placeAgent i ≠ m.src)
    if others.isEmpty then grantLine s m else askCopies s .rdo m h others

/-- The home serves a write or an atomic (R253, R262, R273). -/
def serveUpdate (s : State) (kind : MsgKind) (m : Msg) : State :=
  let l := m.line
  let s := if kind = .wr then countHome s m.fn m.tclass l else s
  let h := homeLine s l
  match h.st with
  | 0 =>
    if l.host then
      if kind = .wr then
        postReply (applyHint (hostForward s m.fn l.no m.data m.mask m.marks m.fin) l m.hint.toNat) .ack (replyOf m)
      else askHost s kind m
    else if kind = .wr ∧ m.mask = BitVec.allOnes 512 then applyRequest (prepWrite s l true m.lat) kind m true
    else askMemory s kind m
  | 3 => askOwner s .recall kind m h
  | _ =>
    let ps := places h.presence
    if ps.isEmpty then applyRequest s kind m false else askCopies s kind m h ps

/-- Whether a line lies outside the fast tier and outside pinned lines (R69): a miss on it voids a class-0 bound. -/
def outsideBound (s : State) (l : Line) : Bool := decide ((homeLine s l).st = 0) && (l.host || !fastLine l.no)

/-- The RESIDENCY check of a step's access to a line (R69, R238). -/
def checkResidency (s : State) (key : Nat) (l : Line) : State :=
  if outsideBound s l then
    match findStep s key with
    | some t => if t.cls = 0 then boundVoid s key 2 else s
    | none => s
  else s

/-- The RESIDENCY check of a request of a core. -/
def checkCore (s : State) (m : Msg) : State :=
  match coreOfSite s m.req with
  | none => s
  | some c =>
    match (s.core c).cmd with
    | some cmd => checkResidency s cmd.step m.line
    | none => s

/-- The home serves a request for a line that no transaction holds. -/
def serve (s : State) (kind : MsgKind) (m : Msg) : State :=
  let s := checkCore s m
  match kind with
  | .rd => serveRd s m
  | .rdo => serveRdo s m
  | _ => serveUpdate s kind m

/-- A request reaches its home (R268 to R271): one that finds the line BUSY conflicts; it queues, or in credit-retry mode is
refused unless it holds a credit. -/
def reachHome (s : State) (kind : MsgKind) (m : Msg) (port : Fin 4) : State :=
  let sl := homeSlice m.line
  if lineBusy s m.line then
    let s := s.bump 0x3072 1 sl 1
    if s.coh.raceMode = 0 ∨ m.credited then
      { s with coh := { s.coh with conflictQ := s.coh.conflictQ ++ [⟨kind, m⟩] } }
    else
      let s := s.bump 0x3072 3 sl 1
      let s := { s with coh := { s.coh with refused := s.coh.refused ++ [⟨port, kind, m, false⟩] } }
      postReply s .retry (replyOf m)
  else serve s kind m

/-- Serves the queued requests of a line in arrival order while no transaction holds it (R269, R270). -/
def serveQueue (l : Line) : Nat → State → State
  | 0, s => s
  | n + 1, s =>
    if lineBusy s l then s
    else match takeFirst (fun f : Flight => f.msg.line == l) s.coh.conflictQ with
      | none => s
      | some (f, rest) => serveQueue l n (serve { s with coh := { s.coh with conflictQ := rest } } f.kind f.msg)

/-- A transaction has every answer it waits for: its request completes and the queued requests follow (R262). A
transaction whose owner has served the requester is of kind ack: only invalidations are left of it. -/
def finishTxn (s : State) (t : Txn) (fresh : Bool) : State :=
  let l := t.msg.line
  let s := setHome s l { homeLine s l with busy := none }
  let s := match t.kind with
    | .rd => answerRead s t.msg fresh
    | .ack => s
    | .rdo => grantLine s t.msg
    | k => applyRequest (setHome s l { homeLine s l with presence := 0 }) k t.msg fresh
  serveQueue l s.coh.conflictQ.length s

/-- A line that its home read from memory is there: its transaction goes on once no invalidation is left (R262, R264). -/
def fillDone (s : State) (l : Line) (t : Txn) (data : LineData) (marks : Marks) (disc : Bool) : State :=
  let t := { t with fill := none }
  let s := insertHome s l { homeLine s l with
    st := 1
    data := data
    marks := marks
    discarded := disc
    busy := some t }
  if t.invs.isEmpty then finishTxn s t true else s

/-- A device line reaches the home that waits for it (R304, R316): a marked primary line of an ACTIVE entry is read from its
mirror first, latency-critical where the request was. -/
def fillArrives (s : State) (l : Line) (data : LineData) (marks : Marks) (disc : Bool) : State :=
  let h := homeLine s l
  match h.busy with
  | none => s
  | some t =>
    if t.fill = some l.no then
      match (if marks = 0 then none else mirrorFor s l.no) with
      | none => fillDone s l t data marks disc
      | some x =>
        let s := setHome s l { h with data := data, marks := marks, discarded := disc, busy := some { t with fill := some x } }
        queueRead s (homeSlice l) x t.msg.lat
    else if marks = 0 then fillDone (rewritePrimary s l.no data) l t data 0 h.discarded
    else fillDone s l t h.data h.marks h.discarded

/-! ## Packets that arrive twice (R341) -/

/-- Whether two messages are one packet of a sender. -/
def samePacket (a b : Msg) : Bool :=
  decide (a.src = b.src) && decide (a.dst = b.dst) && decide (a.seq = b.seq) && a.line == b.line

/-- Whether a packet is still being worked on where it went. -/
def inProgress (s : State) (m : Msg) : Bool :=
  (match (homeLine s m.line).busy with
    | some t => samePacket t.msg m
    | none => false) ||
    (s.coh.conflictQ.any fun f => samePacket f.msg m) || s.coh.accepted.any fun f => samePacket f.msg m

/-- What a destination does with a packet: one that it has answered is answered again from its record, one that it works on is
dropped, and any other has the effect `t`. -/
def once (s : State) (kind : MsgKind) (m : Msg) (t : State) : State :=
  match keptReply s kind m with
  | some r => launch s r.kind r.reply
  | none => if inProgress s m then s else t

/-! ## Requests -/

/-- Whether a slice accepts requests: its conflict queue has room (R269). -/
def sliceOpen (s : State) (sl : Nat) : Bool :=
  decide (s.coh.raceMode ≠ 0) ||
    decide ((s.coh.conflictQ.filter fun f => homeSlice f.msg.line = sl).length < 256)

/-- Whether a port holds its requests for a line behind a refused one, until that one has been accepted (R271). -/
def portHolds (s : State) (port : Fin 4) (m : Msg) : Bool :=
  !m.credited && ((s.coh.refused.any fun r => r.port == port && r.msg.line == m.line) ||
    s.coh.net.any fun f => f.msg.credited && isKept f.kind && decide (f.msg.src = m.src) && f.msg.line == m.line)

/-- Whether a line exists: a line of device memory, or of host memory below 2^64 (R286, R253). -/
def lineExists (l : Line) : Bool := if l.host then decide (l.no < 2 ^ 55) else decide (l.no < deviceLines)

/-- Whether a request may reach its home now: from a base die's port (R259, R332), in flight or sent now, to the line's home,
with the slice open to its virtual channel: a full conflict queue stops VC1 and VC3 (R269). -/
def requestOk (s : State) (kind : MsgKind) (m : Msg) : Bool :=
  (mayArrive s kind m || !inFlight s kind m) && (portOf m.src).isSome && decide (m.dst = agentHome (homeSlice m.line)) &&
    lineExists m.line && (m.cls0 || sliceOpen s (homeSlice m.line)) && !portHolds s ((portOf m.src).getD 0) m

/-- A request that is in flight leaves the network; another one is sent now and arrives: it takes its sender's next number and
a place in the retry buffer (R340). -/
def pickUp (s : State) (kind : MsgKind) (m : Msg) : Msg × State :=
  if inFlight s kind m then (m, taken s kind m)
  else
    let k := m.src * 1024 + m.dst
    let seq := sget (fun _ => 0) s.net.e2eSeq k
    let m := { m with seq := seq }
    (m, { s with net := { s.net with
      e2e := s.net.e2e ++ [⟨m.src, m.dst, seq, kind, m, 0, s.now⟩]
      e2eSeq := sset (fun _ => 0) s.net.e2eSeq k ((seq + 1) % 65536) } })

/-- A request at its home. -/
def onRequest (s : State) (kind : MsgKind) (m : Msg) : State :=
  once s kind m (reachHome s kind m ((portOf m.src).getD 0))

/-- A request reaches its home. -/
def requestRun (kind : MsgKind) (m : Msg) (s : State) : State :=
  let r := pickUp s kind m
  onRequest r.2 kind r.1

/-- RD (R262). -/
def execRd (m : Msg) (s : State) : Out := guarded (requestOk s .rd m) (requestRun .rd m s)

/-- RDO: from a near partition of another slice, never for a host line (R262, R263). -/
def execRdo (m : Msg) (s : State) : Out :=
  guarded (requestOk s .rdo m && !m.line.host && decide ((portOf m.src).map Fin.val ≠ some (homeSlice m.line)) &&
      decide (nearWays s ≠ 0)) (requestRun .rdo m s)

/-- WR (R262). -/
def execWr (m : Msg) (s : State) : Out := guarded (requestOk s .wr m) (requestRun .wr m s)

/-- ATOM (R262, R273). -/
def execAtom (m : Msg) (s : State) : Out := guarded (requestOk s .atom m) (requestRun .atom m s)

/-! ## PRES, DWN, WB and the answers at the home -/

/-- PRES (R264): the home records the site; during a transaction it also invalidates it and waits for its answer. -/
def onPres (s : State) (m : Msg) : State :=
  once s .pres m <|
    let h := homeLine s m.line
    let h := { h with presence := setBit h.presence (m.req + 4) true }
    let s := if h.st = 0 ∧ h.busy.isNone then s
      else match h.busy with
        | none => setHome s m.line h
        | some t =>
          let s := if t.kind == .rdo || t.kind == .wr || t.kind == .atom then s.bump 0x3072 5 (homeSlice m.line) 1 else s
          post (setHome s m.line { h with busy := some { t with invs := t.invs ++ [m.req] } }) .inv
            { replyOf m with dst := m.req }
    postReply s .presAck (replyOf m)

/-- The home takes the data of a DWN or WB while its sender owns the line, and acknowledges it (R262, R265). -/
def takeBack (s : State) (kind : MsgKind) (m : Msg) : State :=
  once s kind m <|
    let h := homeLine s m.line
    let s := if h.st = 3 ∧ agentNear (ownerOf h) = m.src then
        setHome s m.line { h with
          st := 2
          data := m.data
          marks := m.marks
          presence := setBit h.presence (agentPlace m.src) (kind == .dwn) }
      else s
    postReply s .wbAck (replyOf m)

/-- Whether a transaction waits for nothing any more. -/
def Txn.over (t : Txn) : Bool := t.invs.isEmpty && t.owner.isNone && t.fill.isNone

/-- INV_ACK: the transaction waits for one place less (R262). -/
def onInvAck (s : State) (m : Msg) : State :=
  if awaited s .invAck m then
    let s := closeE2e s .invAck m
    let h := homeLine s m.line
    match h.busy with
    | none => s
    | some t =>
      let t := { t with invs := t.invs.erase m.src }
      let s := setHome s m.line { h with
        busy := some t
        presence := setBit h.presence (agentPlace m.src) false }
      if t.over && decide (h.st ≠ 0) then finishTxn s t false else s
  else s

/-- OWN_DATA: the owner's part of an FWD_RD or a RECALL is done (R262). -/
def onOwnData (s : State) (m : Msg) : State :=
  if awaited s .ownData m then
    let s := closeE2e s .ownData m
    let h := homeLine s m.line
    match h.busy with
    | none => s
    | some t =>
      let rd := t.kind == .rd
      let p := if rd then withRequester s t.msg (setBit h.presence (agentPlace m.src) true)
        else setBit h.presence (agentPlace m.src) false
      let t' := { t with
        owner := none
        kind := if rd then .ack else t.kind }
      let s := setHome s m.line { h with
        st := 2
        data := m.data
        marks := m.marks
        presence := p
        busy := some t' }
      if t'.over then finishTxn s t' false else s
  else s

/-- OWN_DONE: the owner passed the line on; the requester owns it (R262). -/
def onOwnDone (s : State) (m : Msg) : State :=
  if awaited s .ownDone m then
    let s := closeE2e s .ownDone m
    let h := homeLine s m.line
    match h.busy with
    | none => s
    | some t =>
      let t' := { t with
        owner := none
        kind := .ack }
      let s := setHome s m.line { h with
        st := 3
        presence := setBit 0 (agentPlace t.msg.src) true
        busy := some t' }
      if t'.over then finishTxn s t' false else s
  else s

/-! ## At a holder of a copy -/

/-- Whether a GRANT of a line is on its way to an agent. -/
def grantTo (s : State) (agent : Nat) (l : Line) : Bool :=
  s.coh.net.any fun f => f.kind == .grant && decide (f.msg.dst = agent) && f.msg.line == l

/-- Whether the near partition that accepted an INV, a forward or a recall answers it now: an INV and what drops the copy once
its PRES messages are acknowledged (R264; DEDUCED for FWD_OWN and RECALL, log entry 13), a forward or recall once the GRANT
that it follows has come. -/
def mayAnswer (s : State) (kind : MsgKind) (m : Msg) : Bool :=
  match portOf m.dst with
  | none => true
  | some b => (kind == .fwdRd || decide ((nearLine s b.val m.line).pres = 0)) && (kind == .inv || !grantTo s m.dst m.line)

/-- A near partition gives up a line; its write-back buffer keeps its data until WB_ACK (R265). -/
def giveUp (s : State) (b : Nat) (l : Line) : State :=
  if (nearLine s b l).st = 3 then s else setNear s b l NearLine.none

/-- A holder answers an INV, a forward or a recall (R262, R264, R265). -/
def answerHome (s : State) (kind : MsgKind) (m : Msg) : State :=
  let b := ((portOf m.dst).getD 0).val
  let n := nearLine s b m.line
  let line := { m with data := n.data, mask := BitVec.allOnes 512, marks := n.marks, hint := 0, src := m.dst }
  match kind with
  | .fwdRd =>
    let s := setNear s b m.line { n with st := if n.st = 2 then 1 else n.st }
    postReply (postReply s .data { line with dst := m.hint.toNat }) .ownData { line with dst := m.src }
  | .fwdOwn => postReply (postReply (giveUp s b m.line) .grant { line with dst := m.hint.toNat }) .ownDone (replyOf m)
  | .recall => postReply (giveUp s b m.line) .ownData { line with dst := m.src }
  | _ => postReply (dropPlace s m.line (agentPlace m.dst)) .invAck (replyOf m)

/-- An INV, a forward or a recall reaches a holder, which accepts it at once and answers it when it may (R261). -/
def onHolder (s : State) (kind : MsgKind) (m : Msg) : State :=
  once s kind m <|
    if mayAnswer s kind m then answerHome s kind m
    else { s with coh := { s.coh with accepted := s.coh.accepted ++ [⟨kind, m⟩] } }

/-- A holder answers the messages about a line that it has accepted and may answer now. -/
def answerAccepted (l : Line) : Nat → State → State
  | 0, s => s
  | n + 1, s =>
    match takeFirst (fun f : Flight => f.msg.line == l && mayAnswer s f.kind f.msg) s.coh.accepted with
    | none => s
    | some (f, rest) => answerAccepted l n (answerHome { s with coh := { s.coh with accepted := rest } } f.kind f.msg)

/-- PRES_ACK (R264). -/
def onPresAck (s : State) (m : Msg) : State :=
  if awaited s .presAck m then
    let s := closeE2e s .presAck m
    match portOf m.dst with
    | none => s
    | some b =>
      let n := nearLine s b.val m.line
      let s := setNear s b.val m.line { n with pres := n.pres - 1 }
      answerAccepted m.line s.coh.accepted.length s
  else s

/-- WB_ACK (R265): the write-back buffer frees; a downgraded line is the home's. -/
def onWbAck (s : State) (m : Msg) : State :=
  if awaited s .wbAck m then
    let s := closeE2e s .wbAck m
    match portOf m.dst with
    | none => s
    | some b =>
      let n := nearLine s b.val m.line
      if n.st = 3 then setNear s b.val m.line NearLine.none else setNear s b.val m.line { n with down := false }
  else s

/-! ## At the requester -/

/-- A reply closes its request: it leaves the retry buffer, and a credit returns with the final response (R270, R340). -/
def closeRequest (s : State) (kind : MsgKind) (m : Msg) : State :=
  let s := closeE2e s kind m
  if m.credited then
    match portOf m.dst with
    | some p =>
      let k := p.val * 4 + homeSlice m.line
      { s with coh := { s.coh with
          credits := sset (fun _ => 0) s.coh.credits k (sget (fun _ => 0) s.coh.credits k - 1) } }
    | none => s
  else s

/-- The core at the end of a reply: the logical core that its final requester's site serves. -/
def replyCore (s : State) (m : Msg) : Option Nat := coreOfSite s m.req

/-- Takes the read that a DATA answers out of the requests that wait at a port. -/
def takeRead (s : State) (b : Fin 4) (m : Msg) : Option (NearWait × List NearWait) :=
  takeFirst (fun w : NearWait => w.slice == b && w.kind == .rd && w.msg.line == m.line && w.msg.tag == m.tag &&
    w.msg.req == m.req) s.coh.nearWait

/-- DATA reaches the port (R262, R263): the near partition keeps the line where an invalidation has not met the request, and
the line goes to its core; a read-only cache keeps its discard mark (R242). -/
def onData (s : State) (m : Msg) : State :=
  if awaited s .data m then
    let s := closeRequest s .data m
    match portOf m.dst with
    | none => s
    | some b =>
      match takeRead s b m with
      | none => s
      | some (w, rest) =>
        let s := { s with coh := { s.coh with nearWait := rest } }
        let keep := decide (b.val ≠ homeSlice m.line) && decide (nearWays s ≠ 0) && !w.drop &&
          decide ((nearLine s b.val m.line).st = 0)
        let s := if keep then
            insertNear s b.val m.line { NearLine.none with st := 1, data := m.data, marks := m.marks, disc := m.hint == 1 }
          else s
        let ro := w.msg.hint == 1
        let marks : Marks := if m.hint = 1 ∧ strictDiscard s ∧ ro = false then 15 else m.marks
        match replyCore s m with
        | none => s
        | some c => pump (arriveLine s c m.tag ro m.line m.data marks (m.hint == 1)) c
  else s

/-- Serves the requests that waited at a near partition for ownership of a line, in order (R263). Each store that did not ask
for the ownership itself counts as a hit of the partition (R251). -/
def serveWaits (b : Nat) (l : Line) : List NearWait → State → State
  | [], s => s
  | w :: t, s =>
    let s := match coreOfSite s w.msg.req with
      | none => s
      | some c =>
        if w.kind = .wr then
          let s := if w.sent then s else countReq s w.msg.fn b w.msg.tclass 0
          ackWrite (nearMerge s b w.msg) c w.msg.tag l [] false
        else nearServe s c l w.msg.fn w.msg.tclass w.msg.lat (w.msg.hint == 1) w.msg.tag
    serveWaits b l t s

/-- GRANT reaches a near partition: it owns the line, merges the stores that wait and acknowledges them (R263, R266); then it
answers what it accepted before. -/
def onGrant (s : State) (m : Msg) : State :=
  if awaited s .grant m then
    let s := closeRequest s .grant m
    let b := ((portOf m.dst).getD 0).val
    let mine (w : NearWait) : Bool := decide (w.slice.val = b) && w.msg.line == m.line && (w.kind == .wr || !w.sent)
    let ws := s.coh.nearWait.filter mine
    let s := { s with coh := { s.coh with nearWait := s.coh.nearWait.filter fun w => !mine w } }
    let o := nearLine s b m.line
    let n := { NearLine.none with st := 2, data := m.data, marks := m.marks, pres := o.pres, down := o.down }
    let s := if o.st = 1 then setNear s b m.line { n with use := s.stamp } else insertNear s b m.line n
    let s := serveWaits b m.line ws s
    let s := (ws.filterMap fun w => coreOfSite s w.msg.req).eraseDups.foldl pump s
    answerAccepted m.line s.coh.accepted.length s
  else s

/-- ACK of a home (R266): a write or atomic of a core is acknowledged. -/
def onAck (s : State) (m : Msg) : State :=
  if awaited s .ack m then
    let s := closeRequest s .ack m
    match replyCore s m with
    | none => s
    | some c => pump (ackWrite s c m.tag m.line m.ops (m.marks != 0)) c
  else s

/-- RETRY reaches the port (R270). -/
def onRetry (s : State) (m : Msg) : State :=
  if awaited s .retry m then
    let s := closeE2e s .retry m
    { s with coh := { s.coh with
        refused := updFirst (fun r => samePacket r.msg { m with src := m.dst, dst := m.src } && !r.told)
          (fun r => { r with told := true }) s.coh.refused } }
  else s

/-! ## Arrival -/

/-- A message in flight arrives. -/
def arrive (s : State) (f : Flight) : State :=
  let m := f.msg
  let s := taken s f.kind m
  match f.kind with
  | .rd | .rdo | .wr | .atom => onRequest s f.kind m
  | .pres => onPres s m
  | .dwn | .wb => takeBack s f.kind m
  | .inv | .fwdRd | .fwdOwn | .recall => onHolder s f.kind m
  | .data => onData s m
  | .grant => onGrant s m
  | .ack => onAck s m
  | .invAck => onInvAck s m
  | .presAck => onPresAck s m
  | .wbAck => onWbAck s m
  | .ownData => onOwnData s m
  | .ownDone => onOwnDone s m
  | .retry => onRetry s m

/-- The row of a message that one of the module's own agents has sent. -/
def arriveRun (kind : MsgKind) (m : Msg) (s : State) : Out := guarded (mayArrive s kind m) (arrive s ⟨kind, m⟩)

/-- PRES. -/
def execPres (m : Msg) (s : State) : Out := arriveRun .pres m s
/-- DWN. -/
def execDwn (m : Msg) (s : State) : Out := arriveRun .dwn m s
/-- WB. -/
def execWb (m : Msg) (s : State) : Out := arriveRun .wb m s
/-- INV. -/
def execInv (m : Msg) (s : State) : Out := arriveRun .inv m s
/-- FWD_RD. -/
def execFwdRd (m : Msg) (s : State) : Out := arriveRun .fwdRd m s
/-- FWD_OWN. -/
def execFwdOwn (m : Msg) (s : State) : Out := arriveRun .fwdOwn m s
/-- RECALL. -/
def execRecall (m : Msg) (s : State) : Out := arriveRun .recall m s
/-- DATA. -/
def execData (m : Msg) (s : State) : Out := arriveRun .data m s
/-- GRANT. -/
def execGrant (m : Msg) (s : State) : Out := arriveRun .grant m s
/-- INV_ACK. -/
def execInvAck (m : Msg) (s : State) : Out := arriveRun .invAck m s
/-- PRES_ACK. -/
def execPresAck (m : Msg) (s : State) : Out := arriveRun .presAck m s
/-- WB_ACK. -/
def execWbAck (m : Msg) (s : State) : Out := arriveRun .wbAck m s
/-- OWN_DATA. -/
def execOwnData (m : Msg) (s : State) : Out := arriveRun .ownData m s
/-- OWN_DONE. -/
def execOwnDone (m : Msg) (s : State) : Out := arriveRun .ownDone m s
/-- RETRY. -/
def execRetry (m : Msg) (s : State) : Out := arriveRun .retry m s

/-- The port resends a refused request with one of its 32 credits at the home, ahead of its later requests for the line
(R270, R271); one of its sender's 64 places must be free (R340). -/
def execCreditedResend (port : Fin 4) (line : Line) (s : State) : Out :=
  let k := port.val * 4 + homeSlice line
  let used := sget (fun _ => 0) s.coh.credits k
  match takeFirst (fun r : Refused => r.port == port && r.msg.line == line && r.told) s.coh.refused with
  | none => cannot
  | some (r, rest) =>
    guarded (decide (used < 32) && decide (unanswered s r.msg.src r.msg.dst < 64)) <|
      let s := sendKept { s with coh := { s.coh with
          refused := rest
          credits := sset (fun _ => 0) s.coh.credits k (used + 1) } } r.kind { r.msg with credited := true }
      { s with coh := { s.coh with net := s.coh.net.getLast?.toList ++ s.coh.net.dropLast } }

end Sys2Proof.Machine
end

