-- ==== Sys2Proof/Machine/Settle.lean ====
section
/-!
DEFINITION. The order of engines' accesses against the messages of cores about a line (R262, R268 to R270, R279; log entry 13):
an access that finds a line BUSY conflicts and is served after the transactions before it.
-/
namespace Sys2Proof.Machine

/-- Takes the read of a line out of its controller, with its grant where it still waited (R293). -/
def dropRead (s : State) (no : Nat) : State :=
  let ch := chanOf s no
  let c := ctrlOf s ch
  let isRead (o : CtrlOp) : Bool := (o.kind == .read || o.kind == .fix) && decide (o.line = no)
  match takeFirst isRead c.active, takeFirst isRead c.lc, takeFirst isRead c.rd with
  | some (_, rest), _, _ => setCtrl s ch { c with active := rest }
  | none, some (_, rest), _ => passGrant (setCtrl s ch { c with lc := rest }) ch 0
  | none, none, some (_, rest) => passGrant (setCtrl s ch { c with rd := rest }) ch 1
  | none, none, none => s

/-- A read that a home waits for comes back without an array error. -/
def forceFill (s : State) (l : Line) (no : Nat) : State :=
  let r := ctrlRead s no
  let s := crossCtrl (dropRead s no) (homeSlice l) no false 3 32
  fillArrives s l r.1 r.2 (memDiscard s no)

/-- Whether every transaction on a line is over. -/
def settled (s : State) (l : Line) : Bool := !lineBusy s l && !unsettled s l

/-- The next thing that happens to a line whose transactions are not over: a message that is no request arrives, a fill comes
back, or a request that stands before such a message arrives. -/
def settleStep (s : State) (l : Line) : Option State :=
  match s.coh.net.find? fun f => f.msg.line == l && !isKept f.kind && mayArrive s f.kind f.msg with
  | some f => some (arrive s f)
  | none =>
    match ((homeLine s l).busy.map Txn.fill).join with
    | some no => some (forceFill s l no)
    | none => (s.coh.net.find? fun f => f.msg.line == l && mayArrive s f.kind f.msg).map (arrive s)

/-- Goes on with a line until its transactions are over. -/
def settleGo (l : Line) : Nat → State → State
  | 0, s => s
  | n + 1, s =>
    if settled s l then s
    else match settleStep s l with
      | none => s
      | some s => settleGo l n s

/-- Counts the conflict of an access that finds a line BUSY, and in credit-retry mode its refusal (R268, R270). -/
def countConflict (s : State) (l : Line) : State :=
  if lineBusy s l then
    let s := s.bump 0x3072 1 (homeSlice l) 1
    if s.coh.raceMode = 0 then s else s.bump 0x3072 3 (homeSlice l) 1
  else s

/-- An engine's access takes its place behind the transactions on a line. A line that waits for host memory stays BUSY. -/
def settle (s : State) (l : Line) : State :=
  let s := countConflict s l
  settleGo l (64 + 16 * (s.coh.net.length + s.coh.conflictQ.length + s.coh.nearWait.length)) s

end Sys2Proof.Machine
end

