-- ==== Sys2Proof/Machine/MemRows.lean ====
section
/-!
DEFINITION. The rows of the memory controllers (R292, R293, R304 to R307), mirror copies (R314), lost channels (R298 to R300)
and reads of host memory (R312, R392).
-/
namespace Sys2Proof.Machine

/-! ## Corrections (R303, R304, R307) -/

/-- The index of the CE table entry that a decode on a code page uses, and whether it replaces another (R307): the
page's own, a free one, else the one of lowest COUNT and oldest LAST_NS. -/
def ceSlot (s : State) (tab page : Nat) : Nat × Bool :=
  let e (i : Nat) : Nat := s.obj 0x4050 tab i
  let count (i : Nat) : Nat := bits (e i) 64 32
  match (List.range 64).find? fun i => decide (count i ≠ 0) && decide (bits (e i) 0 64 = page) with
  | some i => (i, false)
  | none =>
    match (List.range 64).find? fun i => decide (count i = 0) with
    | some i => (i, false)
    | none =>
      let older (i j : Nat) : Bool := decide (count j < count i) ||
        (decide (count j = count i) && decide (bits (e j) 192 64 < bits (e i) 192 64))
      ((List.range 64).foldl (fun i j => if older i j then j else i) 0, true)

/-- An entry of a CE table (R307). -/
def ceEntry (page count most chan first last : Nat) : Nat :=
  page + 2 ^ 64 * (count + 2 ^ 32 * (most + 2 ^ 16 * (chan + 2 ^ 16 * (first + 2 ^ 64 * last))))

/-- Counts a correctable decode of `symbols` symbols on the code page of a line (R307). -/
def countCe (s : State) (no symbols : Nat) : State :=
  let tier := tierOf no
  let page := no / 4 * 2048
  let r := ceSlot s (1 + tier) page
  let old := s.obj 0x4050 (1 + tier) r.1
  let listed := decide (bits old 64 32 ≠ 0) && !r.2
  let chan := chanOf s no - (if tier = 0 then 0 else 128)
  let new := if listed then
      ceEntry page (satAdd 32 (bits old 64 32) 1) (max (bits old 96 16) symbols) chan (bits old 128 64) s.now
    else ceEntry page 1 symbols chan s.now s.now
  let s := (s.bump 0x3080 1 tier 1).setObj 0x4050 (1 + tier) r.1 new
  if r.2 then s.bump 0x4050 3 tier 1 else s

/-- Inverts bits of a code page as it is stored: its data, its marks and its discard marks (R301). -/
def applyFlips (s : State) (page flips : Nat) : State :=
  let s := flipData s page flips
  (List.range 4).foldl (fun s i =>
    let no := 4 * page + i
    let m : Marks := BitVec.ofNat 4 (bits flips (16512 + 4 * i) 4)
    let s := if m = 0 then s else setMarks s no (memMarks s no ^^^ m)
    if bit flips (16528 + i) then
      { s with mem := { s.mem with
          discard := sset (fun _ => false) s.mem.discard no !(sget (fun _ => false) s.mem.discard no) } }
    else s) s

/-- A code page cannot be corrected (R304): it is written back as it was read, with the four marks of each line that fails its
CRC, `keep` excepted; the error is counted and logged. -/
def uncorrectable (s : State) (page flips : Nat) (keep : Nat → Bool) : State :=
  let bad := ((failedCrcs flips).map fun i => 4 * page + i).filter fun no => !keep no
  let s := bad.foldl (fun s no => setMarks s no 15) (applyFlips s page flips)
  memRecord (s.bump 0x3080 2 (tierOf (4 * page)) 1) 0x5D (4 * page) 0

/-- A decode of a code page whose array returned `flips` (R304): whether it was correctable, and the code page written back. -/
def decodePage (s : State) (page flips : Nat) (keep : Nat → Bool) : Bool × State :=
  match decodeFlips (correctable s (tierOf (4 * page))) flips with
  | some (n, left) => (true, countCe (applyFlips s page left) (4 * page) n)
  | none => (false, uncorrectable s page flips keep)

/-- A read of a code page outside the homes' reads, which the array answers with `flips` (R304): corrected, or marked, where a line
of it fails its CRC. -/
def touchPage (s : State) (page : Nat) (err : Option ArrayErr) : State :=
  match err with
  | none => s
  | some e => if pageLost s (4 * page) || (failedCrcs e.flips.toNat).isEmpty then s else (decodePage s page e.flips.toNat fun _ => false).2

/-! ## Grants (R292, R293) -/

/-- A controller without the operation that a grant of a queue takes. -/
def Ctrl.take (c : Ctrl) (q : Nat) : Ctrl :=
  let c := { c with last := (q :: c.last).take 64 }
  match q with
  | 0 => { c with lc := c.lc.tail }
  | 1 => { c with rd := c.rd.tail }
  | 2 => { c with wr := c.wr.tail }
  | _ => { c with mt := c.mt.tail }

/-- The job of a slow-tier channel's remapping. -/
def remapJob (chan : Nat) : Nat := 1000 + chan

/-- The job of a replica entry's mirror copy. -/
def mirrorJob (entry : Nat) : Nat := 16 + entry

/-- Whether code pages of a job wait at a controller. -/
def jobOpen (s : State) (job : Nat) : Bool := s.mem.ctrl.any fun p => p.2.mt.any fun o => o.kind == .pages && decide (o.job = job)

/-- The code pages of a job leave the controllers. -/
def dropJob (s : State) (job : Nat) : State :=
  (s.mem.ctrl.map Prod.fst).foldl (fun s ch =>
    let c := ctrlOf s ch
    setCtrl s ch { c with mt := c.mt.filter fun o => !(o.kind == .pages && decide (o.job = job)) }) s

/-- Puts code pages of a job into the MT queues: `counts` by channel. -/
def putJob (s : State) (job : Nat) (counts : Sparse Nat) : State :=
  counts.foldl (fun s p => (setCtrl s p.1 ((ctrlOf s p.1).put 3 ⟨.pages, 0, s.stamp, 0, 0, false, job, p.2⟩)).tickStamp) s

/-- The code pages of `n` pages from an address, by channel. -/
def rangePages (s : State) (base n : Nat) : Sparse Nat :=
  (List.range (32 * n)).foldl (fun m i =>
    let ch := chanOf s (base / 512 + 4 * i)
    sset (fun _ => 0) m ch (sget (fun _ => 0) m ch + 1)) []

/-- The lines of both copies of an entry that lie on a channel, each with the line that restores it (R298). -/
def restorable (s : State) (ch i : Nat) : List (Nat × Nat) :=
  ((List.range (repPages s i * 128)).map fun k => (repPrimary s i / 512 + k, repMirror s i / 512 + k)).flatMap fun p =>
    (if channelOf p.1 = ch then [(p.1, p.2)] else []) ++ (if channelOf p.2 = ch then [(p.2, p.1)] else [])

/-- Lines of ACTIVE replicated regions on a remapped channel come back from their other copy (R298, R299). -/
def restoreLines (s : State) (ch : Nat) : State :=
  let act := (List.range 64).filter fun i => s.obj 0x2051 2 i = 2
  (act.flatMap (restorable s ch)).foldl (fun s p =>
    let r := ctrlRead s p.2
    ctrlWrite s p.1 r.1 r.2) s

/-- A remapping has passed the controllers (R299). -/
def endRemap (s : State) (job : Nat) : State :=
  if 1000 ≤ job ∧ !jobOpen s job then restoreLines (s.setObj 0x4050 5 (128 + (job - 1000)) 2) (128 + (job - 1000)) else s

/-- A controller grants a slot: a line's operation holds it until its row; code pages pass one at a time. -/
def grantRun (s : State) (ch q : Nat) : State :=
  let c := ctrlOf s ch
  match c.queue q with
  | [] => s
  | o :: _ =>
    let d := c.take q
    let s := countGrant s ch q (guardPick c).isSome
    if o.kind = .pages then
      let d := if 1 < o.left then { d with mt := { o with left := o.left - 1 } :: d.mt } else d
      endRemap (setCtrl s ch d) o.job
    else setCtrl s ch { d with active := d.active ++ [o] }

/-- CONTROLLER_GRANT (R293): counts LC grants and grants under rule 1 per tier. -/
def execControllerGrant (chan : Fin 224) (s : State) : Out :=
  let c := ctrlOf s chan.val
  match grantPick c (slotsOf chan.val) with
  | none => cannot
  | some q => guarded (decide (c.active.length < slotsOf chan.val)) (grantRun s chan.val q)

/-! ## Line operations (R304 to R306) -/

/-- Whether no earlier operation on the code page of one waits at its controller (R306). -/
def firstOnPage (c : Ctrl) (o : CtrlOp) : Bool :=
  (c.lc ++ c.rd ++ c.wr ++ c.active).all fun x => decide (x.line / 4 ≠ o.line / 4) || decide (o.at_ ≤ x.at_)

/-- The operation of a line that holds a slot and may be done now, and its controller without it. -/
def slotOp (s : State) (no : Nat) (p : CtrlOp → Bool) : Option (CtrlOp × Ctrl) :=
  let c := ctrlOf s (chanOf s no)
  match takeFirst (fun o : CtrlOp => p o && decide (o.line = no)) c.active with
  | none => none
  | some (o, rest) => if firstOnPage c o then some (o, { c with active := rest }) else none

/-- Whether a controller may work for this message: its line is device memory and its sender a home (R292). -/
def ctrlMsg (m : Msg) : Bool :=
  !m.line.host && decide (m.line.no < deviceLines) && (List.range 4).any fun k => decide (m.src = agentHome k)

/-- The home that waits for a device line from memory. -/
def waitingHome (s : State) (no : Nat) : Option Line :=
  (s.coh.home.find? fun p => match p.2.busy with
    | some t => decide (t.fill = some no)
    | none => false).map fun p => keyLine p.1

/-- A controller returns a line to the home that waits for it. -/
def returnLine (s : State) (no : Nat) (r : LineData × Marks) (disc : Bool) : State :=
  match waitingHome s no with
  | none => s
  | some l => fillArrives (crossCtrl s (homeSlice l) no false 3 32) l r.1 r.2 disc

/-- A line as the array returns it, with the bits that came back inverted. -/
def flippedLine (s : State) (no flips : Nat) : LineData × Marks :=
  (memData s no ^^^ BitVec.ofNat 4096 (bits flips (4096 * (no % 4)) 4096),
    memMarks s no ^^^ BitVec.ofNat 4 (bits flips (16512 + 4 * (no % 4)) 4))

/-- What a controller makes of a line read (R304): a line whose CRC matches goes back with its marks; one that fails is read again
with its whole code page, by a correction read in the queue of the first; that read corrects the code page, or marks it and
returns the line with every mark. -/
def readRun (s : State) (o : CtrlOp) (flips : Nat) : State :=
  let no := o.line
  let disc := sget (fun _ => false) s.mem.discard no
  if pageLost s no then returnLine s no (ctrlRead s no) disc
  else if o.kind = .read then
    if crcFails flips (no % 4) then
      setCtrl s (chanOf s no) ((ctrlOf s (chanOf s no)).put (if o.lat then 0 else 1) { o with kind := .fix })
    else returnLine s no (flippedLine s no flips) (disc ^^ bit flips (16528 + no % 4))
  else
    let r := decodePage s (no / 4) flips fun _ => false
    let disc := sget (fun _ => false) r.2.mem.discard no
    returnLine r.2 no (memData r.2 no, if r.1 then memMarks r.2 no else 15) disc

/-- The bits that the array inverted. -/
def errFlips (err : Option ArrayErr) : Nat :=
  match err with
  | none => 0
  | some e => e.flips.toNat

/-- LINE_READ (R304): `err` is what the array returned. -/
def execLineRead (m : Msg) (err : Option ArrayErr) (s : State) : Out :=
  match slotOp s m.line.no fun o => o.kind == .read || o.kind == .fix with
  | none => cannot
  | some (o, c) => guarded (ctrlMsg m) (readRun (setCtrl s (chanOf s o.line) c) o (errFlips err))

/-- What a controller makes of a line write (R305): where the old line fails its CRC, the code page is corrected first, or each
other line that fails is marked; then the line and its marks are written and its discard bit is cleared. The check bytes follow
the stored contents (`pageMeta`). -/
def ctrlWriteRun (s : State) (o : CtrlOp) (flips : Nat) : State :=
  let no := o.line
  let s := if crcFails flips (no % 4) && !pageLost s no then (decodePage s (no / 4) flips fun x => decide (x = no)).2 else s
  ctrlWrite s no o.data o.marks

/-- LINE_WRITE (R305): a write of a home that holds a slot. -/
def execLineWrite (m : Msg) (err : Option ArrayErr) (s : State) : Out :=
  match slotOp s m.line.no fun o => o.kind == .write && o.data == m.data && o.marks == m.marks with
  | none => cannot
  | some (o, c) => guarded (ctrlMsg m) (ctrlWriteRun (setCtrl s (chanOf s o.line) c) o (errFlips err))

/-- MARK_ONLY_UPDATE (R241, R305): the discard mark of a line that left its home, or of one that no home held, is set in
memory. -/
def execMarkOnlyUpdate (line : Nat) (s : State) : Out :=
  match slotOp s line fun o => o.kind == .mark with
  | none => cannot
  | some (o, c) =>
    let s := setCtrl s (chanOf s o.line) c
    .next (if pageLost s line then s else setDiscard s line)

/-! ## Mirrors and lost channels -/

/-- Copies `n` lines of memory with their marks (R311, R314). -/
def copyLines (s : State) (src dst n : Nat) : State :=
  (List.range n).foldl (fun s i =>
    let r := ctrlRead s (src + i)
    ctrlWrite s (dst + i) r.1 r.2) s

/-- A replica entry is written (R314): a valid one is COPYING, with the code pages of both copies in the MT queues; PAGES 0 ends
mirroring. -/
def startMirror (s : State) (i : Nat) : State :=
  let s := dropJob s (mirrorJob i)
  if repPages s i = 0 then s.setObj 0x2051 2 i 0
  else
    let s := putJob s (mirrorJob i) (rangePages s (repPrimary s i) (repPages s i))
    (putJob s (mirrorJob i) (rangePages s (repMirror s i) (repPages s i))).setObj 0x2051 2 i 1

/-- MIRROR_COPY_DONE (R314): the copy has passed the MT queues. -/
def execMirrorCopyDone (entry : Fin 64) (s : State) : Out :=
  guarded (decide (s.obj 0x2051 2 entry.val = 1) && !jobOpen s (mirrorJob entry.val)) <|
    let s := copyLines s (repPrimary s entry.val / 512) (repMirror s entry.val / 512) (repPages s entry.val * 128)
    s.setObj 0x2051 2 entry.val 2

/-- A record of a channel that is lost (R299, R300): DETAIL names the channel. -/
def channelRecord (s : State) (ch : Nat) : State :=
  hwRecord s { LogRec.blank with
    severity := 3
    cause := 0x5C
    detail := ch }

/-- The code pages that a remapping brings to each other channel of the region (R298). -/
def remapCounts (chan : Nat) : Sparse Nat :=
  (otherChannels chan).zipIdx.map fun p => (128 + p.1, if p.2 = 0 then 182362 else 182361)

/-- Takes the spare slots that a remapped channel's code pages need from the region's other channels, and notes where they lie
(R298). -/
def takeSpares (s : State) (chan : Nat) : State :=
  (remapCounts chan).foldl (fun s p =>
    let left := s.obj 0x2053 4 (p.1 - 128)
    let s := { s with mem := { s.mem with spare := sset (fun _ => 0) s.mem.spare (2 ^ 40 + p.1) (4194304 + (262144 - left)) } }
    s.setObj 0x2053 4 (p.1 - 128) (left - p.2)) s

/-- A slow-tier channel of a region fits no more: its code pages are lost (R298). -/
def regionFull (s : State) (chan : Nat) : Bool :=
  (List.range 24).any fun k => decide (2 ≤ s.obj 0x4050 5 (128 + 24 * (chan / 24) + k))

/-- The operations of a controller go to where their lines lie now. -/
def moveOps (s : State) (ch : Nat) : State :=
  let c := ctrlOf s ch
  let put (s : State) (o : CtrlOp) : State :=
    let q := match o.kind with
      | .read | .fix => if o.lat then 0 else 1
      | .pages => 3
      | _ => 2
    let dst := if o.kind = .pages then ch else chanOf s o.line
    setCtrl s dst ((ctrlOf s dst).put q o)
  (c.active ++ c.lc ++ c.rd ++ c.wr ++ c.mt).foldl put (setCtrl s ch { Ctrl.idle with last := c.last })

/-- A slow-tier channel's code pages move to the spare slots (R298): every sector reads marked until it is written. -/
def remapPages (s : State) (chan : Nat) : State :=
  let s := { s with mem := { s.mem with
      remap := sset (fun _ => 0) s.mem.remap chan 1
      clean := s.mem.clean.filter fun p => channelOf (p.1 / 4) ≠ 128 + chan } }
  moveOps (takeSpares s chan) (128 + chan)

/-- SLOW_CHANNEL_LOST (R298, R299): its code pages read marked from now on; the remapping passes the MT queues, and then lines of
ACTIVE replicated regions are restored. -/
def execSlowChannelLost (chan : Fin 96) (s : State) : Out :=
  guarded (decide (s.obj 0x4050 5 (128 + chan.val) ≤ 1)) <|
    let full := regionFull s chan.val
    let s := s.setObj 0x4050 5 (128 + chan.val) 3
    let s := if full then s else putJob (remapPages s chan.val) (remapJob chan.val) (remapCounts chan.val)
    channelRecord (flagReplace s 3) (128 + chan.val)

/-- FAST_CHANNEL_LOST (R300). -/
def execFastChannelLost (chan : Fin 128) (s : State) : Out :=
  guarded (decide (s.obj 0x4050 5 chan.val ≤ 1))
    (channelRecord (flagReplace (s.setObj 0x4050 5 chan.val 3) 2) chan.val)

/-! ## Host memory reads -/

/-- A host line arrives: the request that waits for it is answered, then those queued behind it (R253, R262). -/
def hostArrives (s : State) (no : Nat) : State :=
  let l : Line := ⟨no, true⟩
  let h := homeLine s l
  match h.st, h.busy with
  | 0, some t =>
    let r := hostLine s no
    fillDone s l t r.1 r.2 false
  | _, _ => s

/-- What host memory holds in a line, as the completion of a read brought it. -/
def setHostLine (s : State) (no : Nat) (data : LineData) (bad : Bool) : State :=
  { s with mem := { s.mem with
      host := memWrite s.mem.host (512 * no) 512 data.toNat
      hostBad := sset (fun _ => false) s.mem.hostBad no bad } }

/-- The log record and the report of a TLP received with EP set (R312). The spec gives the record no cause code: it is a
free value (log entry 9). -/
def poisonedTlp (s : State) (fn : Fn) : State :=
  let r := drawFree s
  let c := r.1.toNat % 256
  let s := fnRecord r.2 fn { LogRec.blank with kind := 1, severity := 2, cause := c, scope := 3 } 4 c 0
  aer s fn "Poisoned TLP Received" 1 0

/-- HOST_READ_COMPLETION (R312): a completion with EP set marks every sector it touches, is logged and reported. -/
def execHostReadCompletion (line : Nat) (fn : Fn) (data : LineData) (ep : Bool) (s : State) : Out :=
  guarded (lineExists ⟨line, true⟩) <|
    let s := setHostLine s line data ep
    hostArrives (if ep then poisonedTlp s fn else s) line

/-- HOST_READ_FAILED (R392): 0 timed out, 1 Unsupported Request, 2 Completer Abort. -/
def execHostReadFailed (line : Nat) (fn : Fn) (how : Fin 3) (s : State) : Out :=
  guarded (lineExists ⟨line, true⟩) <|
    let s := { s with mem := { s.mem with hostBad := sset (fun _ => false) s.mem.hostBad line true } }
    let s := fnRecord s fn { LogRec.blank with kind := 1, severity := 2, cause := 0x29, scope := 3 } 4 0x29 0
    let s := if how.val = 0 then aer s fn "Completion Timeout" 1 0
      else aer s fn "Uncorrectable Internal Error" 1 (newestRecord s)
    hostArrives s line

end Sys2Proof.Machine
end

