-- ==== Sys2Proof/Machine/Inbox.lean ====
section
/-!
DEFINITION. The inbox of a core: packets, wide words, flushes and the instructions that use it (R138 to R143, R208,
R209).
-/
namespace Sys2Proof.Machine

/-! ## The reading side (R140 to R142) -/

/-- The words that the next wide word takes, and the words after them: 8 words of the packet, or up to its end-marked
word; an abort word discards the packet's unread words before it (R140, R141). -/
def takeWide : Nat → List InWord → List InWord → Option (List InWord × List InWord)
  | 0, acc, rest => some (acc, rest)
  | _ + 1, _, [] => none
  | n + 1, acc, w :: t =>
    if w.abort then some ([w], t)
    else if w.last then some (acc ++ [w], t)
    else takeWide n (acc ++ [w]) t

/-- The next wide word of an inbox. While a flush waits at a packet boundary no word is readable (R143). -/
def Inbox.wide (b : Inbox) : Option (List InWord × List InWord) :=
  if b.flush && !b.partRead then none else takeWide 8 [] b.fifo

/-- The tag of a wide word (R140). -/
def wideTag (ws : List InWord) : Word :=
  match ws.getLast? with
  | none => 0
  | some w =>
    BitVec.ofNat 32 ((if w.abort then 0 else 4 * ws.length) + (if w.last || w.abort then 256 else 0) +
      (if w.abort then 512 else 0) + w.src.toNat * 2 ^ 16 + w.kind.val * 2 ^ 30)

/-- INBOX_PKTS: packets whose end-marked or abort word has not been read (R142). -/
def Inbox.pkts (b : Inbox) : Nat := (b.fifo.filter fun w => w.last || w.abort).length

/-- The core has done what rules out a re-run from its restart point (R522). -/
def Core.irreversibly (k : Core) : Core := { k with cmd := k.cmd.map fun c => { c with irreversible := true } }

/-- Reads the next wide word into u_n to u_(n+7) and its tag into u_(n+8) (R140, R141). -/
def Core.readWide (k : Core) (slot n : Nat) (ws rest : List InWord) : Core :=
  let ended := ws.any fun w => w.last || w.abort
  let k := (List.range 8).foldl (fun k i =>
    k.setU slot (n + i) (match ws[i]? with
      | some w => if w.abort then 0 else w.word
      | none => 0)) k
  { (k.setU slot (n + 8) (wideTag ws)).irreversibly with
    inbox := { k.inbox with
      fifo := rest
      partRead := !ended } }

/-- The group that has waited longest for a wide word, with the register its read names: `waitsOn` holds the order of
the read and that register. -/
def Core.firstReader (k : Core) : Option (Nat × Group) :=
  (k.groups.filter fun p => p.2.state = 2 && p.2.cause = waitInbox && p.2.resolved.isNone).foldl (fun a p =>
    match a with
    | none => some p
    | some q => if p.2.waitsOn < q.2.waitsOn then some p else some q) none

/-- Gives readable wide words to the groups that wait for them, in the order their reads issued (R141). -/
def Core.serveReaders (at_ : Nat) : Nat → Core → Core
  | 0, k => k
  | n + 1, k =>
    match k.firstReader, k.inbox.wide with
    | some p, some w =>
      let k := k.readWide p.1 (p.2.waitsOn % 32) w.1 w.2
      Core.serveReaders at_ n (k.setGroup p.1 { p.2.advance.resolve at_ with watchdog := 0 })
    | _, _ => k

/-- inrd (R141, R208): DST names u_n with n from 0 to 23. -/
def execInrd (g : GroupRef) (f : RFields) (s : State) : Out :=
  let illegal := ctlBad f 0 || !(isU f.dst && decide (regNo f.dst ≤ 23))
  issue s g (firstFault illegal false) (specRun f.dst 9) fun s k gr =>
    match k.inbox.wide, k.firstReader with
    | some w, none => .go s (k.readWide g.slot (regNo f.dst) w.1 w.2) { gr.advance with watchdog := 0 }
    | _, _ => .go s.tickStamp k (gr.pend waitInbox (s.stamp * 32 + regNo f.dst))

/-- instat (R142). -/
def execInstat (g : GroupRef) (f : RFields) (s : State) : Out :=
  issue s g (firstFault (ctlBad f 0 || !isU f.dst) false) [f.dst] fun s k gr =>
    .go s (k.setU g.slot (regNo f.dst) (BitVec.ofNat 32 k.inbox.pkts)) gr.advance

/-! ## The arriving side (R138, R139) -/

/-- Whether a function's packets are for the command on the core: management's always are (R138). -/
def inboxOwner (k : Core) (kind : Fin 3) (fn : Fn) : Bool :=
  if kind = 2 then true
  else match k.cmd with
    | some c => c.fn = fn
    | none => false

/-- Appends an abort word for the packet that arrives and unlocks (R139). DESIGN CHOICE (log entry 45): the abort word is
appended also to a FIFO that holds 4,096 words, since R139 has it stand for the packet and names no room that it waits for. -/
def Inbox.abandon (b : Inbox) (snd : Sender) : Inbox :=
  { b with
    fifo := b.fifo ++ [⟨0, false, true, snd.kind, snd.src⟩]
    lock := none
    arriving := 0 }

/-- What an inbox does with a word (R139). -/
inductive Arrival where
  | taken (b : Inbox)
  | refused (b : Inbox)
  | abandoned (b : Inbox)
  deriving DecidableEq, Repr

/-- A word reaches the inbox of a core in service. -/
def Inbox.arrive (b : Inbox) (owner : Bool) (snd : Sender) (word : Word) (last : Bool) : Arrival :=
  if !owner then .refused b
  else if b.lock.isSome && b.lock != some snd then .refused b
  else if b.discard then .refused (if last then { b with lock := none, discard := false, arriving := 0 } else b)
  else if b.arriving = 4096 then .abandoned (b.abandon snd)
  else if 4096 ≤ b.fifo.length then .refused b
  else .taken { b with
    fifo := b.fifo ++ [⟨word, last, false, snd.kind, snd.src⟩]
    lock := if last then none else some snd
    arriving := if last then 0 else b.arriving + 1 }

/-- Stores an inbox in a core and serves the groups that wait for a word. -/
def putInbox (s : State) (c : Nat) (b : Inbox) : State :=
  (s.setCore c (Core.serveReaders s.stamp 64 { s.core c with inbox := b })).tickStamp

/-- The agent of a sender (R332): a core's site, the host interface, the management of BD0. -/
def senderAgent (s : State) (snd : Sender) : Nat :=
  match snd.kind with
  | 0 => siteOfCore s snd.src.toNat
  | 1 => agentHost
  | 2 => agentMgmt 0

/-- A word travels to the site of its core, on the slot of the two agents (R18, R333). DESIGN CHOICE (log entry 21): on VC1;
R337 names no virtual channel for inbox words. -/
def crossWord (s : State) (snd : Sender) (c : Nat) (word : Word) : State :=
  let src := senderAgent s snd
  let dst := siteOfCore s c
  crossRing s src dst (mkPacket (pairSlot src dst) 1 2 (packetHeader (Config.msgCode 22) 1 src dst 0 1 0 0 0 0) word.toNat)

/-- Offers a word to a core's inbox: whether it was accepted, and the state after it with the inbox counters (R139). A
word for a logical number out of service reaches no inbox. -/
def offerWord (s : State) (c : Nat) (snd : Sender) (fn : Fn) (word : Word) (last : Bool) : Bool × State :=
  if !inService s c || (s.core c).hw.fenced then (false, s)
  else
    let s := crossWord s snd c word
    let k := s.core c
    match k.inbox.arrive (inboxOwner k snd.kind fn) snd word last with
    | .taken b => (true, putInbox s c b)
    | .refused b => (false, (putInbox s c b).bump 0x3050 4 c 1)
    | .abandoned b => (false, ((putInbox s c b).bump 0x3050 4 c 1).bump 0x3050 5 c 1)

/-- Whether a word's source is what its kind says (R138, R140): a core with its command's function, a function's own number
for a host sender, 0 for management; only a host sender has channels. -/
def senderOk (s : State) (kind : Fin 3) (src : BitVec 8) (chan : Fin 8) (fn : Fn) : Bool :=
  match kind with
  | 0 => chan == 0 && (match (s.core src.toNat).cmd with
    | some c => c.fn == fn
    | none => false)
  | 1 => decide (src.toNat = fn.val)
  | 2 => chan == 0 && src == 0

/-- A word reaches an inbox. -/
def execInboxWordArrival (core : CoreNo) (kind : Fin 3) (src : BitVec 8) (chan : Fin 8) (fn : Fn) (word : Word)
    (last : Bool) (s : State) : Out :=
  guarded (senderOk s kind src chan fn) (offerWord s core ⟨kind, src, chan⟩ fn word last).2

/-- 20 µs pass without a further word (R139): the packet is abandoned, or after a flush the inbox unlocks. -/
def execInboxPacketTimeout (core : CoreNo) (s : State) : Out :=
  let b := (s.core core).inbox
  guarded b.lock.isSome <|
    match b.lock with
    | none => s
    | some snd =>
      if b.discard then putInbox s core { b with lock := none, discard := false, arriving := 0 }
      else (putInbox s core (b.abandon snd)).bump 0x3050 5 core 1

/-- A flush takes effect: every word in the FIFO goes, also those of a packet still arriving (R143). -/
def Inbox.doFlush (b : Inbox) : Inbox :=
  { b with
    fifo := []
    flush := false
    partRead := false
    discard := b.lock.isSome }

/-- inflush (R143): at a packet boundary it takes effect at once, else it waits. -/
def execInflush (g : GroupRef) (f : RFields) (s : State) : Out :=
  issue s g (firstFault (ctlBad f 0) false) [] fun s k gr =>
    .go s { k with inbox := if k.inbox.partRead then { k.inbox with flush := true } else k.inbox.doFlush } gr.advance

/-- A pending flush reaches a packet boundary: one that kernel code requested, or one of the management processor (R143). -/
def execFlushEffect (core : CoreNo) (management : Bool) (s : State) : Out :=
  let b := (s.core core).inbox
  guarded ((b.flush || management) && !b.partRead) (putInbox s core b.doFlush)

/-! ## Sending (R208, R209) -/

/-- Offers words in order until one is refused: how many were accepted, and the state. -/
def offerRun (snd : Sender) (fn : Fn) (c : Nat) (endMark : Bool) : List Word → State → Nat → Nat × State
  | [], s, n => (n, s)
  | w :: t, s, n =>
    let r := offerWord s c snd fn w (endMark && t.isEmpty)
    if r.1 then offerRun snd fn c endMark t r.2 (n + 1) else (n, r.2)

/-- Sends a run of words from a group to a logical core: the count accepted, and the state. -/
def sendRun (s : State) (k : Core) (g : GroupRef) (dest : Word) (endMark : Bool) (ws : List Word) : Nat × State :=
  match k.cmd with
  | none => (0, s)
  | some c => offerRun ⟨0, BitVec.ofNat 8 g.core, 0⟩ c.fn dest.toNat endMark ws (s.setCore g.core k.irreversibly) 0

/-- snd. -/
def execSnd (g : GroupRef) (f : RFields) (s : State) : Out :=
  let illegal := ctlBad f 1 || !isP f.dst || !isU f.sa || !isU f.sb
  issue s g (firstFault illegal false) [f.sa, f.sb] fun s k gr =>
    let r := sendRun s k g (k.u g.slot (regNo f.sb)) (f.mod.getLsbD 0) [k.u g.slot (regNo f.sa)]
    .go r.2 (r.2.core g.core) (gr.setPred (regNo f.dst) (if r.1 = 1 then BitVec.allOnes 32 else 0)).advance

/-- sndv. -/
def execSndv (g : GroupRef) (f : RFields) (s : State) : Out :=
  let n := bits f.mod.toNat 0 4 + 1
  let illegal := ctlBad f 0x1F || !isP f.dst || !(isU f.sa && decide (regNo f.sa + n ≤ 32)) || !isU f.sb || !isU f.sc
  issue s g (firstFault illegal false) (specRun f.sa n ++ [f.sb, f.sc]) fun s k gr =>
    let ws := (List.range n).map fun i => k.u g.slot (regNo f.sa + i)
    let r := sendRun s k g (k.u g.slot (regNo f.sb)) (f.mod.getLsbD 4) ws
    .go r.2 ((r.2.core g.core).setU g.slot (regNo f.sc) (BitVec.ofNat 32 r.1))
      (gr.setPred (regNo f.dst) (if r.1 = n then BitVec.allOnes 32 else 0)).advance

end Sys2Proof.Machine
end

