-- ==== Sys2Proof/Machine/LocalMem.lean ====
section
/-!
DEFINITION. The operands, faults and effects of local-memory loads and stores (R120, R136, R137, R193 to R195, R197);
DevMem.lean runs them.
-/
namespace Sys2Proof.Machine

/-- Bytes per thread of a width code; N4 counts 0 (R193). -/
def widthBytes (w : BitVec 3) : Nat :=
  match w.toNat with
  | 1 => 1 | 2 => 2 | 3 => 4 | 4 => 8 | 5 => 16 | 6 => 512 | _ => 0

/-- All five attribute fields zero (R198). -/
def attrsZero (a : Attrs) : Bool := a.tclass == 0 && !a.ro && !a.fin && !a.latcrit && !a.tco

/-- A reserved MFUNC bit of LDL and LDG: MFUNC[6:5], and MFUNC[4] but on N4, B8 and H16 loads (R194). -/
def hiBad (f : MFields) (store : Bool) : Bool :=
  f.hi.getLsbD 1 || f.hi.getLsbD 2 || (f.hi.getLsbD 0 && (store || decide (3 ≤ f.width.toNat)))

/-- Whether DATA is a register that the access allows: v or ZERO for a load, v, u or ZERO for a store, in a register
group where the width takes one (R179, R194). -/
def dataBad (f : MFields) (store : Bool) : Bool :=
  !(isZ f.data || ((isV f.data || (store && isU f.data)) && groupOk f.data (widthRegs f.width)))

/-- The legality of an LDL word (R184, R194, R195, R198). -/
def ldlLegal (f : MFields) (store : Bool) : Option Nat :=
  firstFault (hiBad f store || decide (5 < f.width.toNat) || !attrsZero f.attrs || dataBad f store ||
    !(if f.width = 0 then isUZ f.addr else isVUZ f.addr)) false

/-- The address of a thread (R194). -/
def ldlAddr (k : Core) (gr : Group) (slot : Nat) (f : MFields) (lane : Nat) : Nat :=
  (k.src gr slot f.addr lane + f.offset.signExtend 32).toNat

/-- The first byte that a thread touches and how many: a nibble's byte in the 16 B run of N4 (R195). -/
def ldlSpan (k : Core) (gr : Group) (slot : Nat) (f : MFields) (lane : Nat) : Span :=
  let a := ldlAddr k gr slot f lane
  if f.width = 0 then (a + lane / 2, 1) else (a, widthBytes f.width)

/-- The row accesses of a list of spans: the distinct 64 B units (R136, R137). -/
def unitsOf (spans : List Span) : List Nat :=
  (spans.flatMap fun sp => (List.range ((sp.1 + sp.2 - 1) / 64 - sp.1 / 64 + 1)).map fun i => sp.1 / 64 + i).eraseDups

/-- P: the most distinct rows that the access needs from one bank (R137). -/
def passes (spans : List Span) : Nat :=
  let u := unitsOf spans
  (List.range 32).foldl (fun a b => max a (u.filter fun x => x % 32 = b).length) 0

/-- The address fault of an access (R193, R194, R120): ALIGN before LMEM_RANGE, over the threads in the effective
mask. -/
def ldlFault (k : Core) (gr : Group) (slot : Nat) (f : MFields) : Option Nat :=
  let act := lanesOf (effMask gr f.guard)
  let al := if f.width = 0 then 16 else widthBytes f.width
  let win := match k.cmd with
    | some c => c.window
    | none => 0
  if act.any fun t => ldlAddr k gr slot f t % al ≠ 0 then some causeAlign
  else if act.any fun t =>
      decide (2 ^ 25 ≤ ldlAddr k gr slot f t) || decide (win < (ldlSpan k gr slot f t).1 + (ldlSpan k gr slot f t).2) then
    some causeRange
  else none

/-- The value that a thread loads: its nibble, or its bytes, extended (R81, R193, R195). -/
def ldlValue (k : Core) (gr : Group) (slot : Nat) (f : MFields) (lane : Nat) : Nat :=
  let sp := ldlSpan k gr slot f lane
  let raw := if f.width = 0 then bits (k.lread sp.1 1) (4 * (lane % 2)) 4 else k.lread sp.1 sp.2
  let w := if f.width = 0 then 4 else 8 * widthBytes f.width
  if f.hi.getLsbD 0 then (raw + (if bit raw (w - 1) then 2 ^ 32 - 2 ^ w else 0)) % 2 ^ 32 else raw

/-- The core after a thread stored its data; a nibble store keeps the other nibble of its byte (R195). -/
def ldlStore1 (gr : Group) (slot : Nat) (f : MFields) (k0 k : Core) (lane : Nat) : Core :=
  let sp := ldlSpan k0 gr slot f lane
  let v := k0.regs gr slot f.data lane (widthRegs f.width)
  if f.width = 0 then k.lwrite sp.1 1 (putBits (k.lread sp.1 1) (4 * (lane % 2)) 4 (bits v 0 4))
  else k.lwrite sp.1 sp.2 v

/-- A progress event of a group (R135): an instruction whose effective mask is not 0. -/
def Group.progress (gr : Group) (guard : BitVec 5) : Group :=
  if effMask gr guard = 0 then gr else { gr with watchdog := 0 }

/-- Counts an access's replays (R137). -/
def countReplays (s : State) (core : Nat) (spans : List Span) : State :=
  if passes spans ≤ 1 then s else s.bump 0x3050 3 core (passes spans - 1)

end Sys2Proof.Machine
end

