-- ==== Sys2Proof/Machine/Mmu.lean ====
section
/-!
DEFINITION. Device MMU contexts: the walk of the tables, cached translations and the pages they name (R289, R290, R324).
-/
namespace Sys2Proof.Machine

/-- A page of a function's context. -/
structure Frame where
  host     : Bool
  no       : Nat
  writable : Bool
  deriving DecidableEq, Repr

/-- Whether a level-1 entry is valid: V set and no bit shown as zero set. -/
def l1Ok (e : Nat) : Bool := bit e 0 && decide (bits e 1 18 = 0) && decide (bits e 40 24 = 0)

/-- Whether a level-2 entry is valid: V set, no bit shown as zero set, and FRAME[63:40] zero when HOST is 0. -/
def l2Ok (e : Nat) : Bool := bit e 0 && decide (bits e 3 13 = 0) && (bit e 2 || decide (bits e 40 24 = 0))

/-- Whether a fast-tier page is withdrawn: retired under R324, or on a retired channel (R297). -/
def withdrawnPage (s : State) (frame : Nat) : Bool :=
  sget (fun _ => false) s.mem.withdrawn frame ||
    (fastLine (frame * 128) && s.obj 0x4050 5 (channelOf (frame * 128)) = 2)

/-- What a walk of a context's tables answers (R289), with the reads of table lines given: the level-2 entry, the physical
address of a poisoned table line, or 0 for any other failure. -/
def walkWith {σ : Type} (read : σ → Nat → Option Nat × σ) (base : Option Nat) (va : Nat) (s : σ) : Except Nat Nat × σ :=
  match (if 2 ^ 48 ≤ va then none else base) with
  | none => (.error 0, s)
  | some base =>
    let a1 := base + 8 * (va / 2 ^ 32)
    let r1 := read s a1
    match r1.1 with
    | none => (.error (a1 / 512 * 512), r1.2)
    | some e1 =>
      if l1Ok e1 then
        let a2 := bits e1 19 21 * 2 ^ 19 + 8 * (va / 2 ^ 16 % 2 ^ 16)
        let r2 := read r1.2 a2
        match r2.1 with
        | none => (.error (a2 / 512 * 512), r2.2)
        | some e2 => (if l2Ok e2 then .ok e2 else .error 0, r2.2)
      else (.error 0, r1.2)

/-- The level-1 base of a function's context (R411). -/
def ctxBase (s : State) (fn : Nat) : Option Nat :=
  if sget (fun _ => false) s.host.ctxSet fn then some (sget (fun _ => 0) s.host.ctxBase fn) else none

/-- Eight bytes of a table line; none where a mark covers them. -/
def tableBytes (r : LineData × Marks) (pa : Nat) : Option Nat :=
  if r.2.getLsbD (pa % 512 / 128) then none else some (lineBytes r.1 (pa % 512) 8)

/-- What the tables say now. -/
def walkNow (s : State) (fn va : Nat) : Except Nat Nat :=
  (walkWith (fun (_ : Unit) pa => (tableBytes (peekLine s ⟨pa / 512, false⟩) pa, ())) (ctxBase s fn) va ()).1

/-- The walk that reads the tables: each read is one at its home of class OTHER, latency-critical where the access is (R290). -/
def walkTables (s : State) (src : Nat) (lat : Bool) (fn : Fn) (va : Nat) : Except Nat Nat × State :=
  walkWith (fun s pa =>
    let l : Line := ⟨pa / 512, false⟩
    let r := cohRead (settle s l) src fn 7 lat l
    (tableBytes r.1 pa, r.2)) (ctxBase s fn.val) va s

/-- Whether a level-2 entry names a withdrawn fast-tier page (R290). -/
def namesWithdrawn (s : State) (e : Nat) : Bool := !bit e 2 && withdrawnPage s (bits e 16 24)

/-- The page that a level-2 entry names. -/
def frameOf (e : Nat) : Frame := ⟨bit e 2, if bit e 2 then bits e 16 48 else bits e 16 24, bit e 1⟩

/-- The key of a cached translation. -/
def tlbKey (fn va : Nat) : Nat := fn * 2 ^ 32 + va / 2 ^ 16

/-- Whether a walk answers the entry `c`. -/
def walkGives (w : Except Nat Nat) (c : Nat) : Bool :=
  match w with
  | .ok e => decide (e = c)
  | .error _ => false

/-- A translation that walks the tables now, from an agent: a withdrawn page fails it, and a success is cached. -/
def freshTranslate (s : State) (src : Nat) (lat : Bool) (fn : Fn) (va : Nat) : Except Nat Frame × State :=
  let w := walkTables s src lat fn va
  match w.1 with
  | .ok e =>
    if namesWithdrawn w.2 e then (.error 0, w.2)
    else (.ok (frameOf e), { w.2 with host := { w.2.host with tlb := sset (fun _ => 0) w.2.host.tlb (tlbKey fn va) e } })
  | .error x => (.error x, w.2)

/-- The translation of a device-virtual address in a function's context, for an access of an agent. A cached entry that equals
the tables' is used without a read of them, also for a page withdrawn since (R324); one that differs may be used until an
invalidation drops it (R290; log entry 14). -/
def translate (s : State) (src : Nat) (lat : Bool) (fn : Fn) (va : Nat) : Except Nat Frame × State :=
  let c := sget (fun _ => 0) s.host.tlb (tlbKey fn va)
  if c = 0 then freshTranslate s src lat fn va
  else if walkGives (walkNow s fn va) c then (.ok (frameOf c), s)
  else
    let s := { s with free := s.free + 1 }
    if Config.usesCached s.free fn (va / 2 ^ 16) then (.ok (frameOf c), s) else freshTranslate s src lat fn va

/-- The line and the offset in it of an address in a page. -/
def Frame.line (f : Frame) (va : Nat) : Line := ⟨f.no * 128 + va % 65536 / 512, f.host⟩

end Sys2Proof.Machine
end

