-- ==== Sys2Proof/Machine/VMem.lean ====
section
/-!
DEFINITION. What the module itself reads and writes through a function's context (R40, R51, R62, R403, R405, R412, R571),
and dirty logging (R414).
-/
namespace Sys2Proof.Machine

/-! ## Dirty logging (R414) -/

/-- A log word that cannot be set (R414). -/
def dirtyLost (s : State) (fn : Fn) : State := s.bump 0x7050 5 fn.val 1

/-- Sets bits of the log word of a page by an OR at the home of the log line: an atomic of the writer's base die's port. -/
def dirtyOr (s : State) (l : Line) (off mask : Nat) : State :=
  let h := homeSlice l
  requestRun .atom { bareMsg (agentNear h) (agentHome h) agentHost l 0 7 false false 0 with
    kind := .or
    ops := [⟨0, Fin.ofNat 512 (off / 4 * 4), BitVec.ofNat 128 (mask <<< (8 * (off % 4))), 0⟩] } s

/-- A write through a function's context sets its bits in the log, where logging runs. -/
def dirtyMark (s : State) (fn : Fn) (va : Nat) (host : Bool) : State :=
  match sget (fun _ => 0) s.host.dirty fn.val with
  | 0 => s
  | log + 1 =>
    let a := log + 2 * (va / 65536)
    match windowOf s 0 a with
    | some _ => dirtyLost s fn
    | none =>
      let r := translate s agentHost false 0 a
      match r.1 with
      | .error _ => dirtyLost r.2 fn
      | .ok f =>
        if f.writable then dirtyOr r.2 (f.line a) (a % 512) (if host then 2 ^ (va / 4096 % 16) else 0xFFFF)
        else dirtyLost r.2 fn

/-! ## Reads and writes -/

/-- An engine's access through a function's context: the agent it comes from (R332), the function, the traffic class, whether
it is latency-critical (R294) and FINAL (R277), and the step on whose behalf it is made, for the RESIDENCY check (R238). -/
structure Access where
  src : Nat
  fn  : Fn
  cls : BitVec 3
  lat : Bool
  fin : Bool
  key : Nat
  deriving DecidableEq, Repr

/-- An access that the module makes for itself (R215): of class OTHER, from the management of BD0 (DESIGN CHOICE, log entry
21). -/
def ownAccess (fn : Fn) : Access := ⟨agentMgmt 0, fn, 7, false, false, 0⟩

/-- Why an access through a context stops: no mapping, with the poisoned table line; a mapping without write permission; or
a line that waits for host memory, so that the access is not made now (log entry 13). -/
inductive VErr where
  | unmapped (va detail : Nat)
  | readonly (va : Nat)
  | busy
  deriving DecidableEq, Repr

/-- The line of an address in a function's context, with the transactions before the access over. -/
def vline (s : State) (x : Access) (va : Nat) (write : Bool) : Except VErr Line × State :=
  match windowOf s x.fn.val va with
  | some _ => (.error (.unmapped va 0), s)
  | none =>
    let r := translate s x.src x.lat x.fn va
    match r.1 with
    | .error d => (.error (.unmapped va d), r.2)
    | .ok f =>
      if write && !f.writable then (.error (.readonly va), r.2)
      else
        let s := settle r.2 (f.line va)
        if lineBusy s (f.line va) then (.error .busy, s) else (.ok (f.line va), checkResidency s x.key (f.line va))

/-- An engine's read of a line that `vline` found. -/
def readLine (s : State) (x : Access) (l : Line) : (LineData × Marks) × State := cohRead s x.src x.fn x.cls x.lat l

/-- An engine's write of a line that `vline` found, which sets the function's dirty log (R414). -/
def writeLine (s : State) (x : Access) (va : Nat) (l : Line) (d : LineData) (mask : ByteMask) (m : Marks) (hint : Nat) : State :=
  dirtyMark (cohWrite s x.src x.fn x.cls l d mask m hint x.fin) x.fn va l.host

/-- Reads the parts of a range: the value, and whether a marked sector was met. -/
def vreadGo (x : Access) : List (Nat × Nat) → Nat → State → Except VErr (Nat × Bool) × State
  | [], _, s => (.ok (0, false), s)
  | (a, n) :: t, sh, s =>
    let r := vline s x a false
    match r.1 with
    | .error e => (.error e, r.2)
    | .ok l =>
      let y := readLine r.2 x l
      let bad := touched (maskOf (a % 512) n) &&& y.1.2 != 0
      let rest := vreadGo x t (sh + 8 * n) y.2
      match rest.1 with
      | .error e => (.error e, rest.2)
      | .ok (v, b) => (.ok ((lineBytes y.1.1 (a % 512) n <<< sh) + v, bad || b), rest.2)

/-- Reads `n` bytes of a function's space, little-endian. -/
def vread (s : State) (x : Access) (va n : Nat) : Except VErr (Nat × Bool) × State := vreadGo x (lineParts va n) 0 s

/-- Writes the parts of a range. -/
def vwriteGo (x : Access) : List (Nat × Nat) → Nat → State → Except VErr Unit × State
  | [], _, s => (.ok (), s)
  | (a, n) :: t, v, s =>
    let r := vline s x a true
    match r.1 with
    | .error e => (.error e, r.2)
    | .ok l =>
      vwriteGo x t (v / 2 ^ (8 * n)) (writeLine r.2 x a l (lineOf (a % 512) n v) (maskOf (a % 512) n) 0 0)

/-- Writes the `n` low bytes of `v` in a function's space. -/
def vwrite (s : State) (x : Access) (va n v : Nat) : Except VErr Unit × State := vwriteGo x (lineParts va n) v s

end Sys2Proof.Machine
end

