-- ==== Sys2Proof/Machine/DevMem.lean ====
section
/-!
DEFINITION. Device-memory instructions of kernel code (R131 to R133, R196 to R203, R276, R277, R378): loads, stores,
transfers, atomics and acquire-with-yield; and loads and stores of local memory, which the range tracker orders with
transfers (R163, R164, R193 to R195).
-/
namespace Sys2Proof.Machine

/-! ## Addresses (R196, R210, R290) -/

/-- A specifier that names a v or u pair. -/
def pairOk (spec : BitVec 7) : Bool := groupOk spec 2

/-- The attributes that an access does not allow (R198). -/
def attrBad (a : Attrs) (ro fin lat : Bool) : Bool :=
  (a.ro && !ro) || (a.fin && !fin) || (a.latcrit && !lat) || (!a.tco && a.tclass != 0)

/-- The traffic class of an access (R198). -/
def accessClass (a : Attrs) (k : Core) : BitVec 3 :=
  if a.tco then a.tclass else match k.cmd with
    | some c => c.tclass
    | none => 7

/-- Whether a read is marked latency-critical (R198, R294). -/
def accessLat (a : Attrs) (k : Core) : Bool :=
  a.latcrit || (match k.cmd with
    | some c => c.lat
    | none => false)

/-- The function of the command on a core. -/
def Core.fn (k : Core) : Fn :=
  match k.cmd with
  | some c => c.fn
  | none => 0

/-- The device-virtual address of a thread: the pair plus OFFSET, sign-extended (R196). -/
def devAddr (k : Core) (gr : Group) (slot : Nat) (addr : BitVec 7) (offset : BitVec 25) (lane : Nat) : Nat :=
  (BitVec.ofNat 64 (k.pair gr slot addr lane) + offset.signExtend 64).toNat

/-- Where a thread's access goes. -/
inductive Place where
  | line (l : Line) (writable : Bool)
  | peer (w : Nat)
  | unmapped (detail : Nat)
  deriving DecidableEq, Repr

/-- One thread's access: its lane, device-virtual address and place. -/
structure LaneAt where
  lane  : Nat
  va    : Nat
  place : Place
  deriving DecidableEq, Repr

/-- Translates the threads' addresses in order, for a core's site (R290, R378): an address in a window is not walked. -/
def locate (src : Nat) (lat : Bool) (fn : Fn) : List (Nat × Nat) → State → List LaneAt × State
  | [], s => ([], s)
  | (t, va) :: rest, s =>
    match windowOf s fn va with
    | some w =>
      let r := locate src lat fn rest s
      (⟨t, va, .peer w⟩ :: r.1, r.2)
    | none =>
      let x := translate s src lat fn va
      let r := locate src lat fn rest x.2
      (match x.1 with
        | .ok f => ⟨t, va, .line (f.line va) f.writable⟩ :: r.1
        | .error d => ⟨t, va, .unmapped d⟩ :: r.1, r.2)

/-- The places of an instruction's accesses. -/
def locateAll (s : State) (k : Core) (core : Nat) (a : Attrs) (vas : List (Nat × Nat)) : List LaneAt × State :=
  locate (siteOfCore s core) (accessLat a k) k.fn vas s

/-- A thread without a mapping. -/
def LaneAt.unmapped? (a : LaneAt) : Option (Nat × Nat) :=
  match a.place with
  | .unmapped d => some (a.va, d)
  | _ => none

/-- A thread whose access its page or a window does not allow. -/
def LaneAt.denied (write : Bool) (a : LaneAt) : Bool :=
  match a.place with
  | .line _ w => write && !w
  | .peer _ => !write
  | .unmapped _ => false

/-- A fault of an access: its cause, its address and what DETAIL names. -/
structure AccFault where
  cause  : Nat
  va     : Nat
  detail : Nat
  deriving DecidableEq, Repr

/-- The fault of an access, the first cause in table order: ADDR_MAP, then ACCESS (R210). -/
def placeFault (write : Bool) (as : List LaneAt) : Option AccFault :=
  match as.findSome? LaneAt.unmapped? with
  | some (va, d) => some ⟨causeMap, va, d⟩
  | none => (as.find? (LaneAt.denied write)).map fun a => ⟨causeAccess, a.va, 0⟩

/-- The line under which a core orders a thread's access. -/
def LaneAt.key (a : LaneAt) : Line :=
  match a.place with
  | .line l _ => l
  | .peer _ => peerLine a.va
  | .unmapped _ => ⟨0, false⟩

/-- The lines of an access, in the order its threads first name them. -/
def linesOf (as : List LaneAt) : List Line := (as.map LaneAt.key).eraseDups

/-! ## Loads (R196, R216 to R220) -/

/-- The legality of an LDG word (R184, R194, R196, R198). -/
def ldgLegal (f : MFields) (store : Bool) : Option Nat :=
  firstFault (hiBad f store || decide (f.width = 0) || decide (5 < f.width.toNat) || dataBad f store || !pairOk f.addr ||
    attrBad f.attrs (!store) store (!store)) false

/-- The value that a lane's bytes give: sign-extended where the load asks for it (R194). -/
def loadValue (width : BitVec 3) (sext : Bool) (raw : Nat) : Nat :=
  let w := 8 * widthBytes width
  if sext then (raw + (if bit raw (w - 1) then 2 ^ 32 - 2 ^ w else 0)) % 2 ^ 32 else raw

/-- The lines of a new load. -/
def newLines (as : List LaneAt) : List LineWait :=
  (linesOf as).map fun l =>
    let a := (as.find? fun a => a.key == l).getD ⟨0, 0, .unmapped 0⟩
    ⟨l, a.va / 512 * 512, false, false, 0, 0⟩

/-- The lanes of a new load or transfer. -/
def newLanes (as : List LaneAt) (la : Nat → Nat) : List LaneAddr :=
  as.map fun a => ⟨Fin.ofNat 32 a.lane, a.key, a.va % 512, la a.lane⟩

/-- The first poisoned address that a load's lanes touch, once its lines are there (R196). DESIGN CHOICE (log entry 49): a load
whose DATA is ZERO faults so too. -/
def LoadRec.poisoned (x : LoadRec) : Option Nat :=
  x.lanes.findSome? fun a =>
    match x.lines.find? fun y => y.line == a.line with
    | some y => if touched (maskOf a.off x.bytes) &&& y.marks != 0 then some (y.va + a.off) else none
    | none => none

/-- Writes a load's data, or an atomic's old values, to its registers. -/
def LoadRec.write (x : LoadRec) (k : Core) : Core :=
  if isZ x.dst then k
  else if x.ret then
    x.olds.foldl (fun k o => k.setRun x.slot (regNo x.dst) o.1 (widthRegs x.width) o.2.toNat) k
  else
    x.lanes.foldl (fun k a =>
      match x.lines.find? fun y => y.line == a.line with
      | some y => k.setRun x.slot (regNo x.dst) a.lane (widthRegs x.width)
          (loadValue x.width x.sext (lineBytes y.data a.off x.bytes))
      | none => k) k

/-- Whether a store, an atomic or a transfer of the core to a line is not acknowledged (R220). -/
def ownPending (k : Core) (l : Line) : Bool :=
  (k.writes.any fun w => w.msg.line == l) || k.xfers.any fun x => x.out && x.lines.any fun y => y.line == l

/-- Whether a line of a read-only load hits (R217, R220). -/
def roHit (k : Core) (l : Line) : Bool := (roLine k l).isSome && !ownPending k l

/-- Whether every line of a read-only load hits. -/
def allHit (k : Core) (ls : List Line) : Bool := ls.all (roHit k)

/-- Whether a read-only load of a group may issue (R219): no load waits to issue before it, its missing lines that no
register tracks have free registers, and the others have a free waiter place. -/
def roMayIssue (k : Core) (slot : Nat) (ls : List Line) : Bool :=
  let miss := ls.filter fun l => (roLine k l).isNone && !ownPending k l
  let fresh := miss.filter fun l => k.miss.all fun m => m.line != l
  decide (k.roQueue.headD slot = slot) && (miss.all fun l => roReady k l) && decide (fresh.length + k.miss.length ≤ 32)

/-- A line of a read-only load that hits. -/
def hitLine (s : State) (k : Core) (y : LineWait) : LineWait :=
  match roLine k y.line with
  | some r => { y with got := true, data := r.data, marks := roMarks s r }
  | none => y

/-- A load whose lines all hit in the read-only cache: its data reaches its registers, in the active set (R217), and the
reads of discarded lines are counted (R242). -/
def hitLoad (s : State) (k : Core) (core : Nat) (x : LoadRec) : State × LoadRec × Core :=
  let ls := x.lines.map LineWait.line
  let x := { x with lines := x.lines.map (hitLine s k) }
  let s' := ls.foldl (fun s l => match roLine k l with
    | some r => if r.disc then countDiscard s x.fn (homeSlice l) x.tclass else s
    | none => s) s.tickStamp
  let k := ls.foldl (fun k l => match roLine k l with
    | some r => { k with ro := sset (fun _ => RoLine.none) k.ro (lineKey l) { r with use := s.stamp + 1 } }
    | none => k) k
  (s'.bump 0x3070 1 core ls.length, x, k)

/-- Whether an LDG load may issue now: a read-only load needs miss registers (R219). -/
def ldgReady (s : State) (g : GroupRef) (f : MFields) : Bool :=
  let k := s.core g.core
  let gr := k.group g.slot
  let vas := (lanesOf (effMask gr f.guard)).map fun t => (t, devAddr k gr g.slot f.addr f.offset t)
  !f.attrs.ro || (ldgLegal f false).isSome || (k.waitTag g.slot (specRun f.data (widthRegs f.width) ++ [f.addr, f.addr + 1])).isSome ||
    roMayIssue k g.slot (linesOf (locateAll s k g.core f.attrs vas).1)

/-- A read-only load tries to issue and waits in the active set for an ACLK cycle (R219): 3070h:04h counts the cycle, and the
load keeps its place in the order of first tries. -/
def roWait (s : State) (g : GroupRef) : State :=
  let k := s.core g.core
  (s.setCore g.core { k with roQueue := if k.roQueue.contains g.slot.val then k.roQueue else k.roQueue ++ [g.slot.val] }).bump
    0x3070 4 g.core 1

/-- The core without a slot's place among the waiting loads. -/
def Core.leaveRoQueue (k : Core) (slot : Nat) : Core := { k with roQueue := k.roQueue.filter fun n => decide (n ≠ slot) }

/-- LDG load. -/
def execLdgLoad (g : GroupRef) (f : MFields) (s : State) : Out :=
  if ldgReady s g f then
    issue s g (ldgLegal f false) (specRun f.data (widthRegs f.width) ++ [f.addr, f.addr + 1]) fun s k gr =>
      let s := s.setCore g.core (k.leaveRoQueue g.slot)
      let act := lanesOf (effMask gr f.guard)
      let vas := act.map fun t => (t, devAddr k gr g.slot f.addr f.offset t)
      if vas.any fun p => p.2 % widthBytes f.width ≠ 0 then .fault causeAlign 0
      else
        let r := locateAll s k g.core f.attrs vas
        let k := r.2.core g.core
        match placeFault false r.1 with
        | some e => .faultIn r.2 k e.cause e.va e.detail
        | none =>
          if act.isEmpty then .go s k gr.advance
          else
            let x : LoadRec :=
              { tag := s.stamp
                ro := f.attrs.ro
                fn := k.fn
                tclass := accessClass f.attrs k
                lat := accessLat f.attrs k
                slot := g.slot
                pc := gr.pc
                dst := f.data
                width := f.width
                sext := f.hi.getLsbD 0
                ret := false
                lanes := newLanes r.1 fun _ => 0
                lines := newLines r.1
                olds := []
                skipped := false }
            if x.ro && allHit k (linesOf r.1) then
              let h := hitLoad r.2 k g.core x
              match h.2.1.poisoned with
              | some va => .faultIn h.1 h.2.2 causePoison va 0
              | none => .go h.1 (h.2.1.write h.2.2) gr.advance
            else
              let k := { k with loads := k.loads ++ [x] }
              let s := pump ((r.2.setCore g.core (k.setGroup g.slot gr.advance)).tickStamp) g.core
              .go s (s.core g.core) ((s.core g.core).group g.slot)
  else guarded (canIssue s g) (roWait s g)

/-! ## Writes -/

/-- The data, byte mask and marks that an instruction's threads write to one line: the highest lane wins (R197). -/
structure LineWrite where
  line  : Line
  va    : Nat
  place : Place
  data  : LineData
  mask  : ByteMask
  marks : Marks
  ops   : List LaneOp
  deriving DecidableEq, Repr

/-- The line writes of threads that each write `n` bytes of `val` with marks. -/
def lineWrites (as : List LaneAt) (n : Nat) (val : Nat → Nat) (mark : Nat → Nat → Bool) : List LineWrite :=
  (linesOf as).map fun l =>
    let mine := as.filter fun a => a.key == l
    let a0 := mine.headD ⟨0, 0, .unmapped 0⟩
    let d := mine.foldl (fun d a => lineMerge d (lineOf (a.va % 512) n (val a.lane)) (maskOf (a.va % 512) n)) 0
    let m := mine.foldl (fun m a => m ||| maskOf (a.va % 512) n) 0
    let marks := mine.foldl (fun x a => (List.range ((n + 127) / 128)).foldl (fun x i =>
      if mark a.lane i then x ||| touched (maskOf (a.va % 512 + 128 * i) (min 128 (n - 128 * i))) else x) x) 0
    ⟨l, a0.va, a0.place, d, m, marks, []⟩

/-- The record of a write that leaves a core: held until nothing holds it. Requests of a class-0 step travel on VC0 (R259). -/
def writeRec (s : State) (k : Core) (g : GroupRef) (gr : Group) (kind : MsgKind) (op : AtomKind) (cls : BitVec 3)
    (lat fin : Bool) (tag : Nat) (w : LineWrite) : WriteRec :=
  let b := sliceOfCore s g.core
  let m := { bareMsg (agentNear b) (agentHome (homeSlice w.line)) (siteOfCore s g.core) w.line k.fn cls lat (coreCls0 s k) tag with
    data := w.data
    mask := w.mask
    marks := w.marks
    kind := op
    ops := w.ops
    fin := fin }
  let pk := match w.place with
    | .peer win => some { peerPacket s k.fn win w.va with
        isAtom := kind == .atom
        data := w.data
        mask := w.mask
        marks := w.marks
        kind := op
        ops := w.ops }
    | _ => none
  let m := match w.place with
    | .peer win => { m with hint := BitVec.ofNat 16 (winModule win) }
    | _ => m
  { tag := tag, kind := kind, msg := m, fin := fin, held := true, slot := g.slot, pc := gr.pc, va := w.va, gidx := gr.gidx,
    quiet := false, peer := pk }

/-- Issues the line writes of an instruction from its core (R196, R277, R522): FINAL writes that stay behind are counted,
and what nothing holds leaves. -/
def issueWrites (s : State) (c : Nat) (ws : List WriteRec) : State :=
  let k := s.core c
  let holds := (ws.filter fun w => w.fin && earlierWrites k w.tag).length
  let s := if holds = 0 then s else s.bump 0x3072 6 c holds
  let k := if ws.any fun w => w.fin || w.kind == .atom || w.peer.isSome then k.irreversibly else k
  let s := ws.foldl (fun s w => if w.peer.isSome then s else dirtyMark s w.msg.fn w.va w.msg.line.host) s
  pump (s.setCore c { k with writes := k.writes ++ ws }) c

/-- A store, an atomic or the write side of a transfer: faults, then its line writes. DESIGN CHOICE (log entry 50): with an
ADDR_MAP or ACCESS fault none of the instruction's writes takes effect, where R211 lets those on other pages. -/
def writeRun (s : State) (k : Core) (g : GroupRef) (gr : Group) (as : List LaneAt) (ws : List WriteRec)
    (guard : BitVec 5) (extra : Core → Core) : Effect :=
  match placeFault true as with
  | some e => .faultIn s k e.cause e.va e.detail
  | none =>
    let gr := (gr.progress guard).advance
    if ws.isEmpty then .go s k gr
    else
      let s := issueWrites ((s.setCore g.core (extra (k.setGroup g.slot gr))).tickStamp) g.core ws
      .go s (s.core g.core) ((s.core g.core).group g.slot)

/-- LDG store (R196, R197). -/
def execLdgStore (g : GroupRef) (f : MFields) (s : State) : Out :=
  issue s g (ldgLegal f true) (specRun f.data (widthRegs f.width) ++ [f.addr, f.addr + 1]) fun s k gr =>
    let act := lanesOf (effMask gr f.guard)
    let vas := act.map fun t => (t, devAddr k gr g.slot f.addr f.offset t)
    if vas.any fun p => p.2 % widthBytes f.width ≠ 0 then .fault causeAlign 0
    else
      let r := locateAll s k g.core f.attrs vas
      let k := r.2.core g.core
      let lw := lineWrites r.1 (widthBytes f.width) (fun t => k.regs gr g.slot f.data t (widthRegs f.width)) fun _ _ => false
      writeRun r.2 k g gr r.1
        (lw.map (writeRec s k g gr .wr .and (accessClass f.attrs k) (accessLat f.attrs k) f.attrs.fin s.stamp)) f.guard id

/-! ## Atomics (R201 to R203) -/

/-- Registers of DATA of an atomic. -/
def atomRegs : AtomKind → Nat
  | .addU64 | .swapU64 => 2
  | .casU64 => 4
  | .casU128 => 8
  | _ => 1

/-- The legality of an ATOM word. DESIGN CHOICE (log entry 51): DATA is v or ZERO, and u where no old value returns; R201 says
how many registers it names and not of which kind. -/
def atomLegal (f : AFields) (op : AtomKind) : Option Nat :=
  firstFault (!(isZ f.data || ((isV f.data || (!f.ret && isU f.data)) && groupOk f.data (atomRegs op))) || !pairOk f.addr ||
    attrBad f.attrs false true f.ret) false

/-- A thread's operands: the compare value and the new value of a compare-and-swap, or DATA. -/
def atomOperand (k : Core) (gr : Group) (slot : Nat) (f : AFields) (op : AtomKind) (lane : Nat) : BitVec 128 × BitVec 128 :=
  let all := k.regs gr slot f.data lane (atomRegs op)
  match op with
  | .casU64 => (BitVec.ofNat 128 (all / 2 ^ 64), BitVec.ofNat 128 (all % 2 ^ 64))
  | .casU128 => (BitVec.ofNat 128 (all / 2 ^ 128), BitVec.ofNat 128 all)
  | _ => (BitVec.ofNat 128 all, 0)

/-- The operations of an instruction on each line, in ascending lane order. -/
def atomWrites (k : Core) (gr : Group) (slot : Nat) (f : AFields) (op : AtomKind) (as : List LaneAt) : List LineWrite :=
  (linesOf as).map fun l =>
    let mine := as.filter fun a => a.key == l
    let a0 := mine.headD ⟨0, 0, .unmapped 0⟩
    ⟨l, a0.va, a0.place, 0, 0, 0, mine.map fun a =>
      let v := atomOperand k gr slot f op a.lane
      ⟨Fin.ofNat 32 a.lane, Fin.ofNat 512 (a.va % 512), v.1, v.2⟩⟩

/-- The width code that an atomic's old value has. -/
def atomWidth (op : AtomKind) : BitVec 3 :=
  match atomSize op with
  | 8 => 4
  | 16 => 5
  | _ => 3

/-- An atomic instruction (R201): with RET its old values return to DATA. -/
def atomRun (op : AtomKind) (g : GroupRef) (f : AFields) (s : State) : Out :=
  issue s g (atomLegal f op) (specRun f.data (atomRegs op) ++ [f.addr, f.addr + 1]) fun s k gr =>
    let act := lanesOf (effMask gr f.guard)
    let vas := act.map fun t => (t, devAddr k gr g.slot f.addr f.offset t)
    if vas.any fun p => p.2 % atomSize op ≠ 0 then .fault causeAlign 0
    else
      let r := locateAll s k g.core f.attrs vas
      let k := r.2.core g.core
      let ws := (atomWrites k gr g.slot f op r.1).map
        (writeRec s k g gr .atom op (accessClass f.attrs k) (accessLat f.attrs k) f.attrs.fin s.stamp)
      let x : LoadRec :=
        { tag := s.stamp
          ro := false
          fn := k.fn
          tclass := 0
          lat := false
          slot := g.slot
          pc := gr.pc
          dst := f.data
          width := atomWidth op
          sext := false
          ret := true
          lanes := newLanes r.1 fun _ => 0
          lines := (newLines r.1).map fun y => { y with sent := true }
          olds := []
          skipped := false }
      writeRun r.2 k g gr r.1 ws f.guard fun k => if f.ret then { k with loads := k.loads ++ [x] } else k

/-- add.u32. -/
def execAtomAddU32 (g : GroupRef) (f : AFields) (s : State) : Out := atomRun .addU32 g f s
/-- add.u64. -/
def execAtomAddU64 (g : GroupRef) (f : AFields) (s : State) : Out := atomRun .addU64 g f s
/-- add.f32. -/
def execAtomAddF32 (g : GroupRef) (f : AFields) (s : State) : Out := atomRun .addF32 g f s
/-- add.bf16x2. -/
def execAtomAddBf16x2 (g : GroupRef) (f : AFields) (s : State) : Out := atomRun .addBf16x2 g f s
/-- min.s32. -/
def execAtomMinS32 (g : GroupRef) (f : AFields) (s : State) : Out := atomRun .minS32 g f s
/-- max.s32. -/
def execAtomMaxS32 (g : GroupRef) (f : AFields) (s : State) : Out := atomRun .maxS32 g f s
/-- min.u32. -/
def execAtomMinU32 (g : GroupRef) (f : AFields) (s : State) : Out := atomRun .minU32 g f s
/-- max.u32. -/
def execAtomMaxU32 (g : GroupRef) (f : AFields) (s : State) : Out := atomRun .maxU32 g f s
/-- and. -/
def execAtomAnd (g : GroupRef) (f : AFields) (s : State) : Out := atomRun .and g f s
/-- or. -/
def execAtomOr (g : GroupRef) (f : AFields) (s : State) : Out := atomRun .or g f s
/-- xor. -/
def execAtomXor (g : GroupRef) (f : AFields) (s : State) : Out := atomRun .xor g f s
/-- swap.u32. -/
def execAtomSwapU32 (g : GroupRef) (f : AFields) (s : State) : Out := atomRun .swapU32 g f s
/-- swap.u64. -/
def execAtomSwapU64 (g : GroupRef) (f : AFields) (s : State) : Out := atomRun .swapU64 g f s
/-- cas.u64. -/
def execAtomCasU64 (g : GroupRef) (f : AFields) (s : State) : Out := atomRun .casU64 g f s
/-- cas.u128. -/
def execAtomCasU128 (g : GroupRef) (f : AFields) (s : State) : Out := atomRun .casU128 g f s

/-! ## Acquire-with-yield (R132, R133, R202) -/

/-- The legality of acq: GUARD, RET and FINAL are zero, RO and LATCRIT do not apply, and the rejoin target is not below
0. -/
def acqLegal (pc : Word) (f : AFields) : Option Nat :=
  firstFault (f.guard != 0 || f.ret || !(isZ f.data || isV f.data || isU f.data) || !pairOk f.addr ||
    attrBad f.attrs false false false || decide ((pc.toNat : Int) + f.offset.toInt < 0)) false

/-- The operations of acq on its lines: lines in the order named, threads in ascending lane order; each is an access in its
home's order, whose first miss outside the bound is noted (R238, R273). -/
def acqOps (src key : Nat) (fn : Fn) (cls : BitVec 3) (lat : Bool) (as : List LaneAt) (owner : Nat → Word) :
    List Line → State → (List LaneOp × Bool) × State
  | [], s => (([], false), s)
  | l :: rest, s =>
    let ops := (as.filter fun a => a.key == l).map fun a =>
      (⟨Fin.ofNat 32 a.lane, Fin.ofNat 512 (a.va % 512), BitVec.ofNat 128 (owner a.lane).toNat, 0⟩ : LaneOp)
    let r := cohAtom (checkResidency (settle s l) key l) src fn cls lat l .acq ops
    let t := acqOps src key fn cls lat as owner rest r.2
    ((r.1.1 ++ t.1.1, r.1.2 || t.1.2), t.2)

/-- The number of stack entries below the paths of the innermost split region: those up to the nearest rejoin entry. -/
def rejoinDepth (k : Core) (c : CoreCmd) (slot : Nat) : Nat → Nat
  | 0 => 0
  | d + 1 => if (k.entry c slot d).rejoin then d + 1 else rejoinDepth k c slot d

/-- Moves the stack entries `lo` to `hi - 1` up by one place. -/
def shiftUp (k : Core) (c : CoreCmd) (slot lo : Nat) : Nat → Core
  | 0 => k
  | n + 1 => shiftUp (k.setEntry c slot (lo + n + 1) (k.entry c slot (lo + n))) c slot lo n

/-- A yield (R133): the paths of the innermost split region take turns, or the group waits with cause YIELD. -/
def yieldTo (s : State) (k : Core) (c : CoreCmd) (slot : Nat) (gr : Group) : Effect :=
  let r := rejoinDepth k c slot gr.depth
  if r < gr.depth then
    let top := k.entry c slot (gr.depth - 1)
    let k := (shiftUp k c slot r (gr.depth - 1 - r)).setEntry c slot r ⟨false, gr.pc.toNat, gr.mask⟩
    .go s k { gr with pc := BitVec.ofNat 32 top.pc, mask := top.mask &&& ~~~gr.exited }
  else .go s k (gr.pend waitYield 0)

/-- Whether acq may issue now: no line it names waits for host memory (log entry 13). -/
def acqReady (s : State) (g : GroupRef) (f : AFields) : Bool :=
  let k := s.core g.core
  let gr := k.group g.slot
  let vas := (lanesOf gr.mask).map fun t => (t, devAddr k gr g.slot f.addr 0 t)
  (linesOf (locateAll s k g.core f.attrs vas).1).all fun l => !l.host || !lineBusy (settle s l) l

/-- Logs the writes of the threads that took a lock (R414). -/
def markWon (fn : Fn) (as : List LaneAt) (won : Nat → Bool) (s : State) : State :=
  as.foldl (fun s a => if won a.lane then dirtyMark s fn a.va a.key.host else s) s

/-- The address of the first thread whose operation the homes did not apply (R203, R212). -/
def skippedVa (vas : List (Nat × Nat)) (applied : List LaneOp) : Nat :=
  ((vas.find? fun p => applied.all fun o => o.lane.val ≠ p.1).map Prod.snd).getD 0

/-- acq. A push beyond 32 entries leaves no effect; past that, compare-and-swaps on clean sectors stand though others met
poison (R203, R210, R211). -/
def execAcq (g : GroupRef) (f : AFields) (s : State) : Out :=
  if acqReady s g f then
    issue s g (acqLegal ((s.core g.core).group g.slot).pc f) [f.data, f.addr, f.addr + 1] fun s k gr =>
      match k.cmd with
      | none => .go s k gr
      | some c =>
        let act := lanesOf gr.mask
        let owner (t : Nat) : Word := k.src gr g.slot f.data t
        let vas := act.map fun t => (t, devAddr k gr g.slot f.addr 0 t)
        if act.any fun t => owner t = 0 then .fault causeIllegal 0
        else if vas.any fun p => p.2 % 4 ≠ 0 then .fault causeAlign 0
        else
          let r := locateAll s k g.core f.attrs vas
          let k := r.2.core g.core
          match placeFault true r.1, r.1.find? fun a => (a.denied false) with
          | some e, _ => .faultIn r.2 k e.cause e.va e.detail
          | none, some a => .faultIn r.2 k causeAccess a.va 0
          | none, none =>
            let ls := linesOf r.1
            match k.writes.find? fun w => ls.any fun l => w.msg.line == l with
            | some w => .wait waitLoad w.tag
            | none =>
              let x := acqOps (siteOfCore s g.core) c.step k.fn (accessClass f.attrs k) (accessLat f.attrs k) r.1 owner ls r.2
              let won (t : Nat) : Bool := x.1.1.any fun o => decide (o.lane.val = t) && o.val == 0
              let sMask := maskWith 0 gr.mask won
              let fMask := gr.mask &&& ~~~sMask
              let x := (x.1, markWon k.fn r.1 won x.2)
              let k := (x.2.core g.core).irreversibly
              if fMask ≠ 0 ∧ sMask ≠ 0 ∧ pushFaults c gr 2 = true then .fault causePath 0
              else if x.1.2 then .faultIn x.2 k causePoison (skippedVa vas x.1.1) 0
              else if fMask = 0 then .go x.2 k { gr.advance with watchdog := 0 }
              else if sMask = 0 then yieldTo x.2 k c g.slot gr
              else
                let target := (BitVec.ofInt 32 ((gr.pc.toNat : Int) + f.offset.toInt)).toNat
                let p := pushAll k c g.slot gr [⟨true, target, gr.mask⟩, ⟨false, gr.pc.toNat, fMask⟩]
                .go x.2 p.1 { p.2.advance with mask := sMask, watchdog := 0 }
  else cannot

/-! ## Transfers (R199, R200) -/

/-- The legality of an XFER word. -/
def xferLegal (f : MFields) (out : Bool) : Option Nat :=
  firstFault (f.hi != 0 || decide (f.width.toNat < 3) || decide (f.width = 7) || !pairOk f.addr || !isVUZ f.data ||
    attrBad f.attrs false out (!out)) false

/-- The device-virtual address of a thread: a uniform pair is a base to which thread t adds t x width. -/
def xferVa (k : Core) (gr : Group) (slot : Nat) (f : MFields) (t : Nat) : Nat :=
  (devAddr k gr slot f.addr f.offset t + (if isU f.addr then t * widthBytes f.width else 0)) % 2 ^ 64

/-- The local address of a thread: DATA that is not a v register is a base to which thread t adds t x width. DESIGN CHOICE (log
entry 52): ZERO is such a base; R199 speaks of a register. -/
def xferLa (k : Core) (gr : Group) (slot : Nat) (f : MFields) (t : Nat) : Nat :=
  ((k.src gr slot f.data t).toNat + (if isV f.data then 0 else t * widthBytes f.width)) % 2 ^ 32

/-- The precise fault of an XFER: ALIGN, then LMEM_RANGE (R193, R199). -/
def xferFault (k : Core) (gr : Group) (slot : Nat) (f : MFields) (act : List Nat) : Option Nat :=
  let n := widthBytes f.width
  let win := match k.cmd with
    | some c => c.window
    | none => 0
  if act.any fun t => xferVa k gr slot f t % n ≠ 0 ∨ xferLa k gr slot f t % min n 64 ≠ 0 then some causeAlign
  else if act.any fun t => win < xferLa k gr slot f t + n then some causeRange
  else none

/-- The record of a transfer. -/
def xferRec (s : State) (k : Core) (g : GroupRef) (gr : Group) (f : MFields) (out : Bool) (as : List LaneAt) : XferRec :=
  { tag := s.stamp
    slot := g.slot
    pc := gr.pc
    gidx := gr.gidx
    out := out
    fin := f.attrs.fin
    width := widthBytes f.width
    fn := k.fn
    tclass := accessClass f.attrs k
    lat := accessLat f.attrs k
    lanes := newLanes as fun t => xferLa k gr g.slot f t
    lines := newLines as }

/-- XFER from device memory (R200): a local-memory write from its issue, which never holds its group; its data is written
when nothing earlier uses the span (XFER_SPAN_WRITTEN). -/
def execXferIn (g : GroupRef) (f : MFields) (s : State) : Out :=
  issue s g (xferLegal f false) [f.data, f.addr, f.addr + 1] fun s k gr =>
    let act := lanesOf (effMask gr f.guard)
    match xferFault k gr g.slot f act with
    | some cause => .fault cause 0
    | none =>
      let r := locateAll s k g.core f.attrs (act.map fun t => (t, xferVa k gr g.slot f t))
      let k := r.2.core g.core
      match placeFault false r.1 with
      | some e => .faultIn r.2 k e.cause e.va e.detail
      | none =>
        if act.isEmpty then .go s k gr.advance
        else
          let k := { k with xfers := k.xfers ++ [xferRec s k g gr f false r.1] }
          let s := pump ((r.2.setCore g.core (k.setGroup g.slot gr.advance)).tickStamp) g.core
          .go s (s.core g.core) ((s.core g.core).group g.slot)

/-- The threads of a transfer as accesses again, from its record. -/
def XferRec.writes (x : XferRec) (s : State) (k : Core) (core : CoreNo) : List WriteRec :=
  let as := x.lanes.map fun a =>
    let y := (x.lines.find? fun y => y.line == a.line).getD ⟨a.line, 0, false, false, 0, 0⟩
    let va := y.va + a.off
    (⟨a.lane, va, if 2 ^ 60 ≤ a.line.no then .peer ((windowOf s x.fn va).getD 0) else .line a.line true⟩ : LaneAt)
  let la (t : Nat) : Nat := ((x.lanes.find? fun a => a.lane.val = t).map LaneAddr.la).getD 0
  let lw := lineWrites as x.width (fun t => k.lread (la t) x.width) fun t i =>
    k.spanMarked (la t + 128 * i, min 128 (x.width - 128 * i))
  lw.map (writeRec s k ⟨core, x.slot⟩ { Group.empty with pc := x.pc, gidx := x.gidx } .wr .and x.tclass x.lat x.fin x.tag)

/-- Performs the transfers to device memory whose spans nothing earlier writes any more: they read their spans and their
writes leave (R200). -/
def runOuts (core : CoreNo) : Nat → State → State
  | 0, s => s
  | n + 1, s =>
    let k := s.core core
    match k.xfers.find? fun x => x.out && !k.outHeld x with
    | none => s
    | some x =>
      let ws := x.writes s k core
      let s := s.setCore core { k with xfers := k.xfers.filter fun y => y.tag ≠ x.tag }
      runOuts core n (issueWrites s core ws)

/-- XFER to device memory (R200): it never holds its group, and reads its span after every earlier write to it. -/
def execXferOut (g : GroupRef) (f : MFields) (s : State) : Out :=
  issue s g (xferLegal f true) [f.data, f.addr, f.addr + 1] fun s k gr =>
    let act := lanesOf (effMask gr f.guard)
    match xferFault k gr g.slot f act with
    | some cause => .fault cause 0
    | none =>
      let r := locateAll s k g.core f.attrs (act.map fun t => (t, xferVa k gr g.slot f t))
      let k := r.2.core g.core
      match placeFault true r.1 with
      | some e => .faultIn r.2 k e.cause e.va e.detail
      | none =>
        let gr' := (gr.progress f.guard).advance
        if act.isEmpty then .go s k gr'
        else
          let k := { k with xfers := k.xfers ++ [xferRec s k g gr f true r.1] }
          let s := runOuts g.core k.xfers.length ((r.2.setCore g.core (k.setGroup g.slot gr')).tickStamp)
          .go s (s.core g.core) ((s.core g.core).group g.slot)

/-- After something in local memory or in the queue is done: operations start, waits resolve, transfers to device memory
read their spans (R149, R156, R163, R164, R200). -/
def afterTracked (s : State) (c : CoreNo) : State :=
  let k := (s.core c).startOps.resolveTickets s.stamp
  let s := (s.setCore c k).tickStamp
  let s := runOuts c k.xfers.length s
  pump (s.setCore c ((s.core c).startOps.resolveTickets s.stamp)) c

/-! ## Local memory (R120, R136, R137, R164, R193 to R195, R197) -/

/-- What a local-memory access does that nothing holds. DESIGN CHOICE (log entry 49): a load of a poisoned sector faults also
where its DATA is ZERO, which discards what it loads; R194 speaks of registers. -/
def ldlEffect (g : GroupRef) (f : MFields) (store : Bool) (s : State) (k : Core) (gr : Group) (act : List Nat)
    (spans : List Span) : Effect :=
  if store then
    let k' := act.foldl (ldlStore1 gr g.slot f k) k
    .go s (if f.width = 0 then k' else k'.cleanCovered spans) (gr.progress f.guard).advance
  else if spans.any k.spanMarked then .fault causePoison 0
  else if isZ f.data then .go s k gr.advance
  else
    .go s (act.foldl (fun k' t => k'.setRun g.slot (regNo f.data) t (widthRegs f.width) (ldlValue k gr g.slot f t)) k)
      gr.advance

/-- An access that the range tracker held is done: what waits for it goes on (R163, R200). -/
def released (g : GroupRef) (e : Effect) : Effect :=
  match e with
  | .go s k gr =>
    if (k.heldOf g.slot).isSome then
      let k := { k with held := k.held.filter fun h => decide (h.slot ≠ g.slot) }
      let s := afterTracked (s.setCore g.core (k.setGroup g.slot gr)) g.core
      .go s (s.core g.core) ((s.core g.core).group g.slot)
    else .go s k gr
  | e => e

/-- A local-memory access: its address faults, what the range tracker holds, then its effect. -/
def ldlRun (s : State) (g : GroupRef) (f : MFields) (store : Bool) : Out :=
  issue s g (ldlLegal f store) (specRun f.data (widthRegs f.width) ++ [f.addr]) fun s k gr =>
    match ldlFault k gr g.slot f with
    | some cause => .fault cause 0
    | none =>
      let act := lanesOf (effMask gr f.guard)
      let spans := act.map (ldlSpan k gr g.slot f)
      let order := match k.heldOf g.slot with
        | some h => h.order
        | none => s.stamp
      match (k.holders order store spans).getLast? with
      | some holder => holdAccess s k gr g store spans holder
      | none => released g (ldlEffect g f store (countReplays s g.core spans) k gr act spans)

/-- LDL load. -/
def execLdlLoad (g : GroupRef) (f : MFields) (s : State) : Out := ldlRun s g f false

/-- LDL store: the thread of the highest lane wins a byte (R197). -/
def execLdlStore (g : GroupRef) (f : MFields) (s : State) : Out := ldlRun s g f true

end Sys2Proof.Machine
end

