-- ==== Sys2Proof/Machine/Convert.lean ====
section
/-!
DEFINITION. The conversion rows (R88 to R94, R188, R189).
-/
namespace Sys2Proof.Machine

/-- ROUND of a VC row. -/
def vcRound (f : RFields) : Nat := bits f.mod.toNat 0 2
/-- FMT of a VC row. -/
def vcFmt (f : RFields) : Nat := bits f.mod.toNat 2 4
/-- SCALED of a VC row. -/
def vcScaled (f : RFields) : Bool := f.mod.getLsbD 6
/-- HIGH of a VC row. -/
def vcHigh (f : RFields) : Bool := f.mod.getLsbD 7

/-- The random value r that lane element `pos` of this instruction draws (R89): SEED of the step, logical core, group
index, conversion count, position. -/
def laneDraw (k : Core) (core : CoreNo) (gr : Group) (pos : Nat) : Nat :=
  match k.cmd with
  | some c => srDraw c.seed core gr.gidx gr.conv.toNat pos
  | none => 0

/-- A VC instruction advances the group's conversion count whatever its effective mask (R182, R189). -/
def Group.converted (gr : Group) : Group := { gr with conv := gr.conv + 1 }

/-- Writes the element codes of a conversion and counts its saturations and NaNs written as 0 (R106). -/
def convWrite (s : State) (k : Core) (gr : Group) (g : GroupRef) (v : VArgs) (f : Nat → Narrow) : State × Core :=
  let act := lanesOf (effMask gr v.guard)
  let sat := (act.filter fun t => (f t).sat).length
  let nan0 := (act.filter fun t => (f t).nan0).length
  (countConv s g.core sat nan0 0, k.setVs g.slot (regNo v.dst) (effMask gr v.guard) fun t => BitVec.ofNat 32 (f t).code)

/-- The block of a scaled cvt: the 32 lanes of SA, an inactive lane counting as zero (R93). -/
def cvtBlock (k : Core) (gr : Group) (slot : Nat) (v : VArgs) : List FVal :=
  lanes.map fun t => if (effMask gr v.guard).getLsbD t then Fmt.fp32.decode (v.a.val k gr slot t).toNat
    else .fin false 0 0

/-- cvt: FP32 to FMT; with SCALED the lanes form one block, whose scale byte the uniform register SC receives whatever
the effective mask (R182, R188). -/
def execCvt (g : GroupRef) (f : RFields) (s : State) : Out :=
  let v := vArgsR f false false 0x7F
  let illegal := v.illegal || (vcScaled f && !isU f.sc)
  let format := decide (vcFmt f = 0) || !scaleAllowed (vcFmt f) (vcScaled f) || decide (vcRound f = 3)
  issue s g (firstFault illegal format) (v.regs ++ (if vcScaled f then [f.sc] else [])) fun s k gr =>
    let mode (t : Nat) : RMode := rmode (vcRound f) (laneDraw k g.core gr t)
    if vcScaled f then
      let b := blockStore (vcFmt f) mode (cvtBlock k gr g.slot v)
      let r := convWrite s k gr g v fun t => b.elems.getD t ⟨0, false, false⟩
      let s := if b.nonfinite then countConv r.1 g.core 0 0 1 else r.1
      .go s (r.2.setU g.slot (regNo f.sc) (BitVec.ofNat 32 b.scale)) gr.converted.advance
    else
      let r := convWrite s k gr g v fun t => narrowTo (vcFmt f) (mode t) (Fmt.fp32.decode (v.a.val k gr g.slot t).toNat)
      .go r.1 r.2 gr.converted.advance

/-- The FP32 code that an element widens to (R85, R91). -/
def widen (fmt : Nat) (scale : Option Nat) (code : Nat) : Nat :=
  let e := bits code 0 (fmtBits fmt)
  Fmt.fp32.encode .rne (match scale with
    | some sc => scaledVal fmt e sc
    | none => elemVal fmt e)

/-- cvtw: an element code to FP32; with SCALED bits [7:0] of the uniform register SB hold the scale. -/
def execCvtw (g : GroupRef) (f : RFields) (s : State) : Out :=
  let v := vArgsR f false false 0x7F
  let illegal := v.illegal || (vcScaled f && !isU f.sb)
  let format := decide (vcFmt f = 0) || !scaleAllowed (vcFmt f) (vcScaled f) || decide (vcRound f ≠ 0)
  issue s g (firstFault illegal format) (v.regs ++ (if vcScaled f then [f.sb] else [])) fun s k gr =>
    let scale := if vcScaled f then some (bits (k.u g.slot (regNo f.sb)).toNat 0 8) else none
    .go s (vecWrite k gr g.slot v fun a _ _ => BitVec.ofNat 32 (widen (vcFmt f) scale a.toNat)) gr.converted.advance

/-- cvtp: SA and SB to FMT, packed; each half draws its own r (R189). -/
def execCvtp (g : GroupRef) (f : RFields) (s : State) : Out :=
  let v := vArgsR f true false 0x7F
  let format := !(vcFmt f = 1 || vcFmt f = 2) || vcScaled f || decide (vcRound f = 3)
  issue s g (firstFault v.illegal format) v.regs fun s k gr =>
    let half (x : Src) (t pos : Nat) : Narrow :=
      narrowTo (vcFmt f) (rmode (vcRound f) (laneDraw k g.core gr pos)) (Fmt.fp32.decode (x.val k gr g.slot t).toNat)
    let act := lanesOf (effMask gr v.guard)
    let sat := (act.filter fun t => (half v.a t (2 * t)).sat).length + (act.filter fun t => (half v.b t (2 * t + 1)).sat).length
    .go (countConv s g.core sat 0 0)
      (k.setVs g.slot (regNo v.dst) (effMask gr v.guard) fun t =>
        BitVec.ofNat 32 ((half v.a t (2 * t)).code + 2 ^ 16 * (half v.b t (2 * t + 1)).code)) gr.converted.advance

/-- cvtu: the half of SA that HIGH chooses, widened exactly. -/
def execCvtu (g : GroupRef) (f : RFields) (s : State) : Out :=
  let v := vArgsR f false false 0xFF
  let format := !(vcFmt f = 1 || vcFmt f = 2) || vcScaled f || decide (vcRound f ≠ 0)
  issue s g (firstFault v.illegal format) v.regs fun s k gr =>
    .go s (vecWrite k gr g.slot v fun a _ _ =>
      BitVec.ofNat 32 (widen (vcFmt f) none (bits a.toNat (if vcHigh f then 16 else 0) 16))) gr.converted.advance

/-- cvti: INT32 to FP32 in RNE or RTZ. -/
def execCvti (g : GroupRef) (f : RFields) (s : State) : Out :=
  let v := vArgsR f false false 0x7F
  let format := decide (vcFmt f ≠ 0) || vcScaled f || decide (2 ≤ vcRound f)
  issue s g (firstFault v.illegal format) v.regs fun s k gr =>
    .go s (vecWrite k gr g.slot v fun a _ _ =>
      BitVec.ofNat 32 (Fmt.fp32.encode (rmode (vcRound f) 0) (FVal.ofInt a.toInt))) gr.converted.advance

end Sys2Proof.Machine
end

