-- ==== Sys2Proof/Machine/Matrix.lean ====
section
/-!
DEFINITION. The matrix engine (R146 to R169, R204): the checks and the issue of its operations, what they compute, and
the tickets.
-/
namespace Sys2Proof.Machine

/-! ## Checks at issue (R148, R151, R153, R95) -/

/-- The greatest COLS of an operand of mma and mmaz (R148, R151). -/
def colLimit (fmt : Nat) : Nat :=
  match fmt with
  | 0 => 1024
  | 1 => 8192
  | 2 => 8192
  | _ => 16384

/-- The conditions of SHAPE that hold for every descriptor, with its COLS limit (R153). -/
def shapeBad (d : BitVec 256) (limit : Nat) : Bool :=
  dReserved d || dRows d == 0 || decide (64 < dRows d) || dCols d == 0 || decide (limit < dCols d) ||
    dBase d % 16 != 0 || dPitch d % 16 != 0 || decide (dPitch d < dRowLen d) ||
    (dScaled d && (dCols d % 32 != 0 || decide (dScalePitch d < dCols d / 32)))

/-- A descriptor that breaks R83 or names a reserved format code. -/
def fmtBad (d : BitVec 256) : Bool := !scaleAllowed (dFormat d) (dScaled d)

/-- The chunk length along K of an operand pair, none for a pair that R95 does not list. DESIGN CHOICE (log entry 47): either
operand of an INT8 x INT4 pair may be block-scaled, as R83 allows its format; R95's table says so of INT8 x INT8 only. -/
def pairChunk (a b : Nat) : Option Nat :=
  let small (x : Nat) : Bool := x == 3 || x == 4 || x == 5
  if small a && small b then some 64
  else if a = 6 && b = 6 || a = 6 && b = 7 || a = 7 && b = 6 || a = 7 && b = 7 then some 64
  else if a = 2 && b = 2 || a = 1 && b = 1 then some 32
  else if a = 0 && b = 0 then some 1
  else none

/-- Whether every span of a descriptor lies in the window (R120, R154). -/
def spansOut (d : BitVec 256) (window : Nat) : Bool := (dSpans d).any fun sp => decide (window < sp.1 + sp.2)

/-- The first cause in table order of five checks (R210). -/
def firstCause (illegal format shape range : Bool) : Option Nat :=
  if illegal then some causeIllegal else if format then some causeFormat else if shape then some causeShape
  else if range then some causeRange else none

/-- The fields that an operation does not use are zero, and no GUARD is set (R181, R204). -/
def matIllegal (kind : MatKind) (f : XFields) : Bool :=
  f.guard != 0 || f.rsvd != 0 || f.pd != 0 ||
    (match kind with
     | .mma | .mmaz => false
     | .tzero => f.da != 0 || f.db != 0
     | .tld | .tst => f.db != 0)

/-- The checks of R153 on the descriptors that an operation names. -/
def matLegal (kind : MatKind) (f : XFields) (da db : BitVec 256) (window : Nat) : Option Nat :=
  let ill := matIllegal kind f
  match kind with
  | .mma | .mmaz =>
    firstCause ill (fmtBad da || fmtBad db || (pairChunk (dFormat da) (dFormat db)).isNone)
      (shapeBad da (colLimit (dFormat da)) || shapeBad db (colLimit (dFormat db)) || dCols da != dCols db ||
        dTranspose da || dTranspose db || dBcast da || dBcast db)
      (spansOut da window || spansOut db window)
  | .tzero => firstCause ill false false false
  | .tld =>
    firstCause ill (fmtBad da) (shapeBad da 64 || dTranspose da || (dBcast da && dRows da != 1)) (spansOut da window)
  | .tst =>
    firstCause ill (fmtBad da || dRound da == 3) (shapeBad da 64 || dBcast da) (spansOut da window)

/-! ## Issue (R149, R152, R155) -/

/-- A ticket's count (R155). -/
def Core.ticket (k : Core) (t : Nat) : Nat := sget (fun _ => 0) k.tickets t

/-- Sets a ticket's count. -/
def Core.setTicket (k : Core) (t n : Nat) : Core := { k with tickets := sset (fun _ => 0) k.tickets t n }

/-- Whether an operation may issue: fewer than 16 hold the queue and its ticket stands below 255; until then the group
waits in the active set (R149, R155). DESIGN CHOICE (log entry 48): an ill-formed operation waits so too, and faults when it
issues. -/
def matReady (s : State) (g : GroupRef) (f : XFields) : Bool :=
  decide ((s.core g.core).mq.length < 16) && decide ((s.core g.core).ticket f.kt.toNat < 255)

/-- Issues a matrix operation: it enters the queue with copies of its descriptors, its ticket counts 1 more, and it
starts when its pipe is free and nothing holds it. A tst advances the conversion count (R161). -/
def matRun (kind : MatKind) (s : State) (g : GroupRef) (f : XFields) : Out :=
  let k0 := s.core g.core
  let da := k0.desc f.da.toNat
  let db := k0.desc f.db.toNat
  let win := match k0.cmd with
    | some c => c.window
    | none => 0
  if matReady s g f then
    issue s g (matLegal kind f da db win) [] fun s k gr =>
      let op : MatOp :=
        { kind := kind
          ticket := f.kt.toFin
          tile := f.tile.toFin
          da := da
          db := db
          slot := g.slot
          pc := gr.pc
          gidx := gr.gidx
          conv := gr.conv.toNat
          phase := .queued
          order := s.stamp
          bad := false
          quiet := false }
      let k := ({ k with mq := k.mq ++ [op] }.setTicket f.kt.toNat (k.ticket f.kt.toNat + 1)).startOps
      let gr := { gr with
        watchdog := 0
        conv := if kind = MatKind.tst then gr.conv + 1 else gr.conv }
      .go s.tickStamp k gr.advance
  else cannot

/-- mma. -/
def execMma (g : GroupRef) (f : XFields) (s : State) : Out := matRun .mma s g f
/-- mmaz. -/
def execMmaz (g : GroupRef) (f : XFields) (s : State) : Out := matRun .mmaz s g f
/-- tzero. -/
def execTzero (g : GroupRef) (f : XFields) (s : State) : Out := matRun .tzero s g f
/-- tld. -/
def execTld (g : GroupRef) (f : XFields) (s : State) : Out := matRun .tld s g f
/-- tst. -/
def execTst (g : GroupRef) (f : XFields) (s : State) : Out := matRun .tst s g f

/-- twait (R156): its wait resolves when the ticket's count is 0, and the group then goes on behind it. -/
def execTwait (g : GroupRef) (f : XFields) (s : State) : Out :=
  issue s g (firstFault (f.guard != 0 || f.rsvd != 0 || f.pd != 0 || f.tile != 0 || f.da != 0 || f.db != 0) false) []
    fun s k gr => if k.ticket f.kt.toNat = 0 then .go s k gr.advance else .wait waitTicket f.kt.toNat

/-- ttest (R156). -/
def execTtest (g : GroupRef) (f : XFields) (s : State) : Out :=
  issue s g (firstFault (f.guard != 0 || f.rsvd != 0 || f.tile != 0 || f.da != 0 || f.db != 0) false) [] fun s k gr =>
    .go s k (gr.setPred f.pd.toNat
      (maskWith (gr.pred f.pd.toNat) gr.mask fun _ => decide (k.ticket f.kt.toNat = 0))).advance

/-! ## What an operation computes -/

/-- A tile element. -/
def Core.tile (k : Core) (t i j : Nat) : Word := sget (fun _ => 0) k.tiles (t * 4096 + i * 64 + j)

/-- Sets a tile element. -/
def Core.setTile (k : Core) (t i j : Nat) (w : Word) : Core :=
  { k with tiles := sset (fun _ => 0) k.tiles (t * 4096 + i * 64 + j) w }

/-- The rows and columns below `m` and `n`. -/
def cells (m n : Nat) : List (Nat × Nat) := (List.range m).flatMap fun i => (List.range n).map fun j => (i, j)

/-- The element code of row r, column c of an operand (R81, R151). -/
def Core.elemAt (k : Core) (d : BitVec 256) (r c : Nat) : Nat :=
  let b := fmtBits (dFormat d)
  let a := dBase d + r * dPitch d + c * b / 8
  bits (k.lread a ((b + 7) / 8)) (c * b % 8) b

/-- The scale byte of the block that holds column c of row r (R84). -/
def Core.scaleAt (k : Core) (d : BitVec 256) (r c : Nat) : Nat :=
  k.lread (dScaleBase d + r * dScalePitch d + c / 32) 1

/-- An operand element as the array takes it (R83, R85, R98). -/
def Core.operand (k : Core) (d : BitVec 256) (r c : Nat) : FVal :=
  let e := k.elemAt d r c
  if dScaled d then scaledVal (dFormat d) e (k.scaleAt d r c)
  else match dFormat d with
    | 0 => flush .fp32 e
    | 1 => flush .fp16 e
    | 2 => flush .bf16 e
    | x => elemVal x e

/-- One tile element after the chunks of a row pair (R96, R147). -/
def Core.dotChunks (k : Core) (da db : BitVec 256) (chunk i j : Nat) (old : Nat) : Nat :=
  (List.range ((dCols da + chunk - 1) / chunk)).foldl (fun acc n =>
    chunkStep acc ((List.range (min chunk (dCols da - n * chunk))).map fun x =>
      (k.operand da i (n * chunk + x)).mul (k.operand db j (n * chunk + x)))) old

/-- The bytes that an operation fetches or stores through a descriptor, row by row, without the padding (R165, R167). -/
def rowSpans (d : BitVec 256) : List Span :=
  (List.range (dRows d)).flatMap fun r =>
    (dBase d + r * dPitch d, dRowLen d) ::
      (if dScaled d then [(dScaleBase d + r * dScalePitch d, dCols d / 32)] else [])

/-- Whether a descriptor's rows lie over a marked sector. -/
def Core.rowsMarked (k : Core) (d : BitVec 256) : Bool := (rowSpans d).any k.spanMarked

/-- A tile's mark. -/
def Core.tileMark (k : Core) (t : Nat) : Bool := sget (fun _ => false) k.tmarks t

/-- Sets a tile's mark. -/
def Core.setTileMark (k : Core) (t : Nat) (b : Bool) : Core := { k with tmarks := sset (fun _ => false) k.tmarks t b }

/-- mma and mmaz (R147, R165): whether the operation met poison, and the core after it. -/
def Core.doMma (k : Core) (o : MatOp) : Bool × Core :=
  let t := o.tile.val
  let chunk := (pairChunk (dFormat o.da) (dFormat o.db)).getD 64
  let bad := k.rowsMarked o.da || k.rowsMarked o.db || (o.kind == .mma && k.tileMark t)
  let k' := (cells (dRows o.da) (dRows o.db)).foldl (fun k' p =>
    k'.setTile t p.1 p.2 (BitVec.ofNat 32
      (k.dotChunks o.da o.db chunk p.1 p.2 (if o.kind = .mma then (k.tile t p.1 p.2).toNat else 0)))) k
  (bad, if bad then k'.setTileMark t true else k')

/-- tzero: +0 to every element, and the tile's mark is cleared (R159, R165). -/
def Core.doTzero (k : Core) (t : Nat) : Core :=
  { k with
    tiles := sclear k.tiles (t * 4096) ((t + 1) * 4096)
    tmarks := sset (fun _ => false) k.tmarks t false }

/-- tld (R159). -/
def Core.doTld (k : Core) (o : MatOp) : Core :=
  let d := o.da
  let t := o.tile.val
  let src (i j : Nat) : Nat :=
    let r := if dBcast d then 0 else i
    widen (dFormat d) (if dScaled d then some (k.scaleAt d r j) else none) (k.elemAt d r j)
  let k' := (cells (if dBcast d then 64 else dRows d) (dCols d)).foldl (fun k' p =>
    k'.setTile t p.1 p.2 (BitVec.ofNat 32 (src p.1 p.2))) k
  if k.rowsMarked d then k'.setTileMark t true else k'

/-- The tile row and column that stored row r, element c, receives (R160). -/
def tstCell (d : BitVec 256) (r c : Nat) : Nat × Nat := if dTranspose d then (c, r) else (r, c)

/-- The rounding mode of an element of a tst, with its r (R89, R161). -/
def tstMode (seed core : Nat) (o : MatOp) (r c : Nat) : RMode :=
  let p := tstCell o.da r c
  rmode (dRound o.da) (srDraw seed core o.gidx o.conv (p.1 * 64 + p.2))

/-- The element codes and the scale bytes of one stored row of a tst, and how many blocks were not finite. -/
def Core.tstRow (k : Core) (seed core : Nat) (o : MatOp) (r : Nat) : List Narrow × List Nat × Nat :=
  let d := o.da
  let v (c : Nat) : FVal := Fmt.fp32.decode (k.tile o.tile (tstCell d r c).1 (tstCell d r c).2).toNat
  if dScaled d then
    let bs := (List.range (dCols d / 32)).map fun b =>
      blockStore (dFormat d) (fun i => tstMode seed core o r (32 * b + i)) ((List.range 32).map fun i => v (32 * b + i))
    (bs.flatMap BlockOut.elems, bs.map BlockOut.scale, (bs.filter BlockOut.nonfinite).length)
  else ((List.range (dCols d)).map fun c => narrowTo (dFormat d) (tstMode seed core o r c) (v c), [], 0)

/-- Numbers of `w` bits side by side, the first lowest. -/
def packBits (w : Nat) : List Nat → Nat
  | [] => 0
  | x :: t => x % 2 ^ w + 2 ^ w * packBits w t

/-- Stores one row of a tst; bits of the last byte beyond the row stay. -/
def Core.storeRow (k : Core) (o : MatOp) (r : Nat) (row : List Narrow × List Nat × Nat) : Core :=
  let d := o.da
  let w := fmtBits (dFormat d)
  let a := dBase d + r * dPitch d
  let k := k.lwrite a (dRowLen d)
    (putBits (k.lread a (dRowLen d)) 0 (w * dCols d) (packBits w (row.1.map Narrow.code)))
  if dScaled d then k.lwrite (dScaleBase d + r * dScalePitch d) (dCols d / 32) (packBits 8 row.2.1) else k

/-- tst (R160, R161, R165): data, scales, marks and counters. -/
def doTst (s : State) (c : Nat) (k : Core) (o : MatOp) : State × Core :=
  let seed := match k.cmd with
    | some x => x.seed
    | none => 0
  let rows := (List.range (dRows o.da)).map fun r => (r, k.tstRow seed c o r)
  let k' := rows.foldl (fun k' p => k'.storeRow o p.1 p.2) k
  let k' := if k.tileMark o.tile then ((rowSpans o.da).flatMap Span.sectors).foldl (fun k' n => k'.setLmark n true) k'
    else k'.cleanCovered (rowSpans o.da)
  let all := rows.flatMap fun p => p.2.1
  (countConv s c (all.filter Narrow.sat).length (all.filter Narrow.nan0).length
    (rows.foldl (fun a p => a + p.2.2.2) 0), k')

/-! ## Cycles (R150, R167, R169) -/

/-- Array cycles of one chunk of a pair (R150). -/
def chunkCycles (a b : Nat) : Nat :=
  if a = 0 then 8 else if (a = 5 && b = 5) || (a = 7 && b = 7) then 16 else 32

/-- Elements of K in one operand group (R167). -/
def groupStep (fmt : Nat) : Nat :=
  match fmt with
  | 0 => 16 | 1 => 32 | 2 => 32 | 5 => 128 | 7 => 128 | _ => 64

/-- The banks that the units of operand group n of a descriptor touch (R169). -/
def groupBanks (d : BitVec 256) (n : Nat) : List Nat :=
  (List.range (dRows d)).flatMap fun r =>
    let a := dBase d + r * dPitch d + 64 * n
    let len := min 64 (dRowLen d - 64 * n)
    if len = 0 then [] else if (a + len - 1) / 64 = a / 64 then [a / 64 % 32] else [a / 64 % 32, (a / 64 + 1) % 32]

/-- The banks of the units that step n of the pair fetches: an operand fetches at the start of each of its own
groups. -/
def stepBanks (d : BitVec 256) (k0 : Nat) : List Nat :=
  if k0 % groupStep (dFormat d) = 0 then groupBanks d (k0 / groupStep (dFormat d)) else []

/-- The occupancy without stretch and the stretch of an array operation (R150, R169). -/
def arrayCycles (da db : BitVec 256) : Nat × Nat :=
  let chunk := (pairChunk (dFormat da) (dFormat db)).getD 64
  let step := min (groupStep (dFormat da)) (groupStep (dFormat db))
  (List.range ((dCols da + step - 1) / step)).foldl (fun acc n =>
    let base := (min step (dCols da - n * step) + chunk - 1) / chunk * chunkCycles (dFormat da) (dFormat db)
    let banks := stepBanks da (n * step) ++ stepBanks db (n * step)
    let busiest := (List.range 32).foldl (fun a b => max a (banks.filter fun x => x = b).length) 0
    (acc.1 + base, acc.2 + (busiest - base))) (0, 0)

/-- What an operation does over its occupancy: its effect, and the array's counters (R150, R165, R174). -/
def finishOp (s : State) (c : Nat) (k : Core) (o : MatOp) : State × Core :=
  match o.kind with
  | .mma | .mmaz =>
    let r := k.doMma o
    let cy := arrayCycles o.da o.db
    let s := s.bump 0x3060 2 c (cy.1 + cy.2)
    let s := if cy.2 = 0 then s else s.bump 0x3060 3 c cy.2
    (s, { r.2 with mq := updFirst (fun e => decide (e.order = o.order)) (fun e => { e with bad := r.1 }) r.2.mq })
  | .tzero => (s, k.doTzero o.tile)
  | .tld => (s, k.doTld o)
  | .tst => doTst s c k o

end Sys2Proof.Machine
end

