-- ==== Sys2Proof/Machine/CoreEvents.lean ====
section
/-!
DEFINITION. The events of a core that no instruction makes: group starts and promotions, returning data, the matrix pipes,
transfers, timeouts and faults (R111, R115, R118, R133, R135, R150, R196, R200, R212, R218).
-/
namespace Sys2Proof.Machine

/-- A slot's registers at the start of a group (R115): v0 holds the lane number, u0 to u6 what the command gives. -/
def Core.startRegs (k : Core) (c : CoreCmd) (core slot gidx : Nat) : Core :=
  let k := { k with rf := sclear k.rf (slot * 2048) ((slot + 1) * 2048) }
  let k := k.setVs slot 0 (BitVec.allOnes 32) fun t => BitVec.ofNat 32 t
  let u : List Nat := [bits c.args.toNat 0 32, bits c.args.toNat 32 32, gidx, c.grid, core, slot, c.window]
  u.zipIdx.foldl (fun k p => k.setU slot p.2 (BitVec.ofNat 32 p.1)) k

/-- A group as it starts (R115, R117): pending with wait cause START, which counts as resolved at once (R118). -/
def startGroup (gidx at_ : Nat) : Group :=
  (({ Group.empty with mask := BitVec.allOnes 32, gidx := gidx }).pend waitStart 0).resolve at_

/-- GROUP_START (R111, R115). -/
def execGroupStart (g : GroupRef) (s : State) : Out :=
  let k := s.core g.core
  match k.cmd with
  | none => cannot
  | some c =>
    guarded (k.runs && !c.stopping && decide (g.slot.val < c.resident) && decide ((k.group g.slot).state = 0) &&
        decide (c.next < c.first + c.count)) <|
      let k := (k.startRegs c g.core g.slot c.next).setGroup g.slot (startGroup c.next s.stamp)
      (s.setCore g.core { k with cmd := some { c with next := c.next + 1 } }).tickStamp

/-- The pending groups of a quarter whose waits have resolved. -/
def Core.resolvedGroups (k : Core) (quarter : Nat) : List (Nat × Group) :=
  k.groups.filter fun p => p.1 % 4 == quarter && p.2.state == 2 && p.2.resolved.isSome

/-- The groups in a quarter's active set. -/
def Core.activeCount (k : Core) (quarter : Nat) : Nat :=
  (k.groups.filter fun p => p.1 % 4 == quarter && p.2.state == 1).length

/-- The group whose wait resolved earliest, on a tie the lower slot (R118). -/
def earliest : List (Nat × Group) → Option (Nat × Group)
  | [] => none
  | p :: t =>
    match earliest t with
    | none => some p
    | some q => if q.2.resolved.getD 0 < p.2.resolved.getD 0 then some q else some p

/-- GROUP_PROMOTE (R118). -/
def execGroupPromote (core : CoreNo) (quarter : Fin 4) (s : State) : Out :=
  let k := s.core core
  match earliest (k.resolvedGroups quarter) with
  | none => cannot
  | some p =>
    guarded (k.runs && decide (k.activeCount quarter < 4)) (s.setCore core (k.setGroup p.1 p.2.activate))

/-- Whether everything that a load waits for has arrived. -/
def LoadRec.arrived (x : LoadRec) : Bool := x.lines.all LineWait.got

/-- LOAD_DATA_RETURN (R117, R196, R201): the first load of the group that has arrived reaches its registers, or faults
with cause POISON. -/
def execLoadDataReturn (g : GroupRef) (s : State) : Out :=
  let k := s.core g.core
  match k.loads.find? fun x => x.slot == g.slot && x.arrived with
  | none => cannot
  | some x =>
    let k := { k with loads := k.loads.filter fun y => decide (y.tag ≠ x.tag) }
    match (if x.ret then none else x.poisoned) with
    | some va => .next (afterTracked (lateFault (s.setCore g.core k) g.core g.slot (k.group g.slot).gidx causePoison va x.pc) g.core)
    | none => .next (pump (s.setCore g.core (x.write k)) g.core)

/-- Gives the arrived sectors of a miss register to the loads that wait for them and need no others (R218), with the marks that
a read-only fill delivers (R243). -/
def serveWaiters (marks : Marks) (m : MissReg) (k : Core) : Core :=
  { k with loads := k.loads.map fun x =>
      if (m.waiters.any fun w => w.2 = x.tag) ∧ sectorsNeeded x.bytes x.lanes m.line &&& ~~~m.got = 0 then
        { x with lines := gotLine m.line m.data marks x.lines } else x }

/-- The sectors of a line up to the n-th that the unified cache returns: the critical one first, then the others in ascending
order, wrapping from 3 to 0 (R218). -/
def sectorsUpTo (crit : Fin 4) (n : Nat) : Marks :=
  (List.range n).foldl (fun m i => m ||| (1#4 <<< ((crit.val + i) % 4))) 0

/-- Whether sectors are the next ones of a miss register in that order. -/
def nextSectors (m : MissReg) (sectors : Marks) : Bool :=
  (List.range 5).any fun n => m.got ||| sectors == sectorsUpTo m.crit n

/-- Places a line in a core's read-only cache: 64 sets of 8 ways, least recently used (R216). -/
def Core.roInsert (k : Core) (l : Line) (r : RoLine) : Core :=
  let set := k.ro.filter fun p => p.1 / 2 % 64 == l.no % 64
  let ro := if set.length < 8 then k.ro
    else match leastUsed RoLine.use set with
      | some v => sset (fun _ => RoLine.none) k.ro v.1 RoLine.none
      | none => k.ro
  { k with ro := sset (fun _ => RoLine.none) ro (lineKey l) r }

/-- RO_MISS_FILL (R218): sectors arrive; with the last one the line enters the cache, unless an invalidation met it on its
way, and the register becomes free. -/
def execRoMissFill (core : CoreNo) (reg : Fin 32) (sectors : Marks) (s : State) : Out :=
  let k := s.core core
  match k.miss.find? fun m => m.no == reg with
  | none => cannot
  | some m =>
    guarded (m.avail && sectors != 0 && (sectors &&& m.got) == 0 && nextSectors m sectors) <|
      let m := { m with got := m.got ||| sectors }
      let k := serveWaiters (if m.disc && strictDiscard s then 15 else m.marks) m k
      let k :=
        if m.got = 15 then
          let k := { k with miss := k.miss.filter fun x => x.no != reg }
          if m.drop then k else k.roInsert m.line ⟨m.data, m.marks, m.disc, s.stamp + 1⟩
        else { k with miss := k.miss.map fun x => if x.no = reg then m else x }
      pump ((s.setCore core k).tickStamp) core

/-! ## The matrix pipes and transfers -/

/-- OCCUPANCY_END (R150): the running operation of a pipe has read its operands and written its result. -/
def execOccupancyEnd (core : CoreNo) (array : Bool) (s : State) : Out :=
  let k := (s.core core).startOps
  match k.mq.find? fun o => o.array == array && o.phase == .running with
  | none => cannot
  | some o =>
    let r := finishOp s core k o
    let k := { r.2 with mq := updFirst (fun e => decide (e.order = o.order)) (fun e => { e with phase := .draining }) r.2.mq }
    .next (afterTracked (r.1.setCore core k) core)

/-- MATRIX_OP_RETIRE (R150, R155, R165): the entry frees, its ticket counts 1 less, and an operation that met poison faults
its issuing group. -/
def execMatrixOpRetire (core : CoreNo) (array : Bool) (s : State) : Out :=
  let k := s.core core
  match k.mq.find? fun o => o.array == array && o.phase == .draining with
  | none => cannot
  | some o =>
    let k := { k with mq := k.mq.filter fun e => decide (e.order ≠ o.order) }.setTicket o.ticket (k.ticket o.ticket - 1)
    let s := (s.bump 0x3060 1 core 1).setCore core k
    let s := if o.bad && !o.quiet then lateFault s core o.slot o.gidx causePoison 0 o.pc else s
    .next (afterTracked s core)

/-- The parts of a lane's transfer by source sector: local span and whether the sector is marked. -/
def xferParts (x : XferRec) (a : LaneAddr) : List (Span × Bool) :=
  match x.lines.find? fun y => y.line == a.line with
  | none => []
  | some y =>
    (List.range ((a.off % 128 + x.width + 127) / 128)).map fun i =>
      let lo := if i = 0 then a.off else (a.off / 128 + i) * 128
      let hi := min (a.off + x.width) ((a.off / 128 + i + 1) * 128)
      ((a.la + (lo - a.off), hi - lo), y.marks.getLsbD (lo / 128))

/-- Writes a transfer's data and marks into local memory (R200, R310, R311). -/
def XferRec.land (x : XferRec) (k : Core) : Core :=
  let k := x.lanes.foldl (fun k a =>
    match x.lines.find? fun y => y.line == a.line with
    | some y => k.lwrite a.la x.width (lineBytes y.data a.off x.width)
    | none => k) k
  let k := k.cleanCovered x.spans
  ((x.lanes.flatMap (xferParts x)).filter Prod.snd).foldl (fun k p => p.1.sectors.foldl (fun k n => k.setLmark n true) k) k

/-- XFER_SPAN_WRITTEN (R200): the data of the core's i-th outstanding transfer from device memory is in local memory. -/
def execXferSpanWritten (core : CoreNo) (i : Nat) (s : State) : Out :=
  let k := s.core core
  match (k.xfers.filter fun x => !x.out)[i]? with
  | none => cannot
  | some x =>
    guarded (x.lines.all LineWait.got && !k.inHeld x) <|
      let k := { x.land k with xfers := k.xfers.filter fun y => decide (y.tag ≠ x.tag) }
      afterTracked (s.setCore core k) core

/-! ## Timeouts and faults -/

/-- Whether a group lives: started and not ended. -/
def liveGroup (s : State) (g : GroupRef) : Bool :=
  let st := ((s.core g.core).group g.slot).state
  (s.core g.core).cmd.isSome && (st == 1 || st == 2)

/-- WATCHDOG (R135). -/
def execWatchdog (g : GroupRef) (s : State) : Out :=
  guarded (liveGroup s g) <|
    afterTracked (takeFault (s.bump 0x3050 2 g.core 1) g.core g.slot causeWatchdog 0 ((s.core g.core).group g.slot).pc) g.core

/-- YIELD_TIMEOUT (R133): the wait resolves, and the group executes its acquire again. -/
def execYieldTimeout (g : GroupRef) (s : State) : Out :=
  let gr := (s.core g.core).group g.slot
  guarded (liveGroup s g && gr.state == 2 && gr.cause == waitYield && gr.resolved.isNone)
    ((s.setCore g.core ((s.core g.core).setGroup g.slot (gr.resolve s.stamp))).tickStamp)

/-- GROUP_FAULT (R175, R210, R212): a group faults with a cause of R210, as an instruction fetch may make it. -/
def execGroupFault (g : GroupRef) (cause : BitVec 8) (addr : BitVec 64) (s : State) : Out :=
  guarded (liveGroup s g && decide (1 ≤ cause.toNat) && decide (cause.toNat ≤ 11))
    (afterTracked (takeFault s g.core g.slot cause.toNat addr.toNat ((s.core g.core).group g.slot).pc) g.core)

end Sys2Proof.Machine
end

