-- ==== Sys2Proof/Machine/Monitor.lean ====
section
/-!
DEFINITION. The health monitors (R451 to R453).
-/
namespace Sys2Proof.Machine

/-- The double-precision format of MIN and MAX (R453). -/
def fp64 : Fmt := ⟨52, 11, 1023, 0x7FEFFFFFFFFFFFFF, some 0x7FF0000000000000, some 0x7FF8000000000000⟩

/-- The configuration entry of a monitor (R452). -/
def monConfig (s : State) (i : Nat) : Nat := s.obj 0x3010 1 i

/-- A monitor's record (R453) before its first sample: MIN and MAX are NaN. -/
def monFresh : Nat := 0x7FF8000000000000 + 0x7FF8000000000000 * 2 ^ 64

/-- Restarts the record of a monitor: an unused monitor's record is all zero. -/
def monRestart (s : State) (i : Nat) : State :=
  s.setObj 0x3011 1 i (if bits (monConfig s i) 0 8 = 0 then 0 else monFresh)

/-- The bin of a sample (R452): the edges are exact products of EDGE0 and powers of RATIO. -/
def monBin (v edge ratio : FVal) : Nat → Nat → Nat
  | 0, i => i
  | n + 1, i => if v.cmp edge < 0 then i else monBin v (edge.mul ratio) ratio n (i + 1)

/-- The lesser or the greater of two F64 codes, the first sample replacing NaN. -/
def monPick (least : Bool) (old : Nat) (v : FVal) : Nat :=
  match fp64.decode old with
  | .nan => fp64.encode .rne v
  | o => if (least && decide (v.cmp o < 0)) || (!least && decide (o.cmp v < 0)) then fp64.encode .rne v else old

/-- One sample of a monitor: its record, and one ALARM record for each tick at most (R452, R527). -/
def monOne (s : State) (i : Nat) (v : FVal) : State :=
  let c := monConfig s i
  let r := s.obj 0x3011 1 i
  let limit := Fmt.fp32.decode (bits c 96 32)
  let alarm := !limit.isNan && decide (0 ≤ v.cmp limit)
  let b := 256 + 32 * monBin v (Fmt.fp32.decode (bits c 32 32)) (Fmt.fp32.decode (bits c 64 32)) 31 0
  let r := putBits r 0 64 (monPick true (bits r 0 64) v)
  let r := putBits r 64 64 (monPick false (bits r 64 64) v)
  let r := putBits r 128 64 (satAdd 64 (bits r 128 64) 1)
  let r := putBits r 192 64 (satAdd 64 (bits r 192 64) (b2n alarm))
  let s := s.setObj 0x3011 1 i (putBits r b 32 (satAdd 32 (bits r b 32) 1))
  if alarm && decide (sget (fun _ => 0) s.mgmt.alarmTick i ≠ s.tick + 1) then
    let s := { s with mgmt := { s.mgmt with alarmTick := sset (fun _ => 0) s.mgmt.alarmTick i (s.tick + 1) } }
    logRecord s { LogRec.blank with
      kind := 4
      severity := 1
      cause := i
      scope := 3
      detail := Fmt.fp32.encode .rne v }
  else s

/-- A sample of a source and an instance reaches every monitor that takes it; instance FFFFh takes every instance of
DROOP_DEPTH (R451). -/
def monitor (s : State) (source inst : Nat) (v : FVal) : State :=
  (List.range 32).foldl (fun s i =>
    let c := monConfig s i
    if bits c 0 8 = source ∧ (bits c 16 16 = inst ∨ (source = 4 ∧ bits c 16 16 = 0xFFFF)) then monOne s i v else s) s

/-- A sample that is a count. -/
def monitorNat (s : State) (source inst n : Nat) : State := monitor s source inst (FVal.ofInt n)

end Sys2Proof.Machine
end

