-- ==== Sys2Proof/Machine/Power.lean ====
section
/-!
DEFINITION. Tarragon's arithmetic (R54, R469, R474, R475, R477): power in milliwatts, as exact integers.
-/
namespace Sys2Proof.Machine

/-- The FP32 code of a quotient, rounded to nearest even. -/
def f32Ratio (num den : Nat) : Nat :=
  let q := num * 2 ^ 80 / den
  Fmt.fp32.encode .rne (.fin false (2 * q + (if num * 2 ^ 80 % den = 0 then 0 else 1)) (-81))

/-- The full-load core power at the target in effect, in mW (R474; log entry 23). -/
def fullLoad (s : State) : Nat :=
  let t := s.obj 0x9020 3 0
  if t = 2700 then 6200 else Config.fullLoadMw t

/-- A non-negative F32 reading times 1,000, rounded down; none where the sensor gives no number. -/
def milli (code : Nat) : Option Nat :=
  match Fmt.fp32.decode code with
  | .fin false m e => some (if 0 ≤ e then 1000 * m <<< e.toNat else (1000 * m) >>> (-e).toNat)
  | .fin true _ _ => some 0
  | _ => none

/-- Whether the module runs in dual-feed mode (R466). -/
def dualFeed (s : State) : Bool := decide (s.obj 0x9000 9 0 = 1)

/-- Whether a feed is in use: feed A, and feed B in dual-feed mode, while valid (R466, R468). -/
def feedInUse (s : State) (b : Bool) : Bool :=
  if b then dualFeed s && s.power.feedB.valid && !s.power.feedB.switchOpen
  else s.power.feedA.valid && !s.power.feedA.switchOpen

/-- The input limit that a feed's voltage sets, 90 A times it, in mW; a sensor that has given no reading sets none
(log entry 23). -/
def feedLimit (s : State) (b : Bool) : Option Nat :=
  if feedInUse s b then (milli (s.obj 0x3000 1 (if b then 306 else 304))).map fun v => 90 * v else none

/-- The effective cap in mW (R469). -/
def effectiveCap (s : State) : Nat :=
  [feedLimit s false, feedLimit s true].foldl (fun c l => match l with
    | some x => min c x
    | none => c) (1000 * s.obj 0x9000 1 0)

/-- An entry of FEED_STATE (R494): 0 valid, 1 absent or lost, 2 below 40 V, 3 above 48 V, 4 switch open; the voltage is the
latest sample. -/
def feedState (s : State) (b : Bool) : Nat :=
  let f := if b then s.power.feedB else s.power.feedA
  if f.switchOpen then 4
  else if f.valid = false then 1
  else
    match milli (s.obj 0x3000 1 (if b then 306 else 304)) with
    | none => 0
    | some v => if v < 40000 then 2 else if 48000 < v then 3 else 0

/-- The sum of the fixed category and the floors of links and memory, in mW. -/
def baseMw (s : State) : Nat := 1000 * (34 + s.obj 0x9000 3 0 + s.obj 0x9000 4 0)

/-- F of R477 in mW: numerator and denominator. -/
def powerFloor (s : State) : Nat × Nat :=
  let a := baseMw s + 1000 * s.obj 0x9000 5 0
  let d := 1000 - s.obj 0x2011 3 0
  if a * d < baseMw s * 1000 then (baseMw s * 1000, d) else (a, 1)

/-- Whether the effective cap is at or above the class-0 power floor (R69, R477). -/
def aboveFloor (s : State) : Bool := decide ((powerFloor s).1 ≤ effectiveCap s * (powerFloor s).2)

/-- The class-0 power part of R54 in mW. -/
def c0Power (s : State) : Nat := s.obj 0x2011 3 0 * s.obj 0x9000 1 0

/-- The categories in the order of POWER_ORDER (R494): 0 links, 1 memory, 2 compute. -/
def powerOrder (n : Nat) : List Nat :=
  match n with
  | 0 => [0, 1, 2]
  | 1 => [0, 2, 1]
  | 2 => [1, 0, 2]
  | 3 => [1, 2, 0]
  | 4 => [2, 0, 1]
  | _ => [2, 1, 0]

/-- Stage 3 of R475: each category in order takes what is left up to its demand, the last also what remains (stage 4). -/
def raise (demand : Nat → Nat) : List Nat → Nat → (Nat → Nat) → (Nat → Nat)
  | [], _, b => b
  | [c], left, b => fun k => if k = c then b c + left else b k
  | c :: t, left, b =>
    let x := min left (demand c - b c)
    raise demand t (left - x) fun k => if k = c then b c + x else b k

/-- The budgets of links, memory and compute in mW for a tick (R475). -/
def budgets (s : State) (demand : Nat → Nat) : Nat → Nat :=
  let floor (k : Nat) : Nat := 1000 * s.obj 0x9000 (3 + k) 0
  let b (k : Nat) : Nat := if k = 2 then max (floor 2) (c0Power s) else floor k
  raise demand (powerOrder (s.obj 0x9000 2 0)) (effectiveCap s - 34000 - b 0 - b 1 - b 2) b

/-- Whether any die is in thermal limiting or shut down (R69, R491). -/
def limiting (s : State) : Bool := (List.range 12).any fun d => decide (s.obj 0x9030 1 d ≠ 0)

end Sys2Proof.Machine
end

