-- ==== Sys2Proof/Machine/Reduce.lean ====
section
/-!
DEFINITION. Chive reduction (R343 to R349): packets, combining entries, the final addition at the home, TAG_DONE, and the
end-to-end retry of requests and reduction packets (R340 to R342).
-/
namespace Sys2Proof.Machine

/-! ## Packets -/

/-- Whether a line is the key of one behind a peer window. -/
def isPeerLine (l : Line) : Bool := l.host && decide (2 ^ 60 ≤ l.no)

/-- The device-virtual address of a line behind a window. -/
def peerVa (l : Line) : Nat := (l.no - 2 ^ 60) * 512

/-- The atomic that a FORMAT adds with (R104, R343, R346). -/
def redKind (f : Fin 3) : AtomKind :=
  match f with
  | 0 => .addF32
  | 1 => .addBf16x2
  | 2 => .addU32

/-- Whether a word of a packet is masked in. -/
def redHas (m : ByteMask) (w : Nat) : Bool := m.getLsbD (4 * w)

/-- The first `n` words of the combination of two packets' data (R344). -/
def redWords (k : AtomKind) (a b : LineData) (ma mb : ByteMask) : Nat → Nat
  | 0 => 0
  | n + 1 =>
    let x := lineBytes a (4 * n) 4
    let y := lineBytes b (4 * n) 4
    let v := if redHas ma n && redHas mb n then atomApply k x (BitVec.ofNat 128 y) 0
      else if redHas mb n then y else x
    redWords k a b ma mb n + (v <<< (32 * n))

/-- Two packets combined (R343, R344): CNT saturates at 3FFFh, masks and marks unite. -/
def combine (a b : RedPacket) : RedPacket :=
  { a with
    cnt := satAdd 14 a.cnt b.cnt
    data := BitVec.ofNat 4096 (redWords (redKind a.format) a.data b.data a.mask b.mask 128)
    mask := a.mask ||| b.mask
    marks := a.marks ||| b.marks }

/-- The operations of a packet at its home: one for each masked word of a sector that the packet does not mark (R311,
R346). -/
def redOps (p : RedPacket) : List LaneOp :=
  (List.range 128).filterMap fun w =>
    if redHas p.mask w && !p.marks.getLsbD (w / 32) then
      some ⟨0, Fin.ofNat 512 (4 * w), BitVec.ofNat 128 (lineBytes p.data (4 * w) 4), 0⟩
    else none

/-- The device-virtual address on the partner that a packet's line behind a window has (R378). -/
def redRemote (s : State) (p : RedPacket) : Nat :=
  match windowOf s p.fn.val (peerVa p.line) with
  | some w => winRemote w + (peerVa p.line - winBase w)
  | none => 0

/-- The slot of a packet: of its line, or of the remote address behind a window (R333). -/
def redSlot (s : State) (p : RedPacket) : Nat :=
  if isPeerLine p.line then routeSlot (redRemote s p) else slotOf p.line

/-- Where a packet goes: the home of its line, or the port of its slot toward the window's partner (R348, R374). -/
def redDst (s : State) (p : RedPacket) : Nat :=
  if isPeerLine p.line then
    match windowOf s p.fn.val (peerVa p.line) with
    | some w => agentPort ((dealPort s (winModule w) (redSlot s p)).getD 0)
    | none => agentPort 0
  else agentHome (homeSlice p.line)

/-- The RADD packet (R331, R343): FORMAT in AUX[15:14], CNT in AUX[13:0], the line, and the word mask. -/
def redPacket (s : State) (p : RedPacket) (dst : Nat) : LinkPacket :=
  let words := (List.range 128).foldl (fun a w => if p.mask.getLsbD (4 * w) then a + 2 ^ w else a) 0
  mkPacket (redSlot s p) 4 37
    (packetHeader (Config.msgCode 20) 36 p.src dst p.seq 4 p.marks
      (if isPeerLine p.line then redRemote s p / 512 else lineField p.line) p.tag.toNat (p.format.val * 2 ^ 14 + p.cnt % 2 ^ 14))
    (p.data.toNat + words * 2 ^ 4096)

/-- A packet crosses the ring links from its sender to where it is taken (R18, R336). -/
def crossRed (s : State) (p : RedPacket) (dst : Nat) : State := crossRing s p.src dst (redPacket s p dst)

/-- A reduction packet takes the next number to its destination and leaves (R340). -/
def launchRed (s : State) (r : RedSent) : State :=
  let k := r.packet.src * 1024 + r.dst
  let seq := sget (fun _ => 0) s.net.e2eSeq k
  let p := { r.packet with seq := seq }
  { s with net := { s.net with
      e2eSeq := sset (fun _ => 0) s.net.e2eSeq k ((seq + 1) % 65536)
      redNet := s.net.redNet ++ [p]
      redSent := s.net.redSent ++ [{ r with packet := p, sentNs := s.now, held := false }] } }

/-- Sends a reduction packet and keeps it until it is acknowledged; it waits while 64 packets of its sender to its destination
are unanswered (R340). -/
def sendRed (s : State) (p : RedPacket) (absorbed : List (Nat × Nat)) (step idx : Nat) : State :=
  let r : RedSent := ⟨p, redDst s p, absorbed, step, idx, 0, s.now, false⟩
  if unanswered s p.src r.dst < 64 ∧ (s.net.redSent.all fun x => !x.held || x.packet.src ≠ p.src || x.dst ≠ r.dst) then launchRed s r
  else { s with net := { s.net with redSent := s.net.redSent ++ [{ r with held := true }] } }

/-- Sends the first reduction packet that waited for a place of its sender. -/
def releaseRed (s : State) (src dst : Nat) : State :=
  if unanswered s src dst < 64 then
    match takeFirst (fun r : RedSent => r.held && decide (r.packet.src = src) && decide (r.dst = dst)) s.net.redSent with
    | none => s
    | some (r, rest) => launchRed { s with net := { s.net with redSent := rest } } r
  else s

/-! ## The end of a reduce (R347 to R349) -/

/-- The reduce of a command. -/
def findRed (s : State) (step idx : Nat) : Option RedCmd :=
  s.net.reds.find? fun r => decide (r.step = step) && decide (r.idx = idx)

/-- Whether a packet of a command is not yet acknowledged. -/
def redPending (s : State) (step idx : Nat) : Bool :=
  (s.net.redSent.any fun r => r.absorbed.isEmpty && decide (r.step = step) && decide (r.idx = idx)) ||
    s.peer.sent.any fun q => decide (q.step = step) && decide (q.idx = idx)

/-- Sends the TAG_DONE of a reduce whose DST lies in a window (R348); a partner that is unreachable faults the step
(R376). -/
def tellPeer (s : State) (r : RedCmd) (w : Nat) : State :=
  let s := { s with net := { s.net with reds := s.net.reds.map fun x =>
    if x.step = r.step ∧ x.idx = r.idx then { x with told := true } else x } }
  let p := peerPacket s r.fn w r.dst
  let pk := { p with
    isRed := true
    red := { p.red with tag := r.tag } }
  match peerSend s (winModule w) pk r.step r.idx 256 1 (peerLine r.dst) with
  | none => stepFault s r.step 0x25 r.idx
  | some t => t

/-- A unit's tag entry goes once no reduce of its function and tag is left (log entry 22). -/
def pruneTags (s : State) : State :=
  { s with net := { s.net with chiveTags := s.net.chiveTags.filter fun t => s.net.reds.any fun r => r.fn == t.fn && r.tag == t.tag } }

/-- Ends a reduce for which nothing is outstanding any more (R347, R349): first its TAG_DONE goes out, then its command is
done. -/
def endReduce (s : State) (r : RedCmd) : State :=
  if redPending s r.step r.idx || r.waiting != 0 then s
  else
    setPhase (pruneTags { s with net := { s.net with
      reds := s.net.reds.filter fun x => !(decide (x.step = r.step) && decide (x.idx = r.idx)) } }) r.step r.idx .done

/-- Goes on with a reduce after one of its packets was acknowledged or a TAG_DONE came. -/
def settleReduce (s : State) (step idx : Nat) : State :=
  match findRed s step idx with
  | none => s
  | some r =>
    if redPending s step idx then s
    else match r.window, r.told with
      | some w, false =>
        let s := tellPeer s r w
        match findRed s step idx with
        | some r => endReduce s r
        | none => s
      | _, _ => endReduce s r

/-- Keeps the reply to a partner's packet: the last 4,096 of each source module (R381). -/
def keepAnswer (s : State) (d : PeerDone) : State :=
  let mine (x : PeerDone) : Bool := decide (x.module = d.module)
  let l := if (s.peer.answered.filter mine).length < 4096 then s.peer.answered
    else match takeFirst mine s.peer.answered with
      | some (_, rest) => rest
      | none => s.peer.answered
  { s with peer := { s.peer with answered := l ++ [d] } }

/-- Answers a packet of a partner through a port, and keeps the reply. -/
def answerPeer (s : State) (port : Nat) (d : PeerDone) : State :=
  (keepAnswer s d).emit (.peerReply port d.seq d.code d.ops)

/-- A reduction packet of a partner is acknowledged or fails: the reply goes through its port, or through another of its
group where that one is down. -/
def answerTaken (s : State) (port seq code : Nat) : State :=
  match takeFirst (fun t : PeerTaken => decide (t.port = port) && decide (t.seq = seq)) s.peer.taken with
  | none => s
  | some (t, rest) =>
    let s := { s with peer := { s.peer with taken := rest } }
    let d : PeerDone := { module := t.module, seq := seq, code := code, ops := [] }
    if portUp s port then answerPeer s port d
    else match groupPorts s t.module with
      | p :: _ => answerPeer s p d
      | [] => keepAnswer s d

/-- How long a Chive unit keeps what it absorbed: nine end-to-end timeouts (R345). -/
def redRecordNs (s : State) : Nat := 9 * 1000 * netLimit s 1

/-- A packet is acknowledged (R345): a Chive unit acknowledges what it absorbed and keeps it in its record; a packet from a
port is answered to the partner; a command's packet is done, or faults its step with cause `bad`. -/
def ackRed (bad : Option Nat) : Nat → State → Nat → Nat → Line → State
  | 0, s, _, _, _ => s
  | n + 1, s, src, seq, l =>
    match takeFirst (fun r : RedSent => !r.held && decide (r.packet.src = src) && decide (r.packet.seq = seq) && r.packet.line == l)
        s.net.redSent with
    | none => if 0x140 ≤ src ∧ src < 0x148 then answerTaken s (src - 0x140) seq (if bad.isNone then 0 else 2) else s
    | some (r, rest) =>
      let s := releaseRed { s with net := { s.net with redSent := rest } } src r.dst
      if r.absorbed.isEmpty then
        let s := match bad with
          | some c => stepFault s r.step c r.idx
          | none => s
        settleReduce s r.step r.idx
      else
        let s := { s with net := { s.net with
          redDone := (s.net.redDone.filter fun d => decide (s.now ≤ d.ns + redRecordNs s)) ++
            r.absorbed.map fun a => ⟨src, a.1, a.2, l, s.now⟩ } }
        r.absorbed.foldl (fun s a => ackRed bad n s a.1 a.2 l) s

/-- The command that a packet belongs to, through the packets it absorbed. -/
def redCommand : Nat → State → RedPacket → Nat × Nat
  | 0, _, _ => (0, 0)
  | n + 1, s, p =>
    match s.net.redSent.find? fun r => !r.held && decide (r.packet = p) with
    | none => (0, 0)
    | some r =>
      match r.absorbed with
      | [] => (r.step, r.idx)
      | a :: _ =>
        match s.net.redSent.find? fun x => decide (x.packet.src = a.1) && decide (x.packet.seq = a.2) &&
            x.packet.line == p.line with
        | none => (0, 0)
        | some x => redCommand n s x.packet

/-! ## Chive units (R343 to R345, R348) -/

/-- Whether an agent number is a Chive unit (R332). -/
def isUnit (u : Nat) : Bool := (decide (0x150 ≤ u) && decide (u < 0x270)) || (decide (0x270 ≤ u) && decide (u ≤ 0x273))

/-- Whether a packet came in through a peer port. -/
def fromPort (src : Nat) : Bool := decide (0x140 ≤ src) && decide (src < 0x148)

/-- The combining entries of a unit. -/
def unitEntries (u : Nat) : Nat := if u < 0x270 then 16 else 256

/-- Whether two packets combine (R343). -/
def sameKey (a b : RedPacket) : Bool :=
  a.fn == b.fn && a.tag == b.tag && a.format == b.format && a.line == b.line

/-- FAN_IN of a packet's tag at a unit (R344). -/
def fanInOf (s : State) (u : Nat) (p : RedPacket) : Option Nat :=
  (s.net.chiveTags.find? fun t => decide (t.unit = u) && t.fn == p.fn && t.tag == p.tag).map ChiveTag.fanIn

/-- Packets that an entry absorbed from this module's routes: those of a port do not count toward FAN_IN (R348). -/
def ChiveEntry.local (e : ChiveEntry) : Nat := (e.senders.filter fun x => !fromPort x.1).length

/-- Forwards an entry as one packet of the unit (R344, R345). -/
def forwardEntry (s : State) (e : ChiveEntry) : State :=
  let s := { s with net := { s.net with chive := s.net.chive.filter fun x => x != e } }
  sendRed s { e.packet with src := e.unit } e.senders 0 0

/-- A unit absorbs a packet into an entry; the entry goes on when it has absorbed FAN_IN packets (R344), unless packets of
a port are in it (R348). -/
def absorb (s : State) (u : Nat) (p : RedPacket) (fanIn : Nat) (old : Option ChiveEntry) : State :=
  let e : ChiveEntry := match old with
    | some e => { e with
        packet := combine e.packet p
        absorbed := e.absorbed + 1
        senders := e.senders ++ [(p.src, p.seq)] }
    | none => ⟨u, p, 1, [(p.src, p.seq)], s.now⟩
  let s := (crossRed s p u).bump 0x3090 4 (dieIndex u) 1
  let s := { s with net := { s.net with
      redNet := s.net.redNet.filter fun x => x != p
      chive := (s.net.chive.filter fun x => some x != old) ++ [e] } }
  if fanIn ≤ e.local ∧ (e.senders.all fun x => !fromPort x.1) then forwardEntry s e else s

/-- A packet reaches a Chive unit (R344). A packet with no tag entry or no free combining entry passes. A packet of a port
needs no tag entry (DEDUCED from R348, log entry 22). -/
def atUnit (s : State) (u : Nat) (p : RedPacket) : State :=
  let old := s.net.chive.find? fun e => decide (e.unit = u) && sameKey e.packet p
  let room := decide ((s.net.chive.filter fun e => e.unit = u).length < unitEntries u)
  match fanInOf s u p with
  | some n => if old.isSome || room then absorb s u p n old else s.bump 0x3090 5 (dieIndex u) 1
  | none =>
    if fromPort p.src && (old.isSome || room) then absorb s u p 65536 old
    else s.bump 0x3090 5 (dieIndex u) 1

/-- The traffic class of a packet: PEER for an arrival from a port, also where a unit has combined only such ones (R215). -/
def redClass (s : State) (p : RedPacket) : BitVec 3 :=
  match s.net.redSent.find? fun r => !r.held && decide (r.packet = p) with
  | some r => if !r.absorbed.isEmpty && r.absorbed.all fun a => fromPort a.1 then 6 else 7
  | none => if fromPort p.src then 6 else 7

/-- A packet reaches its home (R346): its additions are applied as one atomic, and it is acknowledged. A miss outside the bound of
a class-0 step is noted (R238). -/
def atHome (s : State) (p : RedPacket) : State :=
  let cls := redClass s p
  let key := (redCommand (s.net.redSent.length + 1) s p).1
  let s := crossRed s p (agentHome (homeSlice p.line))
  let s := { s with net := { s.net with redNet := s.net.redNet.filter fun x => x != p } }
  let s := (homeAtom (checkResidency s key p.line) p.fn cls false p.line (redKind p.format) (redOps p)).2
  let home := agentHome (homeSlice p.line)
  let s := crossRing s home p.src (mkPacket (redSlot s p) 2 1
    (packetHeader (Config.msgCode 13) 0 home p.src p.seq 2 0 (lineField p.line) p.fn.val 0) 0)
  ackRed none (s.net.redSent.length + 1) s p.src p.seq p.line

/-- A packet leaves through a port (R348); one whose partner is unreachable fails with its step (R376). -/
def atPort (s : State) (p : RedPacket) : State :=
  let c := redCommand (s.net.redSent.length + 1) s p
  let s := crossRed s p (redDst s p)
  let s := { s with net := { s.net with redNet := s.net.redNet.filter fun x => x != p } }
  match windowOf s p.fn.val (peerVa p.line) with
  | none => ackRed (some 0x26) (s.net.redSent.length + 1) s p.src p.seq p.line
  | some w =>
    let pk := { peerPacket s p.fn w (peerVa p.line) with
      isRed := true
      data := p.data
      mask := p.mask
      marks := p.marks
      red := p }
    match peerSend s (winModule w) pk c.1 c.2 256 2 p.line with
    | some s => s
    | none => ackRed (some 0x25) (s.net.redSent.length + 1) s p.src p.seq p.line

/-- Whether a packet was applied or absorbed already: a resend is answered and not applied again (R341, R345). -/
def redKnown (s : State) (p : RedPacket) : Bool :=
  (s.net.redSent.any fun r => !r.held && decide (r.packet = p)) ||
    s.net.redDone.any fun r => decide (r.src = p.src) && decide (r.seq = p.seq) && r.line == p.line &&
      decide (s.now ≤ r.ns + redRecordNs s)

/-- The Chive units on a packet's route (R333 to R336, R343): from a core's site, on from a unit, or from a port's base die. -/
def redUnits (s : State) (p : RedPacket) : List Nat :=
  let dst := baseOf (redDst s p)
  (if p.src < 0x120 then unitPath s p.src dst (redSlot s p)
    else if 0x150 ≤ p.src ∧ p.src < 0x270 then unitPath s (p.src - 0x150) dst (redSlot s p)
    else dieUnits s (baseOf p.src) dst (redSlot s p)).filter fun u => decide (u ≠ p.src)

/-- RADD (R344, R346, R348): at a Chive unit of its route, at the home of the line, or at the port of a window's partner. -/
def execRadd (unit : Nat) (p : RedPacket) (s : State) : Out :=
  if s.net.redNet.contains p then
    if isUnit unit then guarded ((redUnits s p).contains unit) (atUnit s unit p)
    else if isPeerLine p.line then guarded (decide (unit = redDst s p)) (atPort s p)
    else
      let t := settle s p.line
      guarded (decide (unit = agentHome (homeSlice p.line)) && !lineBusy t p.line) (atHome t p)
  else guarded (redKnown s p) s

/-- CHIVE_HOLD_EXPIRY (R344): a combining entry that has waited CHIVE_HOLD_NS is forwarded, or one of a full unit where a new line
needs the entry. -/
def execChiveHoldExpiry (unit : Nat) (fn : Fn) (tag : BitVec 16) (line : Line) (ns : Nat) (s : State) : Out :=
  match s.net.chive.find? fun e => decide (e.unit = unit) && e.packet.fn == fn && e.packet.tag == tag &&
      e.packet.line == line with
  | none => cannot
  | some e =>
    guarded (notBefore s ns && (decide (e.sinceNs + netLimit s 2 ≤ ns) ||
      decide (unitEntries unit ≤ (s.net.chive.filter fun x => decide (x.unit = unit)).length))) (forwardEntry (s.at ns) e)

/-! ## TAG_DONE (R349) -/

/-- The oldest waiting reduce of a function and tag that waits for a port. -/
def waitingRed (s : State) (port : Nat) (fn : Fn) (tag : BitVec 16) : Option RedCmd :=
  s.net.reds.find? fun r => r.fn == fn && r.tag == tag && r.waiting.getLsbD port

/-- A reduce takes the TAG_DONE of a port. -/
def consumeTag (s : State) (port : Nat) (r : RedCmd) : State :=
  let s := { s with net := { s.net with reds := s.net.reds.map fun x =>
    if x.step = r.step ∧ x.idx = r.idx then { x with waiting := x.waiting &&& ~~~(1#8 <<< port) } else x } }
  settleReduce s r.step r.idx

/-- TAG_DONE: consumed, kept, or refused where the port holds 256 of the function. -/
def execTagDone (port : Fin 8) (fn : Fn) (tag : BitVec 16) (s : State) : Out :=
  guarded (portUp s port.val) <|
    match waitingRed s port.val fn tag with
    | some r => (consumeTag s port.val r).emit (.tagDoneReply port.val fn tag true)
    | none =>
      if (s.peer.tags.filter fun t => t.1 = port.val ∧ t.2.1 = fn).length < 256 then
        ({ s with peer := { s.peer with tags := s.peer.tags ++ [(port.val, fn, tag)] } }).emit
          (.tagDoneReply port.val fn tag true)
      else s.emit (.tagDoneReply port.val fn tag false)

/-- COLL_PEER_TIMEOUT. -/
def execCollPeerTimeout (c : CmdRef) (s : State) : Out :=
  match findRed s c.step c.cmd with
  | none => cannot
  | some r =>
    guarded (r.waiting != 0 && decide (r.start + netLimit s 3 ≤ s.tick)) <|
      let s := stepFault s c.step 0x21 c.cmd
      setPhase (pruneTags { s with net := { s.net with
        reds := s.net.reds.filter fun x => !(decide (x.step = c.step) && decide (x.idx = c.cmd)) } }) c.step c.cmd .cancelled

/-! ## End-to-end retry (R340 to R342) -/

/-- The core whose request a message is. -/
def ownerCore (s : State) (m : Msg) : Option Nat := coreOfSite s m.req

/-- A read that is never answered delivers its line with every sector marked (R342). -/
def failRead (s : State) (m : Msg) : State :=
  match portOf m.src with
  | none => s
  | some b =>
    match takeFirst (fun w : NearWait => w.slice == b && w.kind == .rd && w.msg.line == m.line && w.msg.tag == m.tag &&
        w.msg.req == m.req) s.coh.nearWait with
    | none => s
    | some (w, rest) =>
      let s := { s with
        free := s.free + 1
        coh := { s.coh with nearWait := rest } }
      match ownerCore s m with
      | none => s
      | some c => pump (arriveLine s c m.tag (w.msg.hint == 1) m.line (Config.freeLine s.free) 15 false) c

/-- Drops the write or atomic of a core that a message carries (R342). -/
def failWrite (s : State) (m : Msg) : State :=
  match ownerCore s m with
  | none => s
  | some c =>
    match (s.core c).writes.find? fun w => decide (w.tag = m.tag) && w.msg.line == m.line with
    | none => s
    | some w => pump (dropWrite s c w 0x28) c

/-- A packet sent again: `lost` says that neither it nor its reply is under way any more (R340, R341). -/
def resend (s : State) (e : E2e) (ns : Nat) (lost : Bool) : State :=
  let mine (x : E2e) : Bool := decide (x.src = e.src) && decide (x.dst = e.dst) && decide (x.seq = e.seq)
  let s := s.bump 0x3090 3 (dieIndex e.src) 1
  let s := { s with
    net := { s.net with
      e2e := updFirst mine (fun x => { x with resends := x.resends + 1, sentNs := ns }) s.net.e2e
      pathReports := if e.resends = 8 then s.net.pathReports ++ [(e.src, e.dst)] else s.net.pathReports }
    coh := { s.coh with net := if lost then s.coh.net.filter fun f =>
        !(f.kind == e.kind && samePacket f.msg e.msg) && !answers f.kind f.msg e
      else s.coh.net } }
  launch s e.kind e.msg

/-- A request that 16 resends left unanswered fails (R342): a read is delivered marked, a write or atomic is dropped, and
the stores that wait for ownership are dropped. -/
def failRequest (s : State) (e : E2e) : State :=
  let s := { s with
    net := { s.net with e2e := s.net.e2e.filter fun x => x != e }
    coh := { s.coh with net := s.coh.net.filter fun f => !(f.kind == e.kind && decide (f.msg = e.msg)) } }
  match e.kind with
  | .rd => failRead s e.msg
  | .rdo =>
    let b := ((portOf e.src).getD 0).val
    let mine (w : NearWait) : Bool := decide (w.slice.val = b) && w.kind == .wr && w.msg.line == e.msg.line
    let ws := s.coh.nearWait.filter mine
    let s := { s with coh := { s.coh with nearWait := s.coh.nearWait.filter fun w => !mine w } }
    ws.foldl (fun s w => failWrite s w.msg) s
  | _ => failWrite s e.msg

/-- A reduction packet sent again (R340). -/
def resendRed (s : State) (r : RedSent) (ns : Nat) (lost : Bool) : State :=
  let s := s.bump 0x3090 3 (dieIndex r.packet.src) 1
  { s with net := { s.net with
      redSent := updFirst (fun x => decide (x = r)) (fun x => { x with resends := x.resends + 1, sentNs := ns }) s.net.redSent
      pathReports := if r.resends = 8 then s.net.pathReports ++ [(r.packet.src, r.dst)] else s.net.pathReports
      redNet := (if lost then s.net.redNet.filter fun p => p != r.packet else s.net.redNet) ++ [r.packet] } }

/-- A reduction packet that 16 resends left unanswered fails: its command's step faults; what a unit absorbed into it is not
answered (R342). -/
def failRed (s : State) (r : RedSent) : State :=
  let s := { s with net := { s.net with redNet := s.net.redNet.filter fun p => p != r.packet } }
  if r.absorbed.isEmpty then ackRed (some 0x28) 1 s r.packet.src r.packet.seq r.packet.line
  else releaseRed { s with net := { s.net with redSent := s.net.redSent.filter fun x => x != r } } r.packet.src r.dst

/-- E2E_TIMEOUT (R340 to R342): a packet has no reply for E2E_TIMEOUT_US; its sender resends it unchanged, reports the path
after 8 resends, and after 16 the access fails. A home's or a holder's message is no access: it stays until its agent answers or
is fenced (R272). -/
def execE2eTimeout (src dst : Nat) (seq : BitVec 16) (ns : Nat) (lost : Bool) (s : State) : Out :=
  let isReq (e : E2e) : Bool := decide (e.src = src) && decide (e.dst = dst) && decide (e.seq = seq.toNat)
  let isRed (r : RedSent) : Bool := !r.held && decide (r.packet.src = src) && decide (r.dst = dst) && decide (r.packet.seq = seq.toNat)
  let due (sent : Nat) : Bool := notBefore s ns && decide (sent + 1000 * netLimit s 1 ≤ ns)
  match s.net.e2e.find? isReq, s.net.redSent.find? isRed with
  | some e, _ =>
    guarded (due e.sentNs) <|
      if e.resends < 16 then resend (s.at ns) e ns lost
      else if isKept e.kind then releaseHeld (failRequest (s.at ns) e) src dst else s.at ns
  | none, some r => guarded (due r.sentNs) (if r.resends < 16 then resendRed (s.at ns) r ns lost else failRed (s.at ns) r)
  | none, none => cannot

/-! ## The answers of partners (R282, R380, R381) -/

/-- The packet that a partner's reply through a port answers: `tag` of the reply is its sequence number (R381). -/
def answeredPacket (s : State) (m : Msg) : Option PeerSent :=
  if 0x140 ≤ m.src ∧ m.src ≤ 0x147 then
    s.peer.sent.find? fun p => !p.held && decide (p.seq = m.tag) && decide (p.partner = bits (s.obj 0x8010 4 (m.src - 0x140)) 0 16)
  else none

/-- Whether a command still has parts to send in later slices (R61). -/
def sending (s : State) (step idx : Nat) : Bool :=
  match findStep s step with
  | none => false
  | some t => (t.cmds[idx]?).any fun c => c.sliceNs.isSome

/-- A packet of a command is answered, or has failed with a cause (R282, R349, R376): its reduce goes on, or its command is
done when nothing of it is unanswered. -/
def endPacket (s : State) (p : PeerSent) (bad : Option Nat) : State :=
  if p.pk.isRed && p.tag == 2 then ackRed bad (s.net.redSent.length + 1) s p.pk.red.src p.pk.red.seq p.line
  else
    let s := match bad with
      | some c => stepFault s p.step c p.idx
      | none => s
    if (findRed s p.step p.idx).isSome then settleReduce s p.step p.idx
    else if (s.peer.sent.any fun q => decide (q.step = p.step) && decide (q.idx = p.idx)) || sending s p.step p.idx then s
    else setPhase s p.step p.idx .done

/-- A partner's reply (R282, R380, R381): `marks` is 0 for applied, 1 for an atomic operation skipped over poison, 2 for a
refusal by the grants and 3 for a translation fault. A refusal faults the instruction, or ends the command's step. -/
def peerReply (s : State) (m : Msg) (p : PeerSent) : State :=
  let s := releasePeer { s with peer := { s.peer with sent := s.peer.sent.filter fun q => q != p } } p.partner
  if p.core < 256 then
    match (s.core p.core).writes.find? fun w => decide (w.tag = p.tag) && w.msg.line == p.line with
    | none => s
    | some w =>
      let s := ackWrite s p.core p.tag p.line m.ops (m.marks == 1)
      let s := if 2 ≤ m.marks.toNat ∧ w.quiet = false then
        lateFault s p.core w.slot w.gidx (if m.marks = 2 then causeAccess else causeMap) w.va w.pc else s
      pump s p.core
  else endPacket s p (if m.marks.toNat < 2 then none else if p.pk.isRed && p.tag != 2 then some 0x2B else some 0x26)

/-- ACK (R266): a write or atomic of a core is acknowledged, by its home, or by a partner through a peer port. -/
def execAck (m : Msg) (s : State) : Out :=
  match answeredPacket s m with
  | some p => .next (peerReply s m p)
  | none => arriveRun .ack m s

end Sys2Proof.Machine
end

