-- ==== Sys2Proof/Machine/Steps.lean ====
section
/-!
DEFINITION. What ends steps and service from outside a step (R73, R357, R519), and the course of take-overs (R517, R520,
R525, R530).
-/
namespace Sys2Proof.Machine

/-! ## Ending steps -/

/-- A core whose command is stopped between two instructions of each of its groups (R71, R119): the groups are gone, and what
they issued before runs to its end, queued matrix operations to retirement (R166). -/
def Core.halt (k : Core) : Core :=
  { k with
    cmd := k.cmd.map fun c => { c with stopping := true, paused := false }
    groups := []
    loads := []
    held := []
    roQueue := [] }

/-- The cores that run a command of a step. -/
def coresOf (s : State) (key : Nat) : List Nat :=
  s.cores.filterMap fun p => match p.2.cmd with
    | some c => if c.step = key then some p.1 else none
    | none => none

/-- Stops every core that runs a command of a step. -/
def haltStep (s : State) (key : Nat) : State :=
  (coresOf s key).foldl (fun s c => settleCore (s.setCore c (s.core c).halt) c) s

/-- Cancels the commands of a step that have not started and those that hold no core (R74). -/
def cancelCmds (s : State) (key : Nat) : State :=
  updStep s key fun t => { t with cmds := t.cmds.zipIdx.map fun p =>
    if p.1.phase = .waiting ∨ (p.1.phase = .running ∧ runsOnCores s key p.2 = false) then { p.1 with phase := .cancelled }
    else p.1 }

/-- Ends a step with a status and the record that decides it: its saved state is dropped, its reduces end, its cores
stop; packets that it has sent go on to their answers. -/
def endStep (s : State) (key : Nat) (st : StepStatus) (ref : Nat) : State :=
  let s := { s with
    sage := { s.sage with
      spills := s.sage.spills.filter fun r => decide (r.step ≠ key)
      restarts := s.sage.restarts.filter fun r => decide (r.step ≠ key) }
    net := { s.net with reds := s.net.reds.filter fun r => decide (r.step ≠ key) } }
  let s := updStep (pruneTags s) key fun t => t.addStatus st ref
  haltStep (cancelCmds s key) key

/-! ## Single faults (R70) -/

/-- The running class-0 steps that a single fault affects are marked: the next plan holds their unfinished commands at its
head. -/
def markFault (s : State) (hit : Step → Bool) : State :=
  { s with sage := { s.sage with steps := s.sage.steps.map fun t =>
    if t.cls = 0 ∧ t.phase = .running ∧ hit t then { t with replan := true } else t } }

/-- The keys of the steps that have not ended. -/
def liveSteps (s : State) : List Nat := (s.sage.steps.filter fun t => t.phase ≠ .ended).map Step.key

/-- The module cannot keep its service (R357, R519): a fault record, every step in flight ends FAULT_UNRECOVERED, every new
step will be refused, and the PF reports a fatal error. -/
def serviceEnds (s : State) (cause reason : Nat) : State :=
  let s := logRecord s { LogRec.blank with
    kind := 1
    severity := 3
    cause := cause
    scope := 3 }
  let ref := newestRecord s
  let s := queueEvent s 0 4 cause 0 0
  let s := (liveSteps s).foldl (fun s k => endStep s k .faultUnrecovered ref) s
  let s := { s with net := { s.net with lost := true } }
  aer (flagReplace s reason) 0 "Uncorrectable Internal Error" 2 ref

/-! ## Take-overs (R517, R520) -/

/-- A block as FAIL_BLOCK codes it (R510). -/
def blockOf (kind no : Nat) : Block := ⟨BitVec.ofNat 8 kind, BitVec.ofNat 24 no⟩

/-- FAIL_BLOCK as a number. -/
def blockNo (b : Block) : Nat := b.kind.toNat * 2 ^ 24 + b.no.toNat

/-- The take-over of a block starts, or waits for the one that runs (R520). -/
def beginTakeover (s : State) (b : Block) : State :=
  if s.ctl.takeover.isEmpty then
    ({ s with ctl := { s.ctl with takeover := [b] } }).setObj 0x4070 4 0 1
  else { s with ctl := { s.ctl with waiting := s.ctl.waiting ++ [b] } }

/-- Whether the take-over of a block runs. -/
def takesOver (s : State) (b : Block) : Bool := s.ctl.takeover.contains b

/-- A take-over has completed: the PF reports a corrected error that names the record (R530). -/
def endTakeover (s : State) (b : Block) : State :=
  let s := { s with ctl := { s.ctl with takeover := s.ctl.takeover.filter fun x => x != b } }
  let s := if s.ctl.takeover.isEmpty then s.setObj 0x4070 4 0 0 else s
  aer s 0 "Corrected Internal Error" 0 (s.obj 0x4070 2 0)

/-- TAKEOVER_QUEUED (R520): the first waiting take-over starts once the one before it has ended. -/
def execTakeoverQueued (b : Block) (s : State) : Out :=
  guarded (s.ctl.takeover.isEmpty && s.ctl.waiting.head? == some b)
    (({ s with ctl := { s.ctl with takeover := [b], waiting := s.ctl.waiting.tail } }).setObj 0x4070 4 0 1)

/-- The record of a take-over (R525, R527): the block, the spares left, and a time that the model does not measure, a free
value (log entry 9). -/
def takeoverRecord (s : State) (cause severity : Nat) (b : Block) (core spares detail : Nat) : State :=
  let r := drawFree s
  hwRecord r.2 { LogRec.blank with
    severity := severity
    cause := cause
    core := core
    block := blockNo b
    sparesLeft := spares
    durationUs := r.1.toNat % 2 ^ 32
    detail := detail }

/-- A take-over that the model makes at once: its record and its report. -/
def takeoverNow (s : State) (cause severity : Nat) (b : Block) (spares : Nat) : State :=
  let s := takeoverRecord s cause severity b 0xFFFF spares 0
  aer s 0 "Corrected Internal Error" 0 (newestRecord s)

end Sys2Proof.Machine
end

