-- ==== Sys2Proof/Machine/Queues.lean ====
section
/-!
DEFINITION. Submission, completion and event queues and their interrupts (R40, R72, R73, R76, R390 to R406).
-/
namespace Sys2Proof.Machine

/-! ## Function pages -/

/-- Whether a function page acts: READY, DRAINING or QUIESCED (R416). -/
def fnActs (s : State) (f : Fn) : Bool := decide (2 ≤ s.fnState f.val) && decide (s.fnState f.val ≤ 4)

/-- Whether a function exists on the bus: the PF, and every VF below NumVFs while VF Enable is set (R394, R416). -/
def fnPresent (s : State) (f : Fn) : Bool := decide (f.val = 0) || (s.host.vfEnable && decide (f.val ≤ s.host.numVfs))

/-- A write to a function page (R416, R423): before READY it is dropped; the page of an absent VF does not exist. -/
def fnWrite (s : State) (f : Fn) (t : State) : Out :=
  guarded (s.host.linkUp && fnPresent s f) (if fnActs s f then t else s)

/-- The value that a write with byte enables leaves in a register (R535). -/
def mergeBe (old : Nat) (val : Word) (be : BitVec 4) : Nat :=
  (List.range 4).foldl (fun v i => if be.getLsbD i then putBits v (8 * i) 8 (bits val.toNat (8 * i) 8) else v) old

/-! ## Queue registers (R398, R402, R405) -/

/-- The block of submission queue `q`. -/
def sqOff (q : Nat) : Nat := 0x1000 + 32 * q
/-- The block of completion queue `q`; queue 64 is the event queue, whose registers lie 8 B apart from a queue block's. -/
def cqOff (q : Nat) : Nat := if q = 64 then 0x2004 else 0x1800 + 32 * q
/-- The offset of a queue's STATUS register. -/
def cqStatus (q : Nat) : Nat := if q = 64 then 0x2018 else 0x1800 + 32 * q + 0x10

/-- A ring's base address (R398). -/
def ringBase (s : State) (f off : Nat) : Nat := bits (s.reg f off) 12 20 * 4096 + bits (s.reg f (off + 4)) 0 16 * 2 ^ 32

/-- LOG2_SIZE of a CTL register. -/
def ctlLog2 (v : Nat) : Nat := bits v 0 5
/-- ENABLE. -/
def ctlEnable (v : Nat) : Bool := bit v 8
/-- VECTOR. -/
def ctlVector (v : Nat) : Nat := bits v 9 11
/-- AGG_US. -/
def ctlAgg (v : Nat) : Nat := bits v 20 8

/-- Whether a queue has stopped on a fault: submission queues 0 to 63, completion queues 64 to 127, the event queue 128. -/
def queueStopped (s : State) (f k : Nat) : Bool := sget (fun _ => false) s.host.stopped (f * 256 + k)

/-- Stops a queue or lets it go on. -/
def setStopped (s : State) (f k : Nat) (b : Bool) : State :=
  { s with host := { s.host with stopped := sset (fun _ => false) s.host.stopped (f * 256 + k) b } }

/-- The head of a completion queue, or of the event queue (64). -/
def cqHead (s : State) (f q : Nat) : Nat := sget (fun _ => 0) s.host.heads (f * 65 + q)

/-- Sets it. -/
def setCqHead (s : State) (f q v : Nat) : State :=
  { s with host := { s.host with heads := sset (fun _ => 0) s.host.heads (f * 65 + q) v } }

/-- CTX_SET of a function. -/
def ctxSet (s : State) (f : Nat) : Bool := sget (fun _ => false) s.host.ctxSet f

/-- A doorbell to a disabled queue is ignored and counted (R399, R403). -/
def ignoreDoorbell (s : State) (f : Fn) : State := s.bump 0x7050 8 f.val 1

/-! ## Submission queues (R399 to R401) -/

/-- Whether a doorbell belongs to a queue. -/
def ofQueue (f : Fn) (q : Fin 64) (d : Doorbell) : Bool := d.fn == f && d.sq == q

/-- A new tail makes the entries from HEAD up to it visible: those not yet visible take the doorbell's time, those beyond
it are hidden (R40, R399). -/
def setTail (s : State) (f : Fn) (q : Fin 64) (tail ns : Nat) : State :=
  let off := sqOff q.val
  let size := 2 ^ ctlLog2 (s.reg f.val (off + 8))
  let head := bits (s.reg f.val (off + 12)) 0 16
  let n := (tail + size - head % size) % size
  let dist (i : Nat) : Nat := (i + size - head % size) % size
  let kept := s.sage.doorbells.filter fun d => !(ofQueue f q d) || decide (dist d.idx < n)
  let seen (i : Nat) : Bool := kept.any fun d => ofQueue f q d && decide (d.idx = i)
  let new := ((List.range n).map fun k => (head + k) % size).filter fun i => !seen i
  let s := s.setReg f.val (off + 12) (putBits (s.reg f.val (off + 12)) 16 16 tail)
  { s with sage := { s.sage with doorbells := kept ++ new.map fun i => (⟨f, q, i, ns⟩ : Doorbell) } }

/-- SQ_TAIL. -/
def execSqTail (f : Fn) (q : Fin 64) (val : Word) (ns : Nat) (s : State) : Out :=
  if notBefore s ns then
    let s := s.at ns
    let ctl := s.reg f.val (sqOff q.val + 8)
    let tail := bits val.toNat 0 16
    fnWrite s f <|
      if ctlEnable ctl = false then ignoreDoorbell s f
      else if 2 ^ ctlLog2 ctl ≤ tail then sqcEvent s f.val (sqOff q.val + 16) 17
      else setTail s f q tail ns
  else cannot

/-- A queue fault (R400, R403, R405): a log record and its notice, 1 for a submission and 2 for a completion queue. -/
def queueFault (s : State) (f : Fn) (code q cause addr detail stepId : Nat) : State :=
  fnRecord s f { LogRec.blank with
    kind := 1
    severity := 2
    cause := cause
    scope := 1
    stepId := stepId
    address := addr
    detail := detail } 3 code q

/-- A step in the step store, as its descriptor was read. -/
def newStep (s : State) (f : Fn) (q : Fin 64) (raw ns : Nat) (bad : Option Byte) : Step :=
  { key := s.stamp + 1
    fn := f
    sq := q
    raw := BitVec.ofNat 1024 raw
    doorbell := ns
    phase := .fresh
    admTick := 0
    start := none
    startNs := 0
    lastTick := 0
    endAt := 0
    preempts := 0
    usedUs := 0
    statuses := []
    errRef := 0
    degraded := false
    replan := false
    voided := false
    readBad := bad
    prev := sget (fun _ => 0) s.sage.lastRead (f.val * 64 + q.val)
    deposits := []
    cmds := [] }

/-- The oldest visible entry of a queue: the one at HEAD. -/
def nextDoorbell (s : State) (f : Fn) (q : Fin 64) : Option Doorbell :=
  s.sage.doorbells.find? fun d => ofQueue f q d && decide (d.idx = bits (s.reg f.val (sqOff q.val + 12)) 0 16)

/-- Whether the module may read a descriptor of a queue (R400, R416). -/
def mayRead (s : State) (f : Fn) (q : Fin 64) : Bool :=
  decide (s.fnState f.val = 2) && ctlEnable (s.reg f.val (sqOff q.val + 8)) && !queueStopped s f.val q.val &&
    decide ((s.sage.steps.filter fun t => t.fn = f).length < 4096)

/-- DESCRIPTOR_READ (R400): a read that faults stops the queue; one that meets poison, or host memory that does not
answer, takes its entry and ends its step later (R311, R392). -/
def execDescriptorRead (f : Fn) (q : Fin 64) (s : State) : Out :=
  match nextDoorbell s f q with
  | none => cannot
  | some d =>
    if mayRead s f q then
      let off := sqOff q.val
      let r := vread s (ownAccess f) (ringBase s f.val off + 128 * d.idx) 128
      match r.1 with
      | .error .busy => cannot
      | .error (.readonly _) => cannot
      | .error (.unmapped va detail) =>
        .next (queueFault (sqcEvent (setStopped r.2 f.val q.val true) f.val (off + 16) 16) f 1 q.val 8 va detail 0)
      | .ok (v, bad) =>
        let s := r.2
        let size := 2 ^ ctlLog2 (s.reg f.val (off + 8))
        let s := s.setReg f.val (off + 12) (putBits (s.reg f.val (off + 12)) 0 16 ((d.idx + 1) % size))
        .next ({ s with sage := { s.sage with
          doorbells := s.sage.doorbells.filter fun x => !(ofQueue f q x && decide (x.idx = d.idx))
          lastRead := sset (fun _ => 0) s.sage.lastRead (f.val * 64 + q.val) (s.stamp + 1)
          steps := s.sage.steps ++ [newStep s f q v d.ns (if bad then some 0x24 else none)] } }).tickStamp
    else cannot

/-- SQ_CTL (R398, R535): enabling starts the ring at 0; a write that sets ENABLE with a size out of range or without a
context is ignored and noted. -/
def execSqCtl (f : Fn) (q : Fin 64) (val : Word) (be : BitVec 4) (s : State) : Out :=
  let off := sqOff q.val
  let old := s.reg f.val (off + 8)
  let v := mergeBe old val be
  let v := putBits (putBits 0 0 5 (bits v 0 5)) 8 1 (bits v 8 1)
  fnWrite s f <|
    if ctlEnable v && (decide (ctlLog2 v < 4) || decide (16 < ctlLog2 v) || !ctxSet s f.val) then
      sqcEvent s f.val (off + 16) 18
    else
      let s := s.setReg f.val (off + 8) v
      if ctlEnable v && !ctlEnable old then
        let s := setStopped (s.setReg f.val (off + 12) 0) f.val q.val false
        { s with sage := { s.sage with doorbells := s.sage.doorbells.filter fun d => !ofQueue f q d } }
      else s

/-! ## Completion and event queues (R402 to R406) -/

/-- A write to CQ_CTL or EVQ_CTL. -/
def writeCqCtl (s : State) (f : Fn) (q : Nat) (val : Word) (be : BitVec 4) : State :=
  let off := cqOff q
  let old := s.reg f.val (off + 8)
  let v := bits (mergeBe old val be) 0 28
  let v := v - bits v 5 3 * 32
  let most := if q = 64 then 12 else 16
  if ctlEnable v && (decide (ctlLog2 v < 4) || decide (most < ctlLog2 v) || decide (vectorCount f.val ≤ ctlVector v) ||
      !ctxSet s f.val) then
    sqcEvent s f.val (cqStatus q) 18
  else
    let s := s.setReg f.val (off + 8) v
    if ctlEnable v && !ctlEnable old then
      setCqHead (setStopped (s.setReg f.val (off + 12) 0x10000) f.val (64 + q) false) f.val q 0
    else s

/-- CQ_CTL. -/
def execCqCtl (f : Fn) (q : Fin 64) (val : Word) (be : BitVec 4) (s : State) : Out :=
  fnWrite s f (writeCqCtl s f q.val val be)

/-- EVQ_CTL. -/
def execEvqCtl (f : Fn) (val : Word) (be : BitVec 4) (s : State) : Out := fnWrite s f (writeCqCtl s f 64 val be)

/-- A write to a head doorbell (R403). -/
def writeHead (s : State) (f : Fn) (q : Nat) (val : Word) : State :=
  let ctl := s.reg f.val (cqOff q + 8)
  let v := bits val.toNat 0 16
  if ctlEnable ctl = false then ignoreDoorbell s f
  else if 2 ^ ctlLog2 ctl ≤ v then sqcEvent s f.val (cqStatus q) 17
  else setCqHead s f.val q v

/-- CQ_HEAD. -/
def execCqHead (f : Fn) (q : Fin 64) (val : Word) (s : State) : Out := fnWrite s f (writeHead s f q.val val)

/-- EVQ_HEAD. -/
def execEvqHead (f : Fn) (val : Word) (s : State) : Out := fnWrite s f (writeHead s f 64 val)

/-- TAIL of a completion or event queue. -/
def cqTail (s : State) (f q : Nat) : Nat := bits (s.reg f (cqOff q + 12)) 0 16

/-- PHASE. -/
def cqPhase (s : State) (f q : Nat) : Nat := bits (s.reg f (cqOff q + 12)) 16 1

/-- Whether a queue is full (R403). -/
def cqFull (s : State) (f q : Nat) : Bool :=
  decide ((cqTail s f q + 1) % 2 ^ ctlLog2 (s.reg f (cqOff q + 8)) = cqHead s f q)

/-- Whether an entry can be written to a queue. -/
def cqOpen (s : State) (f q : Nat) : Bool :=
  ctlEnable (s.reg f (cqOff q + 8)) && !queueStopped s f (64 + q) && !cqFull s f q

/-- TAIL moves on; PHASE inverts when it wraps (R403). -/
def advanceTail (s : State) (f q : Nat) : State :=
  let t := (cqTail s f q + 1) % 2 ^ ctlLog2 (s.reg f (cqOff q + 8))
  let p := if t = 0 then 1 - cqPhase s f q else cqPhase s f q
  s.setReg f (cqOff q + 12) (t + p * 2 ^ 16)

/-- The interrupt of a queue (R404): at once, or after the aggregation time, one message for all in between. -/
def queueIrq (s : State) (f : Fn) (q : Nat) : State :=
  let ctl := s.reg f.val (cqOff q + 8)
  if ctlAgg ctl = 0 then sendVector s f (ctlVector ctl)
  else if s.host.irq.any fun w => w.fn == f && decide (w.queue = q) then s
  else { s with host := { s.host with irq := s.host.irq ++ [⟨f, q⟩] } }

/-- An event entry (R405). -/
def eventEntry (s : State) (e : EvRec) : Nat :=
  let lost := min (sget (fun _ => 0) s.host.evLost e.fn.val) 255
  cqPhase s e.fn.val 64 + 2 ^ 8 * (e.kind % 256) + 2 ^ 16 * (e.code % 256) + 2 ^ 24 * lost + 2 ^ 32 * (e.queue % 2 ^ 16) +
    2 ^ 64 * (e.stepId % 2 ^ 64) + 2 ^ 128 * (e.tick % 2 ^ 64) + 2 ^ 192 * (e.time % 2 ^ 64) + 2 ^ 256 * (e.errRef % 2 ^ 32)

/-- Drops an event and counts it (R406). -/
def dropEvent (s : State) (f : Fn) : State :=
  let n := min 255 (sget (fun _ => 0) s.host.evLost f.val + 1)
  { s with host := { s.host with evLost := sset (fun _ => 0) s.host.evLost f.val n } }

/-- EVENT_POST (R405, R406): the oldest event of a function is written, or dropped where the queue is full, disabled or
stopped. -/
def execEventPost (f : Fn) (s : State) : Out :=
  match takeFirst (fun e : EvRec => e.fn == f) s.host.evPend with
  | none => cannot
  | some (e, rest) =>
    let s := { s with host := { s.host with evPend := rest } }
    if fnActs s f && cqOpen s f.val 64 then
      let r := vwrite s (ownAccess f) (ringBase s f.val 0x2004 + 64 * cqTail s f.val 64) 64 (eventEntry s e)
      match r.1 with
      | .error .busy => cannot
      | .error _ => .next (dropEvent (sqcEvent (setStopped r.2 f.val 128 true) f.val 0x2018 16) f)
      | .ok _ =>
        let s := advanceTail r.2 f.val 64
        let s := { s with host := { s.host with evLost := sset (fun _ => 0) s.host.evLost f.val 0 } }
        .next (queueIrq s f 64)
    else
      let full := fnActs s f && ctlEnable (s.reg f.val 0x200C) && cqFull s f.val 64
      .next (dropEvent (if full then sqcEvent s f.val 0x2018 19 else s) f)

/-- MSIX_SEND (R404): the aggregation time of a queue with this vector ends, or the vector is unmasked with its pending bit
set. -/
def execMsixSend (f : Fn) (vector : Fin 2048) (s : State) : Out :=
  let mine (w : IrqWait) : Bool := w.fn == f && decide (ctlVector (s.reg f.val (cqOff w.queue + 8)) = vector.val)
  match takeFirst mine s.host.irq with
  | some (_, rest) => .next (sendVector { s with host := { s.host with irq := rest } } f vector.val)
  | none =>
    let p := s.reg f.val (pbaWord f.val vector.val)
    guarded (decide (vector.val < vectorCount f.val) && bit p (vector.val % 32) &&
        !bit (s.reg f.val (msixEntry f.val vector.val + 12)) 0)
      ((s.setReg f.val (pbaWord f.val vector.val) (p - 2 ^ (vector.val % 32))).emit (.msix f vector.val))

/-! ## Accounting (R76) -/

/-- The value of a field that nothing has counted: WAIT_MIN_NS is all ones. -/
def acctDefault (k : Nat) : Nat := if k % 64 = 5 then 2 ^ 64 - 1 else 0

/-- A field of an accounting record: 0 ADMITTED, 1 REFUSED, 2 DELAYED, 3 OVERRUNS, 4 PREEMPTS, 5 WAIT_MIN_NS,
6 WAIT_MAX_NS, 7 on WAIT_BINS. -/
def acct (s : State) (rec field : Nat) : Nat := sget acctDefault s.sage.acct (rec * 64 + field)

/-- Sets a field of an accounting record. -/
def setAcct (s : State) (rec field v : Nat) : State :=
  { s with sage := { s.sage with acct := sset acctDefault s.sage.acct (rec * 64 + field) v } }

/-- Adds to a field of `w` bits, which saturates at all ones. R76 states this for WAIT_BINS; that the U64 fields ADMITTED,
REFUSED, DELAYED, OVERRUNS and PREEMPTS saturate too is a DESIGN CHOICE (log entry 55). -/
def addAcct (s : State) (rec field w n : Nat) : State := setAcct s rec field (satAdd w (acct s rec field) n)

/-- CLIENT of a descriptor (R41). -/
def Step.client (t : Step) : Nat := bits t.raw.toNat 72 6

/-- The accounting record of a step. -/
def Step.acctRec (t : Step) : Nat := t.fn.val * 64 + t.client

/-- The bin of a wait. -/
def waitBin (ns : Nat) : Nat := if ns < 8000 then 0 else min 31 (Nat.log2 (ns / 8000) + 1)

/-- Counts the wait of a step that starts. -/
def countWait (s : State) (t : Step) (ns : Nat) : State :=
  let w := ns - t.doorbell
  let r := t.acctRec
  let s := setAcct s r 5 (min (acct s r 5) w)
  let s := setAcct s r 6 (max (acct s r 6) w)
  addAcct s r (7 + waitBin w) 32 1

/-! ## Completion (R72 to R75, R403) -/

/-- The code of a status (R73). -/
def statusCode : StepStatus → Nat
  | .done => 0
  | .doneDegraded => 1
  | .delayed => 2
  | .refusedCapacity => 0x10
  | .refusedQuota => 0x11
  | .refusedClass => 0x12
  | .poison => 0x30
  | .faultUnrecovered => 0x31
  | .abortedDisable => 0x40
  | .abortedReset => 0x41
  | .overrun => 0x50
  | .groupFault => 0x60

/-- The statuses in the order in which the first that applies is written (R74); a refused step has no other. -/
def statusOrder : List StepStatus :=
  [.refusedClass, .refusedQuota, .refusedCapacity, .abortedReset, .abortedDisable, .faultUnrecovered, .poison, .groupFault,
    .overrun, .doneDegraded, .delayed]

/-- CMD_COUNT of a descriptor. -/
def Step.cmdCount (t : Step) : Nat := bits t.raw.toNat 96 16

/-- WAIT_TICKS (R72). -/
def Step.waitTicks (t : Step) : Nat :=
  match t.start with
  | none => 0
  | some n => min (n - (t.admTick + 1)) (2 ^ 32 - 1)

/-- The status that a step's entry holds. -/
def Step.status (t : Step) : StepStatus :=
  match statusOrder.find? fun x => t.statuses.contains x with
  | some x => x
  | none => if t.degraded then .doneDegraded else if 0 < t.waitTicks then .delayed else .done

/-- Whether every command of a step that it has read has ended. -/
def Step.settled (t : Step) : Bool := t.cmds.all fun c => c.phase == .done || c.phase == .cancelled

/-- Whether a step has ended: a status was decided and nothing of it runs any more, or all its commands are done. -/
def Step.over (t : Step) : Bool :=
  t.settled && (!t.statuses.isEmpty || (t.phase == .running && decide (t.cmds.length = t.cmdCount)))

/-- Whether packets of a step are not answered: reduction packets that its cores sent, or packets to a partner (R75). -/
def packetsOut (s : State) (key : Nat) : Bool :=
  (s.net.redSent.any fun r => r.absorbed.isEmpty && decide (r.step = key)) || s.peer.sent.any fun p => decide (p.step = key)

/-- Whether a cancelled SCRUB of a step has its record still to write (R321). -/
def recordDue (t : Step) : Bool :=
  t.cmds.any fun c => c.phase == .cancelled && decide (bits c.hdr.toNat 0 8 = 7) && c.sliceNs.isSome

/-- Whether a step has ended and every write it made is visible (R75). -/
def stepOver (s : State) (t : Step) : Bool := t.over && !packetsOut s t.key && (coresOf s t.key).isEmpty && !recordDue t

/-- CQ of a descriptor. -/
def Step.cq (t : Step) : Nat := bits t.raw.toNat 320 16

/-- The completion entry (R72). -/
def completionEntry (s : State) (t : Step) : Nat :=
  let start := t.start.getD t.lastTick
  let used := if t.start.isSome then min (t.lastTick - start + 1) (2 ^ 32 - 1) else 0
  t.id + 2 ^ 64 * statusCode t.status + 2 ^ 72 * cqPhase s t.fn.val t.cq + 2 ^ 80 * min t.preempts 0xFFFF +
    2 ^ 96 * t.waitTicks + 2 ^ 128 * (start % 2 ^ 64) + 2 ^ 192 * used + 2 ^ 224 * (t.errRef % 2 ^ 32)

/-- What the accounting record counts when a step ends. -/
def countEnd (s : State) (t : Step) : State :=
  let r := t.acctRec
  let s := if t.status = .delayed then addAcct s r 2 64 1 else s
  let s := if t.status = .overrun then addAcct s r 3 64 1 else s
  addAcct s r 4 64 t.preempts

/-- A step ends: its last tick, its place in the order of its queue, its accounting. -/
def markEnded (s : State) (t : Step) : State :=
  let s := countEnd s t
  (updStep s t.key fun x => { x with
    phase := .ended
    endAt := s.stamp
    lastTick := if x.start.isNone && decide (x.lastTick ≠ 0) then x.lastTick else s.tick }).tickStamp

/-- Whether an earlier ended step waits for the same queue. -/
def entryWaits (s : State) (t : Step) : Bool :=
  s.sage.steps.any fun x => x.phase == .ended && x.fn == t.fn && decide (x.cq = t.cq) && decide (x.endAt < t.endAt)

/-- Writes the entry of an ended step and frees its place in the store; a faulting write stops the queue (R400, R403,
R404). -/
def writeEntry (s : State) (t : Step) : Out :=
  let f := t.fn
  let r := vwrite s { ownAccess f with fin := true } (ringBase s f.val (cqOff t.cq) + 32 * cqTail s f.val t.cq) 32 (completionEntry s t)
  match r.1 with
  | .error .busy => cannot
  | .error (.unmapped va d) =>
    .next (queueFault (sqcEvent (setStopped r.2 f.val (64 + t.cq) true) f.val (cqStatus t.cq) 16) f 2 t.cq 8 va d t.id)
  | .error (.readonly va) =>
    .next (queueFault (sqcEvent (setStopped r.2 f.val (64 + t.cq) true) f.val (cqStatus t.cq) 16) f 2 t.cq 9 va 0 t.id)
  | .ok _ =>
    let s := advanceTail r.2 f.val t.cq
    let s := { s with sage := { s.sage with steps := s.sage.steps.filter fun x => x.key ≠ t.key } }
    let s := monitorNat s 1 t.cls (s.now - t.doorbell)
    .next (if bit t.raw.toNat 82 then queueIrq s f t.cq else s)

/-- STEP_COMPLETION (R72, R75, R403): the step ends; its entry is written where its queue has room and no entry of an
earlier ended step waits, else it is held. -/
def execStepCompletion (step ns : Nat) (s : State) : Out :=
  match findStep s step with
  | none => cannot
  | some t =>
    if notBefore s ns && (stepOver s t || t.phase == .ended) then
      let s := s.at ns
      let held := t.phase == .ended
      let s := if held then s else markEnded s t
      match findStep s step with
      | none => cannot
      | some t =>
        if cqOpen s t.fn.val t.cq && !entryWaits s t then writeEntry s t
        else .next (if !held && ctlEnable (s.reg t.fn.val (cqOff t.cq + 8)) && cqFull s t.fn.val t.cq then sqcEvent s t.fn.val (cqStatus t.cq) 19 else s)
    else cannot

end Sys2Proof.Machine
end

