-- ==== Sys2Proof/Machine/Plan.lean ====
section
/-!
DEFINITION. Ticks and plans (R36 to R60, R66, R69, R70): the tick boundary, what makes a descriptor or a command invalid,
the checks of admission, and how a plan is filled.
-/
namespace Sys2Proof.Machine

/-! ## Descriptors and commands (R41 to R50) -/

/-- COST_CORE_US. -/
def Step.cost (t : Step) : Nat := bits t.raw.toNat 192 32
/-- CORES_MIN. -/
def Step.coresMin (t : Step) : Nat := bits t.raw.toNat 224 16
/-- CORES_MAX. -/
def Step.coresMax (t : Step) : Nat := bits t.raw.toNat 240 16
/-- FOOTPRINT_FAST in bytes. -/
def Step.footprint (t : Step) : Nat := 65536 * bits t.raw.toNat 256 32
/-- POWER_HINT, 0 counted as 255 (R54). -/
def Step.hint (t : Step) : Nat := if bits t.raw.toNat 288 8 = 0 then 255 else bits t.raw.toNat 288 8
/-- NO_DELAY. -/
def Step.noDelay (t : Step) : Bool := bit t.raw.toNat 81
/-- ORDERED. -/
def Step.ordered (t : Step) : Bool := bit t.raw.toNat 83
/-- Whether a step's reads are marked latency-critical (R42). -/
def Step.lat (t : Step) : Bool := decide (t.cls = 0) || bit t.raw.toNat 80
/-- CMD_LIST. -/
def Step.cmdList (t : Step) : Nat := bits t.raw.toNat 128 64

/-- Whether the fields of a descriptor are valid, its commands and CQ apart (R43). -/
def Step.valid (t : Step) : Bool :=
  let r := t.raw.toNat
  decide (bits r 66 6 = 0) && decide (t.cls ≠ 3) && decide (bits r 78 2 = 0) && decide (bits r 84 12 = 0) &&
    decide (bits r 112 16 = 0) && decide (bits r 296 24 = 0) && decide (bits r 336 48 = 0) && decide (bits r 448 576 = 0) &&
    decide (t.cmdCount ≠ 0) && decide (t.coresMin ≠ 0) && decide (t.coresMin ≤ t.coresMax) && decide (t.cmdList % 32 = 0)

/-- Whether CQ names an enabled completion queue of the function (R43, R402). -/
def cqValid (s : State) (t : Step) : Bool := decide (t.cq < 64) && ctlEnable (s.reg t.fn.val (cqOff t.cq + 8))

/-- `n` bytes of a command's header from byte offset `o`. -/
def Cmd.field (c : Cmd) (o n : Nat) : Nat := bits c.hdr.toNat (8 * o) (8 * n)
/-- TYPE. -/
def Cmd.typ (c : Cmd) : Nat := c.field 0 1
/-- CFLAGS.OVERLAP. -/
def Cmd.overlap (c : Cmd) : Bool := bit c.hdr.toNat 8
/-- PAYLOAD_LEN. -/
def Cmd.plen (c : Cmd) : Nat := c.field 2 2
/-- CORES. -/
def Cmd.ncores (c : Cmd) : Nat := c.field 8 2
/-- TCLASS. -/
def Cmd.tclass (c : Cmd) : BitVec 3 := BitVec.ofNat 3 (c.field 0xB 1)
/-- The first 32 B of the payload. -/
def Cmd.block (c : Cmd) : Nat := (c.payload.headD 0).toNat

/-- Whether a range of a function's space meets one of its peer windows (R378). -/
def meetsWindow (s : State) (fn a n : Nat) : Bool :=
  ((List.range 16).map fun i => window s fn i).any fun w =>
    decide (winBase w < a + n) && decide (a < winBase w + winLength w) && decide (0 < n)

/-- Whether two ranges share a byte. -/
def rangesMeet (a n b m : Nat) : Bool := decide (a < b + m) && decide (b < a + n) && decide (0 < n) && decide (0 < m)

/-- Whether a COPY segment's HINT has one of the forms of R48. -/
def hintOk (s : State) (h : Nat) : Bool :=
  decide (h = 0) || (decide (0x100 ≤ h) && decide (h ≤ 0x107)) || (decide (0x8000 ≤ h) && decide (h < 0x8000 + coreTotal s.grade))

/-- Whether a COPY segment is valid (R48, R378). -/
def segOk (s : State) (fn : Nat) (seg : BitVec 256) : Bool :=
  let v := seg.toNat
  hintOk s (bits v 160 16) && decide (bits v 176 16 = 0) && decide (bits v 224 32 = 0) &&
    !meetsWindow s fn (bits v 0 64) (bits v 128 32)

/-- Whether a COLLECTIVE is valid (R347, R378). -/
def collOk (s : State) (t : Step) (c : Cmd) : Bool :=
  let op := c.field 0xC 1
  let src := c.field 0x10 8
  let dst := c.field 0x18 8
  let len := bits c.block 0 64
  let contrib := bits c.block 64 16
  let mask := bits c.block 80 8
  (decide (op = 1) || decide (op = 2)) && decide (c.field 0xD 1 ≤ 2) && decide (c.plen = 32) &&
    decide (bits c.block 88 168 = 0) && decide (src % 4 = 0) && decide (dst % 4 = 0) && decide (len % 4 = 0) &&
    (decide (contrib ≠ 0) || (decide (op = 1) && decide (mask ≠ 0))) &&
    (decide (mask = 0) || (decide (op = 1) && decide (t.cls ≠ 0))) &&
    (if op = 1 then !rangesMeet src (contrib * len) dst len
     else !rangesMeet src len dst (contrib * len) && !meetsWindow s t.fn.val dst (contrib * len))

/-- Whether the inline fields and payload of a command are valid for its type (R46 to R50, R231, R347). -/
def bodyOk (s : State) (t : Step) (c : Cmd) : Bool :=
  match c.typ with
  | 0 => decide (c.plen = 0) && decide (c.field 0xC 20 = 0)
  | 1 =>
    let n := bits c.block 24 8
    decide (c.field 0x10 8 % 8 = 0) && decide (c.plen = 32 + 32 * n) && decide (n ≤ 64) &&
      decide (bits c.block 0 16 ≤ 4096) && decide (1 ≤ bits c.block 16 8) && decide (bits c.block 16 8 ≤ 64) &&
      decide (bits c.block 32 224 = 0)
  | 2 =>
    decide (1 ≤ c.field 0xC 2) && decide (c.field 0xC 2 ≤ 127) && decide (c.field 0xE 18 = 0) &&
      decide (c.plen = 32 * c.field 0xC 2) && c.payload.all (segOk s t.fn.val)
  | 3 => collOk s t c
  | 4 => decide (c.plen = 0) && decide (c.field 0xC 2 < 4096) && decide (c.field 0xE 2 = 0) && decide (c.field 0x1C 4 = 0) &&
      decide (t.cls ≠ 0)
  | 5 => decide (c.plen = 0) && decide (c.field 0xC 2 < 4096) && decide (c.field 0xE 2 = 0) && decide (c.field 0x18 8 = 0)
  | 6 =>
    let op := c.field 0xC 1
    let target := c.field 0xE 2
    decide (c.plen = 0) && decide (1 ≤ op) && decide (op ≤ 5) && decide (c.field 0xD 1 = 0) &&
      (decide (op ≠ 3) || decide (target < 8) || decide (target = 0xFFFF)) && decide (c.field 0x10 8 % 512 = 0) &&
      decide (c.field 0x18 8 % 512 = 0)
  | 7 =>
    let mode := c.field 0xC 2
    decide (c.plen = 32) && (decide (mode = 0) || (decide (mode = 1) && decide (t.fn.val = 0))) && decide (c.field 0xE 2 = 0) &&
      decide (c.field 0x10 8 % 512 = 0) && decide (c.field 0x18 8 % 512 = 0) && decide (bits c.block 64 192 = 0)
  | 8 => decide (c.plen = 0) && decide (c.field 0xC 1 ≠ 0) && decide (c.field 0xD 1 = 0) && decide (c.field 0x14 12 = 0)
  | _ => false

/-- Whether a command is valid (R44, R46). -/
def cmdOk (s : State) (t : Step) (c : Cmd) : Bool :=
  let kern := decide (c.typ = 1) || decide (c.typ = 3)
  decide (c.field 1 1 ≤ 1) && decide (c.plen % 32 = 0) && decide (c.plen ≤ 4064) && decide (c.field 0xB 1 < 8) &&
    (decide (c.ncores = 0) || (kern && decide (t.coresMin ≤ c.ncores) && decide (c.ncores ≤ t.coresMax))) && bodyOk s t c

/-! ## Reading commands (R51) -/

/-- A command as it is read. -/
def newCmd (va : Nat) (hdr : Nat) (payload : List (BitVec 256)) (bad : Option (Byte × Nat)) : Cmd :=
  { va := va
    hdr := BitVec.ofNat 256 hdr
    payload := payload
    bad := bad
    phase := .waiting
    cores := []
    startNs := 0
    waitTick := 0
    sliceNs := none
    units := 0
    tally := [] }

/-- The records of 32 B of a payload. -/
def records : Nat → Nat → List (BitVec 256)
  | 0, _ => []
  | n + 1, v => BitVec.ofNat 256 v :: records n (v / 2 ^ 256)

/-- What a read of a command met: it waits for a busy line, or it cannot be read for a cause, or its bytes. -/
inductive CmdRead where
  | busy
  | bad (cause : Byte) (detail : Nat)
  | ok (v : Nat)
  deriving DecidableEq, Repr

/-- Reads `n` bytes of a command list (R51, R311). -/
def readList (s : State) (t : Step) (va n : Nat) : CmdRead × State :=
  let r := vread s { ownAccess t.fn with lat := t.lat } va n
  match r.1 with
  | .error .busy => (.busy, r.2)
  | .error (.readonly _) => (.bad 8 0, r.2)
  | .error (.unmapped _ d) => (.bad 8 d, r.2)
  | .ok (_, true) => (.bad 0x24 0, r.2)
  | .ok (v, false) => (.ok v, r.2)

/-- Reads the commands of a step in order up to the first that cannot be read or whose length is not valid; none where a
line is busy (log entry 16). -/
def readCmds (t : Step) : Nat → Nat → State → Option (List Cmd × State)
  | 0, _, s => some ([], s)
  | n + 1, va, s =>
    let h := readList s t va 32
    match h.1 with
    | .busy => none
    | .bad c d => some ([newCmd va 0 [] (some (c, d))], h.2)
    | .ok v =>
      let len := bits v 16 16
      if len % 32 ≠ 0 ∨ 4064 < len then some ([newCmd va v [] none], h.2)
      else
        let p := if len = 0 then (.ok 0, h.2) else readList h.2 t (va + 32) len
        match p.1 with
        | .busy => none
        | .bad c d => some ([newCmd va v [] (some (c, d))], p.2)
        | .ok b =>
          (readCmds t n (va + 32 + len) p.2).map fun r => (newCmd va v (records (len / 32) b) none :: r.1, r.2)

/-! ## Records of steps (R51, R525) -/

/-- An ERROR record of scope step, its notice, and the status FAULT_UNRECOVERED; the commands stay as they are. -/
def stepRecord (s : State) (key cause cmd addr detail : Nat) : State :=
  match findStep s key with
  | none => s
  | some t =>
    let s := fnRecord s t.fn { LogRec.blank with
      kind := 1
      severity := 2
      cause := cause
      scope := 1
      stepId := t.id
      address := addr
      detail := detail
      cmdIndex := cmd } 4 cause 0
    updStep s key fun t => { t.addStatus .faultUnrecovered (newestRecord s) with
      lastTick := if t.start.isNone then s.tick + 1 else t.lastTick }

/-- A step fault that names an address: the commands that have not started are cancelled (R571). -/
def stepFaultAt (s : State) (key cause cmd addr detail : Nat) : State :=
  updStep (stepRecord s key cause cmd addr detail) key Step.cancelRest

/-- Removes a step from the store. -/
def dropStep (s : State) (key : Nat) : State :=
  { s with sage := { s.sage with steps := s.sage.steps.filter fun x => x.key ≠ key } }

/-- The commands of a step as they stand after reading: the first that could not be read is cancelled, with its record
(R51). -/
def placeCmds (s : State) (key : Nat) (cs : List Cmd) : State :=
  let cs' := cs.map fun c => if c.bad.isSome then { c with phase := .cancelled } else c
  let s := updStep s key fun t => { t with cmds := cs' }
  match cs.zipIdx.find? fun p => p.1.bad.isSome with
  | none => s
  | some (c, i) =>
    match c.bad with
    | none => s
    | some (cause, d) => stepRecord s key cause.toNat i (if cause = 8 then c.va else 0) d

/-- Reads a command again that a later plan holds (R51): none where a line is busy; else what its read met. A command keeps the
form in which it was checked (DESIGN CHOICE, log entry 16; R51 allows the old form). -/
def rereadCmd (s : State) (t : Step) (c : Cmd) : Option (Option (Byte × Nat) × State) :=
  let h := readList s t c.va (32 + c.plen)
  match h.1 with
  | .busy => none
  | .bad b d => some (some (b, d), h.2)
  | .ok _ => some (none, h.2)

/-- Reads the waiting commands of a step again, from the `i`-th on: the first that cannot be read is cancelled with those after
it, and has its record. -/
def rereadFrom (key : Nat) : List Cmd → Nat → State → Option State
  | [], _, s => some s
  | c :: cs, i, s =>
    if c.phase ≠ .waiting then rereadFrom key cs (i + 1) s
    else
      match findStep s key with
      | none => some s
      | some t =>
        match rereadCmd s t c with
        | none => none
        | some (none, s) => rereadFrom key cs (i + 1) s
        | some (some (cause, d), s) =>
          let s := updStep s key fun t => { t with cmds := t.cmds.zipIdx.map fun p =>
            if i ≤ p.2 ∧ p.1.phase = .waiting then { p.1 with phase := .cancelled } else p.1 }
          some (stepRecord s key cause.toNat i (if cause = 8 then c.va else 0) d)

/-! ## The plan (R53 to R57, R475, R476) -/

/-- The tick period in effect, in µs (R36). -/
def tickPeriod (s : State) : Nat := if s.sage.periodReq = 0 then s.obj 0x2010 1 0 else s.sage.periodReq

/-- TICK_TRIM_PPB, the rate trim of device time (R385). -/
def trimPpb (s : State) : Int :=
  let v := s.obj 0x8000 7 0
  if v < 2 ^ 31 then v else v - 2 ^ 32

/-- The usable time of a tick in µs (R38), on the length that the trim of device time leaves it (R385, log entry 35). -/
def usable (s : State) : Nat := tickPeriod s * 10 ^ 9 / (10 ^ 9 + trimPpb s).toNat - 20

/-- The serving cores in service. -/
def servingCores (s : State) : Nat := ((List.range (coreTotal s.grade)).filter fun c => inService s c).length

/-- The latest measured rates of the serving cores, in thousandths of their recorded rates, added up (R66). -/
def rateSum (s : State) : Nat :=
  (((List.range (coreTotal s.grade)).filter fun c => inService s c).map fun c => s.obj 0x4030 1 c).sum

/-- The class-0 core-time reservation of a tick, in thousandths of a core-µs (R54). -/
def c0Core (s : State) : Nat := s.obj 0x2011 1 0 * servingCores s * usable s

/-- What of it the cores deliver at their measured rates (R9, R66). -/
def c0Rated (s : State) : Nat := min (c0Core s) (s.obj 0x2011 1 0 * rateSum s * usable s / 1000)

/-- The core-µs that the cores deliver in a tick at their measured rates (R66). -/
def tickCore (s : State) : Nat := rateSum s * usable s / 1000

/-- The fast-tier bytes that a tick can deliver, at 51.2 TB/s (R54). -/
def tickBytes (s : State) : Nat := 51200000 * usable s

/-- The core-time that a step still asks for. -/
def Step.remaining (t : Step) : Nat := t.cost - t.usedUs

/-- The slices that a plan gives a class-0 step: from one moment of the usable time until another in µs, its cores, and its power
demand in 1/255 of full load (R54). -/
structure C0Slot where
  lo    : Nat
  hi    : Nat
  cores : Nat
  power : Nat
  deriving DecidableEq, Repr

/-- What is left while a plan is filled: core-µs, class-0 core-time in thousandths, class-0 bytes in thousandths, bytes,
power in core-µs of 1/255 of full load; what has been given; the slices of class-0 steps; and the bounds that are void. -/
structure Room where
  core   : Nat
  c0core : Nat
  c0mem  : Nat
  mem    : Nat
  power  : Nat
  used   : Nat
  items  : List PlanItem
  c0     : List C0Slot
  voids  : List (Nat × Nat)
  deficit : Sparse Int
  deriving DecidableEq, Repr

/-- Gives core-time to a step, and the fast-tier bytes of its share; one that declares no core-time takes its whole footprint
(R53). -/
def Room.give (r : Room) (t : Step) (g : Nat) : Room :=
  { r with
    core := r.core - g
    mem := r.mem - (if t.cost = 0 then t.footprint else t.footprint * g / t.cost)
    power := r.power - g * t.hint
    used := r.used + g * t.hint
    items := r.items ++ [⟨t.key, g⟩] }

/-- The slices of a class-0 step that starts at a moment: on as many cores as it may hold, at the measured rates (R54, R66). -/
def c0Slot (s : State) (t : Step) (lo : Nat) : C0Slot :=
  let n := min t.coresMax (servingCores s)
  let d := t.remaining * 1000 * servingCores s / max 1 (n * rateSum s)
  let d := if d * (n * rateSum s) < t.remaining * 1000 * servingCores s then d + 1 else d
  ⟨lo, lo + max 1 d, n, t.coresMax * t.hint⟩

/-- Whether slices fit beside those already given: at every moment of them the class-0 power part and the cores suffice, and they
end in the usable time (R54). -/
def slotFits (s : State) (r : Room) (x : C0Slot) : Bool :=
  let moments := x.lo :: ((r.c0.map C0Slot.lo).filter fun m => decide (x.lo ≤ m) && decide (m < x.hi))
  decide (x.hi ≤ usable s) && moments.all fun m =>
    let on := r.c0.filter fun y => decide (y.lo ≤ m) && decide (m < y.hi)
    decide ((x.power + (on.map C0Slot.power).sum) * fullLoad s ≤ 255 * c0Power s) &&
      decide (x.cores + (on.map C0Slot.cores).sum ≤ servingCores s)

/-- The earliest slices that fit: from the start of the usable time, or from the end of a step's slices (DESIGN CHOICE, log
entry 25). -/
def placeC0 (s : State) (r : Room) (t : Step) : Option C0Slot :=
  let ends := (0 :: r.c0.map C0Slot.hi).foldl (fun l e => (l.filter fun x => decide (x < e)) ++ e :: l.filter fun x => decide (e < x)) []
  (ends.map fun m => c0Slot s t m).find? fun x => slotFits s r x

/-- Whether a class-0 step's core-time and memory fit what is left of the reservation (R54). -/
def c0Fits (r : Room) (t : Step) : Bool := decide (1000 * t.remaining ≤ r.c0core) && decide (1000 * t.footprint ≤ r.c0mem)

/-- Stages 1 and 2 of R53: a re-planned step takes its time outside the reservation; a class-0 step is planned when it
fits; the conditions of R69 are checked. -/
def planClass0 (s : State) (r : Room) (t : Step) : Room :=
  let voids := (if aboveFloor s then [] else [(t.key, 3)]) ++ (if limiting s then [(t.key, 4)] else [])
  if t.replan then { r.give t t.remaining with voids := r.voids ++ voids }
  else
    match (if c0Fits r t then placeC0 s r t else none) with
    | some x =>
      { r.give t t.remaining with
        c0core := r.c0core - 1000 * t.remaining
        c0mem := r.c0mem - 1000 * t.footprint
        c0 := r.c0 ++ [x]
        voids := r.voids ++ voids }
    | none => { r with voids := r.voids ++ [(t.key, 1)] }

/-- The core-time that a step of class 1 or 2 can get of what it wants: core-time, bytes in proportion to its share of its
cost, and power (R53, R476). -/
def Room.grant (r : Room) (t : Step) (want : Nat) : Nat :=
  let byMem := if t.footprint = 0 ∨ t.cost = 0 then want else r.mem * t.cost / t.footprint
  min (min want r.core) (min byMem (r.power / t.hint))

/-- What of an amount a step can use: its commands run on CORES_MIN cores or more, so that they cannot be divided below a core-µs
of each (R56; DESIGN CHOICE, log entry 25). -/
def Step.whole (t : Step) (g : Nat) : Nat := if t.remaining ≤ g then g else g / max 1 t.coresMin * t.coresMin

/-- Plans a step of class 1 or 2 with at most `want` core-µs; one that gets nothing it needs is left out. -/
def Room.place (r : Room) (t : Step) (want : Nat) : Room :=
  let g := t.whole (r.grant t (min want t.remaining))
  if (g = 0 ∧ t.remaining ≠ 0) ∨ (t.cost = 0 ∧ t.footprint ≠ 0 ∧ r.mem = 0) then r else r.give t g

/-- Divides core-time among functions by weight, what a function does not need going back to the others (R56). An entry is
function, weight, demand. -/
def shares : Nat → Nat → List (Nat × Nat × Nat) → List (Nat × Nat)
  | 0, _, _ => []
  | n + 1, core, fs =>
    let w := (fs.map fun f => f.2.1).sum
    let sated := fs.filter fun f => decide (f.2.2 * w ≤ core * f.2.1)
    let rest := fs.filter fun f => !decide (f.2.2 * w ≤ core * f.2.1)
    if sated.isEmpty then fs.map fun f => (f.1, core * f.2.1 / w)
    else sated.map (fun f => (f.1, f.2.2)) ++ shares n (core - (sated.map fun f => f.2.2).sum) rest

/-- Plans the steps of one function in order, at most `want` core-µs in all. -/
def Room.placeAll : List Step → Nat → Room → Room
  | [], _, r => r
  | t :: ts, want, r =>
    let r' := r.place t want
    Room.placeAll ts (want - (r.core - r'.core)) r'

/-- Stage 3 of R53 for one function: its share and what earlier plans owe it; what it could not be given because commands cannot
be divided is owed it further (R56). -/
def planShare (ts : List Step) (r : Room) (f : Nat × Nat) : Room :=
  let mine := ts.filter fun t => decide (t.fn.val = f.1)
  let owed := f.2 + (sget (fun _ => 0) r.deficit f.1).toNat
  let r' := Room.placeAll mine owed r
  let left := owed - (r.core - r'.core)
  let given (t : Step) : Nat := ((r'.items.filter fun i => i.step = t.key).map PlanItem.coreUs).sum
  let short := mine.any fun t => decide (given t < t.remaining) && decide (left < t.coresMin)
  let d : Int := if short then (left : Int) else 0
  { r' with deficit := sset (fun _ => 0) r'.deficit f.1 d }

/-- Stage 3 of R53. -/
def planClass1 (s : State) (ts : List Step) (r : Room) : Room :=
  let fns := (ts.map fun t => t.fn.val).eraseDups
  let fs := fns.map fun f => (f, s.obj 0x7010 2 f, ((ts.filter fun t => decide (t.fn.val = f)).map Step.remaining).sum)
  (shares (fs.length + 1) r.core fs).foldl (planShare ts) r

/-- Inserts a step in an order. -/
def insertStep (before : Step → Step → Bool) (t : Step) : List Step → List Step
  | [] => [t]
  | x :: xs => if before x t then x :: insertStep before t xs else t :: x :: xs

/-- Steps in an order, equal ones as they stand. -/
def sortSteps (before : Step → Step → Bool) (l : List Step) : List Step := l.foldl (fun a t => insertStep before t a) []

/-- Doorbell order. -/
def byDoorbell (x y : Step) : Bool := decide (x.doorbell ≤ y.doorbell)

/-- The place of a class-2 step in the round robin: how many steps of its function stand before it, then its function
(R53, R57; log entry 25). -/
def robinOrder (ts : List Step) : List Step :=
  let rank (t : Step) : Nat := (ts.filter fun x => x.fn == t.fn && decide (x.doorbell < t.doorbell ∨
    (x.doorbell = t.doorbell ∧ x.key < t.key))).length
  sortSteps (fun x y => decide (rank x < rank y ∨ (rank x = rank y ∧ x.fn.val ≤ y.fn.val))) ts

/-- Fills a plan for steps in doorbell order (R53), with compute power for `power` core-µs of 1/255 of full load. Class 0
keeps its reservation (R476). -/
def fillPlan (s : State) (ts : List Step) (power : Nat) : Room :=
  let r : Room :=
    { core := tickCore s
      c0core := c0Rated s
      c0mem := s.obj 0x2011 2 0 * tickBytes s
      mem := tickBytes s
      power := power
      used := 0
      items := []
      c0 := []
      voids := []
      deficit := s.sage.deficit }
  let r := (ts.filter fun t => t.replan).foldl (planClass0 s) r
  let r := (ts.filter fun t => t.cls = 0 ∧ t.replan = false).foldl (planClass0 s) r
  let r := planClass1 s (ts.filter fun t => t.cls = 1 ∧ t.replan = false) r
  (robinOrder (ts.filter fun t => t.cls = 2 ∧ t.replan = false)).foldl (fun r t => r.place t t.remaining) r

/-- The power that a plan's core-time draws over the tick, in mW (R474). -/
def planMw (s : State) (used : Nat) : Nat := used * fullLoad s / (255 * max 1 (usable s))

/-- The budgets for a plan: the demand of compute is the plan's (R475). -/
def planBudgets (s : State) (ts : List Step) (linksW memW : Nat) : Nat → Nat :=
  let full := fillPlan s ts (2 ^ 64)
  budgets s fun k => if k = 0 then 1000 * linksW else if k = 1 then 1000 * memW else planMw s full.used

/-- A plan within the compute budget (R475, R476). -/
def buildPlan (s : State) (ts : List Step) (linksW memW : Nat) : Room :=
  fillPlan s ts (planBudgets s ts linksW memW 2 * 255 * usable s / max 1 (fullLoad s))

/-- The steps that a plan serves: admitted or running, of a function that is READY or DRAINING (R416), in doorbell
order. -/
def plannable (s : State) : List Step :=
  sortSteps byDoorbell (s.sage.steps.filter fun t => (t.phase == .admitted || t.phase == .running) && !t.settled &&
    (decide (s.fnState t.fn.val = 2) || decide (s.fnState t.fn.val = 3)))

/-! ## Admission (R52, R59) -/

/-- Refuses a step with a status: none of its commands runs. -/
def refuse (s : State) (t : Step) (st : StepStatus) : State :=
  addAcct (updStep s t.key fun x => { x.addStatus st 0 with
    cmds := []
    lastTick := s.tick + 1 }) t.acctRec 1 64 1

/-- The steps of a function that are admitted and not completed (R52). -/
def admitted (s : State) (f : Fn) : Nat :=
  (s.sage.steps.filter fun t => t.fn == f && (t.phase == .admitted || t.phase == .running)).length

/-- Admits a step. -/
def admitStep (s : State) (t : Step) : State :=
  let q := sget (fun _ => 0) s.sage.quota t.acctRec
  let s := { s with sage := { s.sage with quota := sset (fun _ => 0) s.sage.quota t.acctRec (q + t.cost) } }
  addAcct (updStep s t.key fun x => { x with
    phase := .admitted
    admTick := s.tick }) t.acctRec 0 64 1

/-- The first of the checks 2 to 5 of R52 that a step fails. -/
def checks (s : State) (t : Step) : Option StepStatus :=
  let quota := s.obj 0x7010 4 t.fn.val
  if !bit (s.obj 0x7010 1 t.fn.val) t.cls then some .refusedClass
  else if s.obj 0x7010 3 t.fn.val ≤ admitted s t.fn then some .refusedCapacity
  else if quota ≠ 0 ∧ quota < sget (fun _ => 0) s.sage.quota t.acctRec + t.cost then some .refusedQuota
  else if servingCores s < t.coresMin ∨ (t.cls = 0 ∧ c0Core s < 1000 * t.cost) then some .refusedCapacity
  else none

/-- Whether a plan gives a step what it can use. -/
def Room.has (r : Room) (key : Nat) : Bool := r.items.any fun i => decide (i.step = key)

/-- An invalid step (R43): its record, and its status, or a report on the event queue where CQ itself is invalid. -/
def invalidStep (s : State) (t : Step) : State :=
  if cqValid s t then updStep (stepRecord s t.key 0x20 0 0 0) t.key fun x => { x with cmds := [] }
  else dropStep (fnRecord s t.fn { LogRec.blank with
    kind := 1
    severity := 2
    cause := 0x20
    scope := 1
    stepId := t.id } 2 0 0) t.key

/-- Checks a newly arrived step (R52): a descriptor that met poison completes with its cause; while the module has lost its
service every step is refused (R357, R519); `denied` holds the NO_DELAY steps that the plan does not hold. -/
def admitOne (denied : List Nat) (o : Option State) (key : Nat) : Option State :=
  match o with
  | none => none
  | some s =>
    match findStep s key with
    | none => some s
    | some t =>
      match t.readBad with
      | some c =>
        let s := stepRecord s key c.toNat 0 0 0
        some (if cqValid s t then s else dropStep s key)
      | none =>
        if !(cqValid s t && t.valid) then some (invalidStep s t)
        else if s.net.lost then some (refuse s t .refusedCapacity)
        else
          match readCmds t t.cmdCount t.cmdList s with
          | none => none
          | some (cs, s) =>
            if cs.all fun c => c.bad.isSome || cmdOk s t c then
              match checks s t with
              | some st => some (refuse s t st)
              | none =>
                if denied.contains key then some (refuse s t .refusedCapacity) else some (admitStep (placeCmds s key cs) t)
            else some (invalidStep s t)

/-- The moment of the cut-off of the current tick. -/
def nextBoundary (s : State) : Nat :=
  let p := 1000 * tickPeriod s
  let b := (s.tickStart / p + 1) * p
  if b - s.tickStart < p then b + p else b

/-- The moment of the planning cut-off (R38). -/
def cutoff (s : State) : Nat := nextBoundary s - 1000 * s.obj 0x2010 2 0

/-- The steps that arrived before a moment and are not yet checked, in doorbell order. -/
def arrived (s : State) (ns : Nat) : List Nat :=
  (sortSteps byDoorbell (s.sage.steps.filter fun t => t.phase == .fresh && t.statuses.isEmpty && decide (t.doorbell < ns))).map
    Step.key

/-- Checks the newly arrived steps, until the plan that is built holds every NO_DELAY step among those admitted (R42, R52). -/
def admitAll (linksW memW : Nat) (keys : List Nat) : Nat → List Nat → State → Option State
  | 0, denied, s => keys.foldl (admitOne denied) (some s)
  | n + 1, denied, s =>
    match keys.foldl (admitOne denied) (some s) with
    | none => none
    | some a =>
      let r := buildPlan a (plannable a) linksW memW
      let missing := (a.sage.steps.filter fun t => keys.contains t.key && t.noDelay && t.phase == .admitted && !r.has t.key).map Step.key
      if missing.isEmpty then some a else admitAll linksW memW keys n (denied ++ missing) s

/-- The settings of R145, and the spill areas (R60), take effect at a cut-off. -/
def latchStrict (s : State) : State :=
  let strict (f : Nat) : Bool := decide (s.obj 0x7020 1 f ≠ 0)
  let now := (List.range 256).foldl (fun m f => sset (fun _ => false) m f (strict f)) s.sage.strictNow
  let core (k : Core) : Core := { k with cmd := k.cmd.map fun c => { c with strict := strict c.fn.val } }
  { s with
    sage := { s.sage with
      strictNow := now
      spills := s.sage.spills.map fun r => { r with save := core r.save }
      restarts := s.sage.restarts.map fun r => { r with save := core r.save }
      spillNow := (List.range 512).foldl (fun m k => sset (fun _ => 0) m k (s.obj 0x7010 (5 + k / 256) (k % 256))) s.sage.spillNow }
    cores := s.cores.map fun p => (p.1, core p.2) }

/-- Sets the plan for the next tick and what it reports (R69, R475). -/
def setPlan (s : State) (linksW memW : Nat) : State :=
  let ts := plannable s
  let r := buildPlan s ts linksW memW
  let b := planBudgets s ts linksW memW
  let s := { s with sage := { s.sage with
    plan := r.items
    planTick := s.tick + 1
    deficit := r.deficit } }
  let s := [0, 1, 2].foldl (fun s k => s.setObj 0x9000 0xB k (f32Ratio (b k) 1000)) s
  r.voids.foldl (fun s v => boundVoid s v.1 v.2) s

/-! ## Placement (R58, R113, R114) -/

/-- Whether an engine or cores serve a command: KERNEL, COPY, COLLECTIVE, CACHE_OP and SCRUB. -/
def Cmd.placed (c : Cmd) : Bool := ([1, 2, 3, 6, 7] : List Nat).contains c.typ

/-- Whether a plan places a command: one that waits, or an engine's command that later slices go on with (R61). -/
def Cmd.toPlace (c : Cmd) : Bool :=
  c.placed && (c.phase == .waiting || (c.phase == .running && decide (c.typ ≠ 1) && decide (c.typ ≠ 3) && c.sliceNs.isSome))

/-- The commands that a plan places. -/
def toPlace (s : State) : List CmdRef :=
  s.sage.plan.flatMap fun i => match findStep s i.step with
    | none => []
    | some t => t.cmds.zipIdx.filterMap fun p => if p.1.toPlace then some ⟨t.key, p.2⟩ else none

/-- Whether a core is reserved for another step's deposits (R113). -/
def reservedElsewhere (s : State) (key c : Nat) : Bool :=
  s.sage.steps.any fun t => decide (t.key ≠ key) && t.deposits.any fun d => decide (d.core.val = c)

/-- Whether a number of cores is one that a command may run on (R44). -/
def countOk (t : Step) (c : Cmd) (n : Nat) : Bool :=
  if c.ncores = 0 then decide (t.coresMin ≤ n) && decide (n ≤ t.coresMax) else decide (n = c.ncores)

/-- Whether cores follow DIE_MASK: none lies on another die while a serving core of a masked die is left (R44, R58). -/
def maskOk (s : State) (c : Cmd) (cores : List CoreNo) : Bool :=
  let on (k : Nat) : Bool := bit (c.field 0xA 1) (dieOfCore s k)
  decide (c.field 0xA 1 = 0) || (cores.all fun k => on k.val) ||
    (List.range (coreTotal s.grade)).all fun k => !(inService s k && on k) || cores.any fun x => decide (x.val = k)

/-- Whether a command may run on these cores: distinct ones in service, not reserved for another step, in number and by mask as the
command says; a KERNEL has the cores of its step's deposits among them (R44, R58, R113, R114). -/
def coresOk (s : State) (t : Step) (c : Cmd) (cores : List CoreNo) : Bool :=
  decide cores.Nodup && (cores.all fun k => inService s k.val && !reservedElsewhere s t.key k.val) && countOk t c cores.length &&
    maskOk s c cores && (decide (c.typ ≠ 1) || t.deposits.all fun d => !inService s d.core.val || cores.contains d.core)

/-- Whether Sage may place a command so. Which of the cores, and which die's engine, lie nearest its data is the environment's to
say (log entry 25). -/
def placementOk (s : State) (p : Placement) : Bool :=
  match findStep s p.cmd.step with
  | none => false
  | some t =>
    match t.cmds[p.cmd.cmd]? with
    | none => false
    | some c => if c.typ = 1 ∨ c.typ = 3 then coresOk s t c p.cores else p.cores.isEmpty

/-- Whether a plan's placements are those of its commands, each once. -/
def placesOk (s : State) (place : List Placement) : Bool :=
  decide (place.map Placement.cmd).Nodup && (place.all fun p => (toPlace s).contains p.cmd && placementOk s p) &&
    (toPlace s).all fun r => place.any fun p => p.cmd == r

/-- Reads the commands of the planned steps again that earlier cut-offs admitted (R51). -/
def rereadPlan (old : List Nat) (s : State) : Option State :=
  (s.sage.plan.map PlanItem.step).foldl (fun o key => match o with
    | none => none
    | some s => if old.contains key then
        match findStep s key with
        | some t => rereadFrom key t.cmds 0 s
        | none => some s
      else some s) (some s)

/-- PLANNING_CUTOFF (R38, R51 to R58, R475). -/
def execPlanningCutoff (linksW memW : Nat) (place : List Placement) (s : State) : Out :=
  if s.released && decide (s.sage.planTick ≠ s.tick + 1) && decide (s.now < nextBoundary s) then
    let s := latchStrict (s.at (max s.now (cutoff s)))
    let keys := arrived s (cutoff s)
    match admitAll linksW memW keys (keys.length + 1) [] s with
    | none => cannot
    | some a =>
      match rereadPlan ((plannable s).map Step.key) (setPlan a linksW memW) with
      | none => cannot
      | some s => guarded (placesOk s place) { s with sage := { s.sage with placed := place } }
  else cannot

/-! ## The tick boundary (R36, R37, R66) -/

/-- What a core did in the tick that ends (R66): its rate in per mille of its recorded rate, and its slow run (R67). -/
def measure (s : State) (m : CoreMeas) : State :=
  let mhz := min (s.obj 0x9020 1 m.core) (s.obj 0x9020 2 m.core)
  if m.busyNs = 0 ∨ mhz = 0 ∨ inService s m.core = false then s
  else
    let rate := m.cycles * 1000000 / (m.busyNs * mhz)
    let slow := decide (m.cycles * 1000000 < 850 * (m.busyNs * mhz))
    let s := s.setObj 0x4030 1 m.core (min rate 65535)
    s.setObj 0x4030 2 m.core (if slow then min 64 (s.obj 0x4030 2 m.core + 1) else 0)

/-- The samples that monitors take at a tick boundary (R451). -/
def boundarySamples (s : State) : State :=
  let s := (List.range 32).foldl (fun s i =>
    let c := monConfig s i
    let f := bits c 16 16
    if bits c 0 8 = 7 then monOne s i (FVal.ofInt (s.obj 0x7040 2 f))
    else if bits c 0 8 = 8 then monOne s i (FVal.ofInt (s.obj 0x7040 3 f - sget (fun _ => 0) s.mgmt.lastSample f : Nat))
    else s) s
  { s with mgmt := { s.mgmt with
    lastSample := (List.range 256).foldl (fun m f => sset (fun _ => 0) m f (s.obj 0x7040 3 f)) s.mgmt.lastSample } }

/-- Device time steps at a boundary (R384): the module logs it. -/
def applyTimeStep (s : State) (b : Nat) : State :=
  if s.sage.timeStep = 0 then s.at b
  else
    let t := ((b : Int) + s.sage.timeStep).toNat
    logRecord { s with
      now := t
      sage := { s.sage with timeStep := 0 } } { LogRec.blank with
        kind := 2
        scope := 3
        detail := t }

/-- Takes core-time back from the last steps of a plan that are of class 1 or 2 (R70). -/
def takeBackTime (s : State) : Nat → List PlanItem → List PlanItem
  | _, [] => []
  | need, i :: rest =>
    let cls := match findStep s i.step with
      | some t => t.cls
      | none => 2
    let rest' := takeBackTime s need rest
    let freed := (rest.map PlanItem.coreUs).sum - (rest'.map PlanItem.coreUs).sum
    if cls = 0 then i :: rest' else { i with coreUs := i.coreUs - (need - freed) } :: rest'

/-- The plan that is loaded: class-0 steps that a fault after the cut-off affected stand at its head, with core-time of classes 1
and 2 (R70). -/
def amendPlan (s : State) (plan : List PlanItem) : List PlanItem :=
  let late := (s.sage.steps.filter fun t => t.replan && t.phase == .running && !(plan.any fun i => i.step = t.key)).map fun t =>
    (⟨t.key, t.remaining⟩ : PlanItem)
  if late.isEmpty then plan
  else
    let need := ((late ++ plan).map PlanItem.coreUs).sum - tickCore s
    late ++ takeBackTime s need plan

/-- Whether every slice has ended, as before the guard (R61). -/
def slicesEnded (s : State) : Bool :=
  s.cores.all fun p => match p.2.cmd with
    | some c => c.paused || p.2.live.isEmpty
    | none => true

/-- TICK_BOUNDARY: the tick count advances and the plan is loaded; settings that wait for a boundary take effect (R36,
R76, R362); every core's rate is measured; a step that runs again after a fault is degraded (R70). -/
def execTickBoundary (meas : List CoreMeas) (s : State) : Out :=
  guarded (s.released && decide (s.now ≤ nextBoundary s) && slicesEnded s) <|
    let n := s.tick + 1
    let s := applyTimeStep s (nextBoundary s)
    let s := (s.setObj 0x2010 3 0 n).setObj 0x2010 4 0 s.now
    let s := meas.foldl measure s
    let plan := if s.sage.planTick = n then s.sage.plan else []
    let loaded := amendPlan s plan
    let again (key : Nat) : Bool := !(plan.any fun i => i.step = key)
    let s := { s with
      sage := { s.sage with
        loaded := loaded
        plan := []
        placed := []
        placedNow := (if s.sage.planTick = n then s.sage.placed else []) ++
          s.sage.placedNow.filter fun p => again p.cmd.step && loaded.any fun i => i.step = p.cmd.step
        ran := []
        quota := if n % max 1 (s.obj 0x2011 4 0) = 0 then [] else s.sage.quota
        periodReq := if s.moduleState = 0 then 0 else s.sage.periodReq
        steps := s.sage.steps.map fun t => if t.replan ∧ loaded.any (fun i => i.step = t.key) then
          { t with replan := false, degraded := true } else t } }
    boundarySamples (latchLimits s)

end Sys2Proof.Machine
end

