-- ==== Sys2Proof/Machine/Slices.lean ====
section
/-!
DEFINITION. Commands as they start, their slices, spill and resumption, overruns, slow cores and the KERNEL command (R45,
R49, R61 to R65, R67, R71, R111 to R114, R473, R478, R480).
-/
namespace Sys2Proof.Machine

/-! ## Starting a command (R45, R42, R478) -/

/-- A command of a step. -/
def Step.command (t : Step) (i : Nat) : Option Cmd := t.cmds[i]?

/-- Whether every command before one has ended. -/
def earlierDone (t : Step) (i : Nat) : Bool := (t.cmds.take i).all fun c => c.phase == .done || c.phase == .cancelled

/-- Whether a command may start after those before it (R45). -/
def inOrder (t : Step) (i : Nat) (c : Cmd) : Bool :=
  earlierDone t i || (c.overlap && match t.command (i - 1) with
    | some p => p.phase == .running || p.phase == .done
    | none => true)

/-- Whether the step before an ORDERED step in its queue has completed (R42). -/
def orderMet (s : State) (t : Step) : Bool :=
  !t.ordered || !(s.sage.steps.any fun x => decide (x.key = t.prev) && !(x.phase == .ended))

/-- Whether Tarragon holds the slices of a class (R478). -/
def powerHeld (s : State) (cls : Nat) : Bool :=
  (decide (cls = 2) && decide (1 ≤ s.obj 0x9000 0xC 2)) || (decide (cls = 1) && decide (2 ≤ s.obj 0x9000 0xC 2))

/-- Whether a step may run in this tick: the loaded plan has core-time left for it, or it declares none or has used what it
declared; and its function runs steps (R53). -/
def inPlan (s : State) (t : Step) : Bool :=
  s.released && (s.sage.loaded.any fun i => decide (i.step = t.key) && (decide (0 < i.coreUs) || decide (t.remaining = 0))) &&
    (decide (s.fnState t.fn.val = 2) || decide (s.fnState t.fn.val = 3)) && !powerHeld s t.cls

/-- The start of the tick guard (R38). -/
def guardStart (s : State) : Nat := nextBoundary s - 20000

/-- The place of a command in the loaded plan (R58). -/
def placeOf (s : State) (r : CmdRef) : Option Placement := s.sage.placedNow.find? fun p => p.cmd == r

/-- The step and the command that a row starts, where it may start now: never in the guard (R38), and from its engine's queue
(R58). -/
def startable (s : State) (r : CmdRef) (typ : Nat) : Option (Step × Cmd) :=
  match findStep s r.step with
  | none => none
  | some t =>
    match t.command r.cmd with
    | none => none
    | some c =>
      if (t.phase == .admitted || t.phase == .running) && c.phase == .waiting && decide (c.typ = typ) && inPlan s t &&
          decide (s.now < guardStart s) && (!c.placed || (placeOf s r).isSome) && inOrder t r.cmd c &&
          (t.phase == .running || orderMet s t) then some (t, c)
      else none

/-- A command starts; with its first command the step starts, and its wait is counted (R72, R76, R451). -/
def beginCmd (s : State) (r : CmdRef) (t : Step) : State :=
  let s := if t.phase = .admitted then
      monitorNat (countWait (updStep s t.key fun x => { x with
        phase := .running
        start := some s.tick
        startNs := s.now }) t s.now) 2 t.cls (s.now - t.doorbell)
    else s
  updStep s t.key fun x => { x with cmds := x.cmds.zipIdx.map fun q =>
    if q.2 = r.cmd then { q.1 with phase := .running, startNs := s.now, waitTick := s.tick, sliceNs := some s.now } else q.1 }

/-- A command that starts and completes at once. -/
def runAtOnce (s : State) (r : CmdRef) (t : Step) (f : State → State) : State :=
  setPhase (f (beginCmd s r t)) r.step r.cmd .done

/-- NOP (R46). -/
def execNop (c : CmdRef) (s : State) : Out :=
  match startable s c 0 with
  | none => cannot
  | some (t, _) => .next (runAtOnce s c t id)

/-! ## Events (R49, R50, R409) -/

/-- An event counter of a function. -/
def evCounter (s : State) (fn e : Nat) : Nat := sget (fun _ => 0) s.host.evc (fn * 4096 + e)

/-- Adds to an event counter, modulo 2^64 (log entry 26). -/
def evAdd (s : State) (fn e n : Nat) : State :=
  { s with host := { s.host with evc := sset (fun _ => 0) s.host.evc (fn * 4096 + e) ((evCounter s fn e + n) % 2 ^ 64) } }

/-- The running command of a step that a row names. -/
def runningCmd (s : State) (r : CmdRef) (typ : Nat) : Option (Step × Cmd) :=
  match findStep s r.step with
  | none => none
  | some t =>
    match t.command r.cmd with
    | none => none
    | some c => if c.phase == .running && decide (c.typ = typ) then some (t, c) else none

/-- Whether the counter of a WAIT_EVENT has reached VALUE. -/
def eventMet (s : State) (t : Step) (c : Cmd) : Bool := decide (c.field 0x10 8 ≤ evCounter s t.fn.val (c.field 0xC 2))

/-- WAIT_EVENT starts waiting; it holds no core. -/
def execWaitEvent (c : CmdRef) (s : State) : Out :=
  match startable s c 4 with
  | none => cannot
  | some (t, _) => .next (beginCmd s c t)

/-- WAIT_EVENT_RELEASE. -/
def execWaitEventRelease (c : CmdRef) (s : State) : Out :=
  match runningCmd s c 4 with
  | none => cannot
  | some (t, x) => guarded (eventMet s t x) (setPhase s c.step c.cmd .done)

/-- EVENT_TIMEOUT: the step ends with cause EVENT_TIMEOUT. -/
def execEventTimeout (c : CmdRef) (s : State) : Out :=
  match runningCmd s c 4 with
  | none => cannot
  | some (t, x) =>
    guarded (!eventMet s t x && decide (x.field 0x18 4 ≠ 0) && decide (x.waitTick + x.field 0x18 4 ≤ s.tick))
      (setPhase (stepFault s c.step 0x21 c.cmd) c.step c.cmd .cancelled)

/-- SIGNAL_EVENT: once every earlier command of the step has ended with its writes acknowledged. -/
def execSignalEvent (c : CmdRef) (s : State) : Out :=
  match startable s c 5 with
  | none => cannot
  | some (t, x) =>
    guarded (earlierDone t c.cmd) (runAtOnce s c t fun s => evAdd s t.fn.val (x.field 0xC 2) (x.field 0x10 8))

/-! ## Kernels (R47, R111 to R114, R473, R480) -/

/-- Whether a core can take work: it serves, runs nothing and its clock runs. -/
def coreFree (s : State) (c : Nat) : Bool :=
  inService s c && (s.core c).cmd.isNone && !(s.core c).hw.fenced && !(s.core c).hw.gated

/-- Whether ranges are contiguous, from group `lo` to group `hi`, on rising logical cores from `core` (R111). -/
def rangesFrom : List CoreRange → Nat → Nat → Nat → Bool
  | [], _, lo, hi => decide (lo = hi)
  | r :: t, core, lo, hi => decide (core ≤ r.core.val) && decide (r.first = lo) && rangesFrom t (r.core.val + 1) (lo + r.count) hi

/-- The power that the class-0 steps on cores draw, in 1/255 of full load (R54). -/
def c0Running (s : State) : Nat :=
  ((s.sage.steps.filter fun t => decide (t.cls = 0) && !(coresOf s t.key).isEmpty).map fun t => t.coresMax * t.hint).sum

/-- Whether the class-0 power part allows a step to run with those that run (R54). -/
def c0PowerOk (s : State) (t : Step) : Bool :=
  decide (t.cls ≠ 0) || !(coresOf s t.key).isEmpty ||
    decide ((c0Running s + t.coresMax * t.hint) * fullLoad s ≤ 255 * c0Power s)

/-- Whether the counts of ranges are the cores' shares of a grid in proportion to their latest measured rates, whole groups apart
(R66, R111). -/
def sharesOk (s : State) (grid : Nat) (rs : List CoreRange) : Bool :=
  let total := (rs.map fun r => s.obj 0x4030 1 r.core.val).sum
  rs.all fun r =>
    let share := grid * s.obj 0x4030 1 r.core.val
    decide (r.count * total < share + total + b2n (total == 0)) && decide (share < r.count * total + total + b2n (total == 0))

/-- The cores that a command gets: those that the plan placed it on, where it may still run on them, else others that it may run
on (R30, R58, R114); free ones, no more at once than the step may hold (R41). -/
def givenOk (s : State) (t : Step) (i : Nat) (c : Cmd) (cores : List CoreNo) : Bool :=
  let placed := match placeOf s ⟨t.key, i⟩ with
    | some p => p.cores
    | none => []
  coresOk s t c cores && (cores.all fun k => coreFree s k.val) && decide ((coresOf s t.key).length + cores.length ≤ t.coresMax) &&
    (!coresOk s t c placed || (decide (cores.length = placed.length) && placed.all fun k => cores.contains k))

/-- Whether Sage may give a KERNEL command these ranges (R44, R111, R113, R114). -/
def rangesOk (s : State) (t : Step) (i : Nat) (c : Cmd) (rs : List CoreRange) : Bool :=
  rangesFrom rs 0 0 (c.field 0xC 4) && sharesOk s (c.field 0xC 4) rs && givenOk s t i c (rs.map CoreRange.core) && c0PowerOk s t

/-- A core set up for a KERNEL command (R112): everything of the core but its caches and clock is cleared, and the
descriptors are loaded. -/
def setupCore (s : State) (t : Step) (idx : Nat) (c : Cmd) (r : CoreRange) : Core :=
  let k := (s.core r.core.val).release
  let descs := (c.payload.drop 1).zipIdx.foldl (fun m p => sset (fun _ => 0) m p.2 p.1) []
  { k with
    descs := descs
    cmd := some
      { step := t.key
        idx := idx
        fn := t.fn
        entry := c.field 0x10 8
        args := BitVec.ofNat 64 (c.field 0x18 8)
        grid := c.field 0xC 4
        first := r.first
        count := r.count
        next := r.first
        lmemKib := bits c.block 0 16
        resident := bits c.block 16 8
        tclass := c.tclass
        lat := t.lat
        seed := bits t.raw.toNat 384 64
        strict := sget (fun _ => false) s.sage.strictNow t.fn.val
        stopping := false
        irreversible := false
        paused := false } }

/-- Puts a deposit into a core's local memory (R113, R311), after which the core cannot be restarted (R522). -/
def Core.deposit (k : Core) (d : Deposit) : Core :=
  let k := (k.lwrite d.off d.len d.data).cleanCovered [(d.off, d.len)]
  let k := d.bad.foldl (fun k sp => (Span.sectors sp).foldl (fun k n => k.setLmark n true) k) k
  { k with cmd := k.cmd.map fun c => { c with irreversible := true } }

/-- Counts a dropped deposit (R113, R114). -/
def dropDeposit (s : State) (c : Nat) : State := s.bump 0x3050 6 c 1

/-- Makes or drops a deposit of the step whose KERNEL starts. -/
def landDeposit (key : Nat) (s : State) (d : Deposit) : State :=
  let k := s.core d.core.val
  match k.cmd with
  | none => dropDeposit s d.core.val
  | some c =>
    if c.step = key ∧ d.off + d.len ≤ c.window then s.setCore d.core.val (k.deposit d) else dropDeposit s d.core.val

/-- Records that a core ran a slice of a function's command in this tick (R106). -/
def noteRan (s : State) (c fn : Nat) : State :=
  { s with sage := { s.sage with ran := sset (fun _ => false) s.sage.ran (c * 256 + fn) true } }

/-- The stagger of the k-th core of a step with a hinted phase (R480). -/
def staggerCore (s : State) (key : Nat) (p : CoreRange × Nat) : State :=
  if s.power.hints.any fun h => decide (h.step = key) then
    let k := s.core p.1.core.val
    s.setCore p.1.core.val { k with hw := { k.hw with staggerNs := p.2 % 16 * 128 } }
  else s

/-- KERNEL: its cores are set up, deposits land, and groups may start. -/
def execKernel (c : CmdRef) (ranges : List CoreRange) (s : State) : Out :=
  match startable s c 1 with
  | none => cannot
  | some (t, x) =>
    guarded (rangesOk s t c.cmd x ranges) <|
      let s := beginCmd s c t
      let s := ranges.foldl (fun s r => noteRan (s.setCore r.core.val (setupCore s t c.cmd x r)) r.core.val t.fn.val) s
      let s := ranges.zipIdx.foldl (fun s p => staggerCore s t.key p) s
      let s := t.deposits.foldl (landDeposit t.key) s
      let s := updStep s t.key fun y => { y with
        deposits := []
        cmds := y.cmds.zipIdx.map fun q => if q.2 = c.cmd then { q.1 with cores := ranges.map CoreRange.core } else q.1 }
      if ranges.isEmpty then setPhase s c.step c.cmd .done
      else ranges.foldl (fun s r => settleCore s r.core.val) s

/-! ## Slices and spill (R61 to R65) -/

/-- The cores that run a command. -/
def cmdCores (s : State) (r : CmdRef) : List Nat :=
  s.cores.filterMap fun p => match p.2.cmd with
    | some c => if c.step = r.step ∧ c.idx = r.cmd then some p.1 else none
    | none => none

/-- The pages of a core's spill share (R62). -/
def sharePages (lmemKib : Nat) : Nat := (790 + lmemKib + 63) / 64

/-- The base of a function's spill area, as the latest cut-off found it (R60). -/
def spillBase (s : State) (fn : Fn) : Nat := sget (fun _ => 0) s.sage.spillNow fn.val

/-- The size of a function's spill area in pages, likewise. -/
def spillPages (s : State) (fn : Fn) : Nat := sget (fun _ => 0) s.sage.spillNow (256 + fn.val)

/-- The pages that a function's spilled cores take. -/
def spillTaken (s : State) (fn : Fn) : List Nat :=
  s.sage.spills.flatMap fun r => match r.save.cmd with
    | some c => if c.fn = fn then r.pages else []
    | none => []

/-- The free pages of a function's spill area, in order. -/
def spillFree (s : State) (fn : Fn) : List Nat :=
  ((List.range (spillPages s fn)).map fun i => spillBase s fn + 65536 * i).filter fun a => !(spillTaken s fn).contains a

/-- The marks of the `i`-th line of a core's spill share, whose parts lie in the order of R62 (R311; DEDUCED, log entry 27): those
of its accumulator tiles and of its local memory. -/
def shareMarks (k : Core) (i : Nat) : Marks :=
  if 1024 ≤ i ∧ i < 1536 then (if sget (fun _ => false) k.tmarks ((i - 1024) / 32) then 15 else 0)
  else if 1580 ≤ i then
    BitVec.ofNat 4 (((List.range 4).map fun j => if k.lmark (4 * (i - 1580) + j) then 2 ^ j else 0).sum)
  else 0

/-- A core's state with the marks that a line of its spill share has in memory (R311). -/
def Core.remark (k : Core) (i : Nat) (m : Marks) : Core :=
  if m = 0 then k
  else if 1024 ≤ i ∧ i < 1536 then { k with tmarks := sset (fun _ => false) k.tmarks ((i - 1024) / 32) true }
  else if 1580 ≤ i then (List.range 4).foldl (fun k j => if m.getLsbD j then k.setLmark (4 * (i - 1580) + j) true else k) k
  else k

/-- A core's accesses to its function's spill area: of class SPILL (R62, R215). -/
def spillAccess (s : State) (r : CmdRef) (fn : Fn) (c : Nat) : Access := ⟨siteOfCore s c, fn, 3, false, false, r.step⟩

/-- The lines of a core's spill share, with their numbers in it. -/
def shareLines (pages : List Nat) : List (Nat × Nat) :=
  pages.zipIdx.flatMap fun p => (List.range 128).map fun j => (128 * p.2 + j, p.1 + 512 * j)

/-- Writes the lines of a core's spill share: their layout within R62's parts is the module's own, so software that reads them
sees free values (log entry 27). -/
def spillLines (x : Access) (k : Core) : List (Nat × Nat) → State → Except VErr Unit × State
  | [], s => (.ok (), s)
  | (i, va) :: rest, s =>
    let r := vline s x va true
    match r.1 with
    | .error e => (.error e, r.2)
    | .ok l =>
      spillLines x k rest (writeLine { r.2 with free := r.2.free + 1 } x va l (Config.freeLine r.2.free) (-1) (shareMarks k i) 0)

/-- Whether a core is still: nothing that its groups issued is on its way (R62; log entry 27). -/
def Core.still (k : Core) : Bool := k.mq.isEmpty && k.loads.isEmpty && k.xfers.isEmpty && k.writes.isEmpty

/-- A packet that still arrives at a core's inbox is abandoned before a spill (R138). -/
def abandonArriving (s : State) (c : Nat) : State :=
  let b := (s.core c).inbox
  match b.lock with
  | none => s
  | some snd =>
    if b.discard then putInbox s c { b with lock := none, discard := false, arriving := 0 }
    else (putInbox s c (b.abandon snd)).bump 0x3050 5 c 1

/-- Spills one core of a command: its state is saved, its share written, and the core is free. An error where a line is busy or
the area cannot be written. -/
def spillCore (s : State) (r : CmdRef) (fn : Fn) (c : Nat) : Except VErr Unit × State :=
  let s := abandonArriving s c
  let k := s.core c
  let n := match k.cmd with
    | some x => sharePages x.lmemKib
    | none => 0
  let pages := (spillFree s fn).take n
  let w := spillLines (spillAccess s r fn c) k (shareLines pages) s
  match w.1 with
  | .error e => (.error e, w.2)
  | .ok _ =>
    let s := w.2.setCore c k.release
    (.ok (), { s with sage := { s.sage with spills := s.sage.spills ++ [⟨pages, r.step, r.cmd, Fin.ofNat 256 c, k⟩] } })

/-- Spills the cores of a command in order. -/
def spillAll (r : CmdRef) (fn : Fn) : List Nat → State → Except VErr Unit × State
  | [], s => (.ok (), s)
  | c :: t, s =>
    let x := spillCore s r fn c
    match x.1 with
    | .error e => (.error e, x.2)
    | .ok _ => spillAll r fn t x.2

/-- The pages that the cores of a command need. -/
def cmdPages (s : State) (r : CmdRef) : Nat :=
  ((cmdCores s r).map fun c => match (s.core c).cmd with
    | some x => sharePages x.lmemKib
    | none => 0).sum

/-- A command whose spill does not fit is stopped unsaved (R63). -/
def spillFails (s : State) (r : CmdRef) : State :=
  let s := stepFault s r.step 0x22 r.cmd
  (cmdCores s r).foldl (fun s c => settleCore (s.setCore c (s.core c).halt) c) s

/-- Stops the cores of a command between two instructions of each group, or lets them go on (R61, R119). -/
def pauseCmd (s : State) (r : CmdRef) (paused : Bool) : State :=
  (cmdCores s r).foldl (fun s c =>
    let k := s.core c
    s.setCore c { k with cmd := k.cmd.map fun x => { x with paused := paused } }) s

/-- Sets the slice of a command. -/
def setSlice (s : State) (r : CmdRef) (ns : Option Nat) : State :=
  updStep s r.step fun t => { t with cmds := t.cmds.zipIdx.map fun q => if q.2 = r.cmd then { q.1 with sliceNs := ns } else q.1 }

/-- A slice has used core-time: the step's, and what the plan gave it. -/
def useTime (s : State) (key usedUs : Nat) : State :=
  let s := updStep s key fun x => { x with usedUs := x.usedUs + usedUs }
  { s with sage := { s.sage with loaded := s.sage.loaded.map fun i =>
    if i.step = key then { i with coreUs := i.coreUs - usedUs } else i } }

/-- Whether a slice may end at a moment: at most 50 µs after its start and before the guard; one that has ended may still be
spilled (R38, R61). -/
def sliceMayEnd (s : State) (x : Cmd) (ns usedUs : Nat) (spill : Bool) : Bool :=
  match x.sliceNs with
  | some a => decide (ns ≤ a + 50000) && decide (ns ≤ guardStart s)
  | none => spill && decide (usedUs = 0)

/-- SLICE_END: the slice's measured core-time counts; where the command's cores go to other work, its state is spilled. -/
def execSliceEnd (c : CmdRef) (ns usedUs : Nat) (spill : Bool) (s : State) : Out :=
  match findStep s c.step with
  | none => cannot
  | some t =>
    match t.command c.cmd with
    | none => cannot
    | some x =>
      let cores := cmdCores s c
      if notBefore s ns && !cores.isEmpty && sliceMayEnd s x ns usedUs spill &&
          (!spill || (decide (t.cls ≠ 0) && cores.all fun k => (s.core k).still)) then
        let s := setSlice (pauseCmd (useTime (s.at ns) t.key usedUs) c true) c none
        if spill then
          if (spillFree s t.fn).length < cmdPages s c then .next (spillFails s c)
          else
            let r := spillAll c t.fn cores s
            match r.1 with
            | .error .busy => cannot
            | .error _ => .next (spillFails s c)
            | .ok _ => .next (updStep r.2 t.key fun x => { x with preempts := min 0xFFFF (x.preempts + 1) })
        else .next s
      else cannot

/-- Reads a core's spill share back: the marks of its lines join those of the saved state (R311). -/
def unspillLines (x : Access) : List (Nat × Nat) → Core → State → Except VErr Core × State
  | [], k, s => (.ok k, s)
  | (i, va) :: rest, k, s =>
    let r := vline s x va false
    match r.1 with
    | .error e => (.error e, r.2)
    | .ok l =>
      let y := readLine r.2 x l
      unspillLines x rest (k.remark i y.1.2) y.2

/-- A spilled core's state on the core that takes it (R62): its caches and clock are the new core's, and it is the restart
point of R522. -/
def resumeOn (s : State) (r : SpillRec) (core : CoreNo) (k : Core) : State :=
  let now := s.core core.val
  let save := { k with
    ro := now.ro
    miss := now.miss
    cycles := now.cycles
    hw := now.hw
    cmd := k.cmd.map fun c => { c with irreversible := false, paused := false } }
  let fn := match save.cmd with
    | some c => c.fn.val
    | none => 0
  let s := noteRan (s.setCore core.val save) core.val fn
  { s with sage := { s.sage with
    spills := s.sage.spills.filter fun x => x ≠ r
    restarts := (s.sage.restarts.filter fun x => !(decide (x.step = r.step) && decide (x.cmd = r.cmd) && x.core == core)) ++
      [{ r with core := core, pages := [], save := save }] } }

/-- Resumes saved cores in order, each on the core that it is given; an error where a share cannot be read. -/
def resumeAll : List (SpillRec × CoreNo) → State → Except VErr Unit × State
  | [], s => (.ok (), s)
  | (r, core) :: t, s =>
    let fn := match r.save.cmd with
      | some c => c.fn
      | none => 0
    let x := unspillLines (spillAccess s ⟨r.step, r.cmd⟩ fn core.val) (shareLines r.pages) r.save s
    match x.1 with
    | .error e => (.error e, x.2)
    | .ok k => resumeAll t (resumeOn x.2 r core k)

/-- Whether a core may take saved state of a step. -/
def mayTake (s : State) (key c : Nat) : Bool := coreFree s c && !reservedElsewhere s key c

/-- Whether a saved core may go to a core: a failed core's restart state to the spare of its number (R31, R522); spilled state to
the same core, else to one of its die while one is free, else to any (R62). -/
def homeFor (s : State) (cores : List CoreNo) (p : SpillRec × CoreNo) : Bool :=
  let free (c : Nat) : Bool := mayTake s p.1.step c
  mayTake s p.1.step p.2.val &&
    (p.2 == p.1.core || (!p.1.pages.isEmpty && !free p.1.core.val &&
      (decide (dieOfCore s p.2.val = dieOfCore s p.1.core.val) || (List.range s.grade).all fun i =>
        let c := s.grade * dieOfCore s p.1.core.val + i
        !free c || cores.any fun x => decide (x.val = c))))

/-- Whether a slice may start at a moment: the command's last has ended, and the guard has not begun (R38, R61). -/
def sliceMayStart (s : State) (x : Cmd) (ns : Nat) : Bool := x.sliceNs.isNone && notBefore s ns && decide (ns < guardStart s)

/-- A slice of a command on cores: saved state resumes, and cores that wait go on (R62, R64). A failed core's state may still wait
for its spare while the others go on (R522). A share that cannot be read stops the command as one that does not fit
(DESIGN CHOICE, log entry 27). -/
def coreSlice (s : State) (c : CmdRef) (t : Step) (ns : Nat) (cores : List CoreNo) : Out :=
  let saved := s.sage.spills.filter fun r => decide (r.step = c.step) && decide (r.cmd = c.cmd)
  let stay := cores.isEmpty && !(cmdCores s c).isEmpty && saved.all fun r => r.pages.isEmpty
  let back := !saved.isEmpty && decide (cores.length = saved.length) && decide cores.Nodup &&
    ((saved.zip cores).all fun p => homeFor s cores p) && decide ((coresOf s t.key).length + cores.length ≤ t.coresMax)
  if stay || back then
    let r := resumeAll (if back then saved.zip cores else []) (s.at ns)
    match r.1 with
    | .error .busy => cannot
    | .error _ =>
      .next (spillFails { r.2 with sage := { r.2.sage with spills := r.2.sage.spills.filter fun x =>
        !(decide (x.step = c.step) && decide (x.cmd = c.cmd)) } } c)
    | .ok _ =>
      let s := setSlice (pauseCmd r.2 c false) c (some ns)
      .next ((cmdCores s c).foldl (fun s k => noteRan s k t.fn.val) s)
  else cannot

/-- OVERRUN (R71): the step's measured core-time has reached what it declares; it stops, and its status is OVERRUN. -/
def execOverrun (step ns usedUs : Nat) (s : State) : Out :=
  match findStep s step with
  | none => cannot
  | some t =>
    guarded (notBefore s ns && t.phase == .running && decide (t.cls = 0) && decide (t.cost ≤ t.usedUs + usedUs)) <|
      endStep (useTime (s.at ns) step usedUs) step .overrun 0

/-! ## Slow cores (R67) -/

/-- SLOW_CORE_FLAG. -/
def execSlowCoreFlag (core : CoreNo) (s : State) : Out :=
  guarded (inService s core.val && decide (s.obj 0x4030 2 core.val = 64) && decide (s.obj 0x4030 3 core.val = 0))
    (s.setObj 0x4030 3 core.val 1)

/-! ## Hints (R480) -/

/-- The dies of the cores that a step runs on. -/
def stepDies (s : State) (key : Nat) : List Nat := ((coresOf s key).map fun c => dieOfCore s c).eraseDups

/-- Rails that hinted phases hold raised. -/
def raisedRails (s : State) : BitVec 8 :=
  (s.power.hints.filter HintPhase.raised).foldl (fun m h => (stepDies s h.step).foldl (fun m d => m ||| (1#8 <<< d)) m) 0

/-- HINT: the phase is announced and counted; the command completes at once. -/
def execHint (c : CmdRef) (ns : Nat) (s : State) : Out :=
  match startable s c 8 with
  | none => cannot
  | some (t, x) =>
    guarded (notBefore s ns && decide (ns < guardStart s)) <|
      let s := s.at ns
      runAtOnce s c t fun s =>
        let a := ns + 1000 * x.field 0x10 4
        let h : HintPhase := ⟨c.step, c.cmd, x.field 0xC 1, a, a + 1000 * x.field 0xE 2, false⟩
        ({ s with power := { s.power with hints := s.power.hints ++ [h] } }).bump 0x9010 3 0 1

/-- Whether a hinted phase belongs to a command. -/
def HintPhase.of (h : HintPhase) (c : CmdRef) : Bool := decide (h.step = c.step) && decide (h.cmd = c.cmd)

/-- HINT_PHASE_LEAD: the rails of the step's dies are raised. -/
def execHintPhaseLead (c : CmdRef) (s : State) : Out :=
  guarded (s.power.hints.any fun h => h.of c && !h.raised) <|
    let s := { s with power := { s.power with
      hints := s.power.hints.map fun (h : HintPhase) => if h.of c then { h with raised := true } else h } }
    { s with power := { s.power with railsRaised := s.power.railsRaised ||| raisedRails s } }

/-- HINT_PHASE_END: the phase is over; rails that no other phase holds are lowered. -/
def execHintPhaseEnd (c : CmdRef) (s : State) : Out :=
  guarded (s.power.hints.any fun h => h.of c) <|
    let s := { s with power := { s.power with hints := s.power.hints.filter fun h => !h.of c } }
    { s with power := { s.power with railsRaised := raisedRails s } }

end Sys2Proof.Machine
end

