-- ==== Sys2Proof/Machine/Copies.lean ====
section
/-!
DEFINITION. COPY and COLLECTIVE commands (R48, R61, R113, R114, R245, R311, R343, R344, R347 to R349, R376, R378, R379, R571).
A slice of a COPY, and a COLLECTIVE, act on their lines as one step of the model, each line in its home's order (log entry 13).
-/
namespace Sys2Proof.Machine

/-! ## Segments -/

/-- A segment: source, destination, length, hint and local offset (R48). -/
structure Seg where
  src  : Nat
  dst  : Nat
  len  : Nat
  hint : Nat
  lmem : Nat
  deriving DecidableEq, Repr

/-- A segment record. -/
def segOf (r : BitVec 256) : Seg :=
  let v := r.toNat
  ⟨bits v 0 64, bits v 64 64, bits v 128 32, bits v 160 16, bits v 192 32⟩

/-- Whether an access stops a command, and with which record (R571): its cause, address and poisoned table line. -/
abbrev Stop := Nat × Nat × Nat

/-- What an access check answers. -/
inductive Check where
  | ok
  | busy
  | stop (x : Stop)
  deriving DecidableEq, Repr

/-- An engine's accesses for a command (R46, R215, R294). -/
def cmdAccess (src : Nat) (t : Step) (c : Cmd) : Access := ⟨src, t.fn, c.tclass, t.lat, false, t.key⟩

/-- What the array returned for the code page of a line that is not in its home (R304). -/
def fillErr (errs : List (Nat × ArrayErr)) (s : State) (l : Line) : State :=
  if l.host ∨ (homeLine s l).st ≠ 0 then s
  else match errs.find? fun e => e.1 = l.no / 4 with
    | some e => touchPage s e.1 (some e.2)
    | none => s

/-- What an access check of a line answers, with what the array returned for it. -/
def checkLine (s : State) (x : Access) (errs : List (Nat × ArrayErr)) (a : Nat) (write : Bool) : Check × State :=
  let r := vline s x a write
  match r.1 with
  | .ok l => (.ok, fillErr errs r.2 l)
  | .error .busy => (.busy, r.2)
  | .error (.unmapped va d) => (.stop (8, va, d), r.2)
  | .error (.readonly va) => (.stop (9, va, 0), r.2)

/-- Checks the source of a part (R571); a source in a window is not readable (R378). -/
def checkSrc (s : State) (x : Access) (errs : List (Nat × ArrayErr)) : List (Nat × Nat) → Check × State
  | [] => (.ok, s)
  | (a, _) :: t =>
    match windowOf s x.fn.val a with
    | some _ => (.stop (9, a, 0), s)
    | none =>
      let r := checkLine s x errs a false
      match r.1 with
      | .ok => checkSrc r.2 x errs t
      | e => (e, r.2)

/-- Checks the destination of a part (R571); an address in a window is the partner's to check (R380). -/
def checkDst (s : State) (x : Access) (errs : List (Nat × ArrayErr)) (a : Nat) : Check × State :=
  match windowOf s x.fn.val a with
  | some _ => (.ok, s)
  | none => checkLine s x errs a true

/-- A unit of a command (R61): a part of a segment that lies in one line of its destination, by address and bytes. -/
structure Part where
  seg : Seg
  a   : Nat
  n   : Nat
  deriving DecidableEq, Repr

/-- The units of segments, in order. -/
def partsOf (gs : List Seg) : List Part := gs.flatMap fun g => (lineParts g.dst g.len).map fun p => ⟨g, p.1, p.2⟩

/-- The source of a unit. -/
def Part.src (p : Part) : Nat := p.seg.src + (p.a - p.seg.dst)

/-- Checks a unit: its source, then its destination. -/
def checkPart (s : State) (x : Access) (errs : List (Nat × ArrayErr)) (p : Part) : Check × State :=
  let r := checkSrc s x errs (lineParts p.src p.n)
  match r.1 with
  | .ok => checkDst r.2 x errs p.a
  | e => (e, r.2)

/-! ## Moving data -/

/-- The parts of `n` bytes from an address, one for each sector: address and bytes. -/
def sectorParts (a n : Nat) : List (Nat × Nat) := go (n / 128 + 2) a n
where
  go : Nat → Nat → Nat → List (Nat × Nat)
    | 0, _, _ => []
    | f + 1, a, n =>
      if n = 0 then []
      else
        let k := min n (128 - a % 128)
        (a, k) :: go f (a + k) (n - k)

/-- The data and marks of a destination line's part, from a source: each sector takes the marks of the source sectors that
feed it (R311). -/
def gather (x : Access) (delta : Int) : List (Nat × Nat) → State → (LineData × Marks) × State
  | [], s => ((0, 0), s)
  | (a, n) :: ps, s =>
    let r := vread s x ((a : Int) + delta).toNat n
    let rest := gather x delta ps r.2
    match r.1 with
    | .ok (v, b) =>
      ((rest.1.1 ||| lineOf (a % 512) n v, rest.1.2 ||| (if b then 1#4 <<< (a % 512 / 128) else 0)), rest.2)
    | .error _ => rest

/-- The data and marks that a unit moves. -/
def Part.gather (p : Part) (x : Access) (s : State) : (LineData × Marks) × State :=
  Machine.gather x ((p.seg.src : Int) - p.seg.dst) (sectorParts p.a p.n) s

/-- Writes a line's part at its home (R245, R414). -/
def putLine (s : State) (x : Access) (p : Part) (d : LineData) (m : Marks) (hint : Nat) : State :=
  let r := vline s x p.a true
  match r.1 with
  | .error _ => r.2
  | .ok l => writeLine r.2 x p.a l d (maskOf (p.a % 512) p.n) m hint

/-- Sends a line's part to a window's partner (R379); a partner that is unreachable ends the step (R376). -/
def putPeer (s : State) (x : Access) (idx : Nat) (w : Nat) (p : Part) (d : LineData) (m : Marks) : State :=
  let pk := { peerPacket s x.fn w p.a with
    data := d
    mask := maskOf (p.a % 512) p.n
    marks := m }
  let pk := if p.seg.hint = 0 then pk
    else { pk with
      hint := BitVec.ofNat 16 p.seg.hint
      lmemOff := BitVec.ofNat 32 (p.seg.lmem + (p.a / 512 * 512 - p.seg.dst)) }
  match peerSend s (winModule w) pk x.key idx 256 0 (peerLine p.a) with
  | some s => (s.peer.sent.getLast?).elim s fun q => crossToPort s x.src q.port q.pk
  | none => stepFault s x.key 0x25 idx

/-! ## Deposits (R113, R114) -/

/-- Whether a KERNEL command follows in a step. -/
def nextKernel (t : Step) (idx : Nat) : Option Cmd := (t.cmds.drop (idx + 1)).find? fun c => decide (c.typ = 1) && c.phase == .waiting

/-- The cores of a step's deposits. -/
def depositCores (t : Step) : List Nat := (t.deposits.map fun d => d.core.val).eraseDups

/-- Whether a KERNEL command may have one more core for a deposit (R113, R114). -/
def depositRoom (t : Step) (k : Cmd) (core : Nat) : Bool :=
  (depositCores t).contains core || decide ((depositCores t).length < (if k.ncores = 0 then t.coresMax else k.ncores))

/-- A segment with hint 8000h + c reserves its core as its COPY starts: the deposit is kept for the step's next KERNEL, or dropped
where none follows, where the core is out of service, and where it is reserved for another step or the KERNEL has no place for
it (the last two DESIGN CHOICE, log entry 26). The hint of a segment that goes to a window is the partner's (R379). -/
def openDeposit (key idx : Nat) (s : State) (g : Seg) : State :=
  match findStep s key with
  | none => s
  | some t =>
    if g.hint < 0x8000 ∨ g.len = 0 ∨ (windowOf s t.fn.val g.dst).isSome then s
    else
      let core := g.hint - 0x8000
      match nextKernel t idx with
      | none => dropDeposit s core
      | some k =>
        if inService s core && !reservedElsewhere s key core && depositRoom t k core then
          updStep s key fun y => { y with deposits := y.deposits ++ [⟨Fin.ofNat 256 core, g.lmem, g.len, 0, []⟩] }
        else dropDeposit s core

/-- The first entry of a list that fits, from its end, is changed. -/
def updLast {α : Type} (p : α → Bool) (f : α → α) (l : List α) : List α := (updFirst p f l.reverse).reverse

/-- A unit's data join the deposit of its segment. -/
def fillDeposit (s : State) (key : Nat) (p : Part) (d : LineData) (m : Marks) : State :=
  if p.seg.hint < 0x8000 then s
  else
    let at_ := p.a - p.seg.dst
    let bad := (sectorParts p.a p.n).filterMap fun q =>
      if m.getLsbD (q.1 % 512 / 128) then some (p.seg.lmem + (q.1 - p.seg.dst), q.2) else none
    let mine (e : Deposit) : Bool :=
      decide (e.core.val = p.seg.hint - 0x8000) && decide (e.off = p.seg.lmem) && decide (e.len = p.seg.len)
    let fill (e : Deposit) : Deposit :=
      { e with data := e.data + (lineBytes d (p.a % 512) p.n <<< (8 * at_)), bad := e.bad ++ bad }
    updStep s key fun y => { y with deposits := updLast mine fill y.deposits }

/-! ## COPY and broadcast -/

/-- Moves a unit that may be moved. -/
def movePart (s : State) (x : Access) (idx : Nat) (p : Part) : State :=
  let r := p.gather x s
  match windowOf s x.fn.val p.a with
  | some w => putPeer r.2 x idx w p r.1.1 r.1.2
  | none => putLine (fillDeposit r.2 x.key p r.1.1 r.1.2) x p r.1.1 r.1.2 (if p.seg.hint < 0x8000 then p.seg.hint else 0)

/-- Where a run of units ended: all are done; one waits for a busy line; one may not be done, with how many were done before. -/
inductive Ran where
  | all
  | busy
  | stopped (f : Stop) (n : Nat)
  deriving DecidableEq, Repr

/-- Does units in order, each once it may be done. -/
def runParts (x : Access) (errs : List (Nat × ArrayErr)) (act : State → Part → State) : List Part → Nat → State → Ran × State
  | [], _, s => (.all, s)
  | p :: ps, n, s =>
    let r := checkPart s x errs p
    match r.1 with
    | .ok => runParts x errs act ps (n + 1) (act r.2 p)
    | .busy => (.busy, r.2)
    | .stop f => (.stopped f n, r.2)

/-- The units that were under way where a command was stopped: each that may be done is done or not (R571). -/
def looseParts (x : Access) (errs : List (Nat × ArrayErr)) (act : State → Part → State) : List Part → State → State
  | [], s => s
  | p :: ps, s =>
    let go := Config.lineWritten s.free p.a && (checkPart s x errs p).1 == .ok
    let s := { s with free := s.free + 1 }
    looseParts x errs act ps (if go then act s p else s)

/-- Whether a packet of a command waits for its partner's answer. -/
def peerPending (s : State) (r : CmdRef) : Bool :=
  s.peer.sent.any fun q => decide (q.core = 256) && decide (q.step = r.step) && decide (q.idx = r.cmd)

/-- A command that has done all its units: it is done when every write is acknowledged. -/
def endUnits (s : State) (r : CmdRef) : State :=
  let s := setSlice s r none
  if peerPending s r then s else setPhase s r.step r.cmd .done

/-- A stopped command (R571). -/
def stopUnits (s : State) (r : CmdRef) (f : Stop) : State :=
  setPhase (stepFaultAt (setSlice s r none) r.step f.1 r.cmd f.2.1 f.2.2) r.step r.cmd .cancelled

/-- Counts the units that a slice has done, and when it ended. -/
def countUnits (s : State) (r : CmdRef) (n endNs : Nat) : State :=
  updStep s r.step fun t => { t with cmds := t.cmds.zipIdx.map fun q =>
    if q.2 = r.cmd then { q.1 with units := q.1.units + n, sliceNs := some endNs } else q.1 }

/-- Whether a slice of an engine may be so: it ends in 50 µs and before the guard, and does at least one of the units that are
left (R38, R61). -/
def workOk (s : State) (startNs left : Nat) (w : SliceWork) : Bool :=
  decide (startNs ≤ w.endNs) && decide (w.endNs ≤ startNs + 50000) && decide (w.endNs ≤ guardStart s) && decide (w.units ≤ left) &&
    (decide (0 < w.units) || decide (left = 0))

/-- The agent of the copy engine that serves a command. -/
def copyEngine (s : State) (r : CmdRef) : Nat := agentCopy ((placeOf s r).elim 0 fun p => p.die.val)

/-- A slice of a COPY: units of it in order; the command completes when all are done and every write is acknowledged, and stops
where an access may not be made (R61, R571). -/
def copySlice (s : State) (r : CmdRef) (t : Step) (c : Cmd) (startNs : Nat) (w : SliceWork) : Out :=
  let x := cmdAccess (copyEngine s r) t c
  let left := (partsOf (c.payload.map segOf)).drop c.units
  if workOk s startNs left.length w then
    let y := runParts x w.errs (fun s p => movePart s x r.cmd p) (left.take w.units) 0 s
    match y.1 with
    | .busy => cannot
    | .stopped f n => .next (stopUnits (looseParts x w.errs (fun s p => movePart s x r.cmd p) (left.drop n) y.2) r f)
    | .all =>
      let s := countUnits y.2 r w.units w.endNs
      .next (if w.units = left.length then endUnits s r else s)
  else cannot

/-- COPY (R48): it starts with its first slice. -/
def execCopy (c : CmdRef) (work : SliceWork) (s : State) : Out :=
  match startable s c 2 with
  | none => cannot
  | some (t, x) => copySlice ((x.payload.map segOf).foldl (openDeposit t.key c.cmd) (beginCmd s c t)) c t x s.now work

/-- The core that sends the `i`-th buffer of a COLLECTIVE: its cores in turn. -/
def senderOf (cores : List CoreNo) (i : Nat) : Nat := ((cores[i % max 1 cores.length]?).getD 0).val

/-- COLLECTIVE broadcast (R347): CONTRIB copies of SRC, made from the first of its cores. -/
def execCollectiveBroadcast (c : CmdRef) (s : State) : Out :=
  match startable s c 3 with
  | none => cannot
  | some (t, x) =>
    let cores := (placeOf s c).elim [] Placement.cores
    let len := bits x.block 0 64
    let gs := (List.range (bits x.block 64 16)).map fun i => (⟨x.field 0x10 8, x.field 0x18 8 + i * len, len, 0, 0⟩ : Seg)
    let y := cmdAccess (siteOfCore s (senderOf cores 0)) t x
    if decide (x.field 0xC 1 = 2) && givenOk s t c.cmd x cores then
      let s := cores.foldl (fun s k => noteRan s k.val t.fn.val) (beginCmd s c t)
      let r := runParts y [] (fun s p => movePart s y c.cmd p) (partsOf gs) 0 s
      match r.1 with
      | .busy => cannot
      | .stopped f n => .next (stopUnits (looseParts y [] (fun s p => movePart s y c.cmd p) ((partsOf gs).drop n) r.2) c f)
      | .all => .next (endUnits r.2 c)
    else cannot

/-! ## Reduce (R343, R344, R347 to R349) -/

/-- The line that a reduction packet for an address names: a line of memory, or the key of one behind a window. -/
def redLine (s : State) (x : Access) (a : Nat) : Option Line × State :=
  match windowOf s x.fn.val a with
  | some _ => (some (peerLine a), s)
  | none =>
    let r := vline s x a true
    match r.1 with
    | .ok l => (some l, r.2)
    | .error _ => (none, r.2)

/-- Sends the packet of a unit of a contribution buffer from a core's site. -/
def sendPart (x : Access) (idx : Nat) (c : Cmd) (s : State) (p : Part) : State :=
  let r := p.gather x s
  let l := redLine r.2 x p.a
  match l.1 with
  | none => l.2
  | some l' =>
    sendRed (dirtyMark l.2 x.fn p.a l'.host)
      { src := x.src
        fn := x.fn
        tag := BitVec.ofNat 16 (c.field 0xE 2)
        format := Fin.ofNat 3 (c.field 0xD 1)
        cnt := 1
        line := l'
        data := r.1.1
        mask := maskOf (p.a % 512) p.n
        marks := r.1.2
        seq := 0 } [] x.key idx

/-- FAN_IN of each unit on the routes (R344): the contributions that start at it, and one packet from each unit that passes
its packets on to it. -/
def fanIns (paths : List (List Nat)) : List (Nat × Nat) :=
  let edges := (paths.flatMap fun p => p.zip p.tail).eraseDups
  (paths.flatten.eraseDups).map fun u =>
    (u, (paths.filter fun p => p.head? == some u).length + (edges.filter fun e => decide (e.2 = u)).length)

/-- The die and slot of a target line of a reduce: of its home, or of the port of its window. -/
def redTarget (s : State) (x : Access) (dst : Nat) : Nat × Nat :=
  match windowOf s x.fn.val dst with
  | some w =>
    let slot := routeSlot (winRemote w + (dst - winBase w))
    (((dealPort s (winModule w) slot).getD 0) / 2, slot)
  | none =>
    match (redLine s x dst).1 with
    | some l => (homeSlice l, slotOf l)
    | none => (0, 0)

/-- Loads the tag entries of a reduce in the units of the routes of its lines (R344): an entry holds one FAN_IN, the most that the
routes of a line bring to the unit (DEDUCED, log entry 22). A unit with 64 other entries takes none, and an entry of the same key takes the
new FAN_IN. -/
def loadTags (s : State) (t : Step) (c : Cmd) (sites : List Nat) (targets : List (Nat × Nat)) : State :=
  let tag : BitVec 16 := BitVec.ofNat 16 (c.field 0xE 2)
  let all := targets.eraseDups.flatMap fun d => fanIns (sites.map fun psn => unitPath s psn d.1 d.2)
  let most := all.foldl (fun m e => sset (fun _ => 0) m e.1 (max (sget (fun _ => 0) m e.1) e.2)) []
  most.foldl (fun s e =>
    let rest := s.net.chiveTags.filter fun (x : ChiveTag) => !(decide (x.unit = e.1) && x.fn == t.fn && x.tag == tag)
    if (rest.filter fun (x : ChiveTag) => decide (x.unit = e.1)).length < 64 then
      { s with net := { s.net with chiveTags := rest ++ [⟨e.1, t.fn, tag, min e.2 65535⟩] } }
    else s) s

/-- The reduce takes the TAG_DONE messages that its ports keep for it (R349). -/
def takeKept (s : State) (step idx : Nat) : State :=
  (List.range 8).foldl (fun s p =>
    match findRed s step idx with
    | none => s
    | some r =>
      if r.waiting.getLsbD p then
        match takeFirst (fun x : Nat × Fn × BitVec 16 => decide (x.1 = p) && x.2.1 == r.fn && x.2.2 == r.tag) s.peer.tags with
        | none => s
        | some (_, rest) => consumeTag { s with peer := { s.peer with tags := rest } } p r
      else s) s

/-- The units of a reduce, each with its access: buffer i from the i-th core in turn. -/
def redParts (s : State) (t : Step) (c : Cmd) (cores : List CoreNo) : List (Access × Part) :=
  let len := bits c.block 0 64
  (List.range (bits c.block 64 16)).flatMap fun i =>
    (partsOf [⟨c.field 0x10 8 + i * len, c.field 0x18 8, len, 0, 0⟩]).map fun p =>
      (cmdAccess (siteOfCore s (senderOf cores i)) t c, p)

/-- Checks and sends the units of a reduce in order. -/
def runRed (idx : Nat) (c : Cmd) : List (Access × Part) → Nat → State → Ran × State
  | [], _, s => (.all, s)
  | (x, p) :: ps, n, s =>
    let r := checkPart s x [] p
    match r.1 with
    | .ok => runRed idx c ps (n + 1) (sendPart x idx c r.2 p)
    | .busy => (.busy, r.2)
    | .stop f => (.stopped f n, r.2)

/-- The command of a reduce, as it waits for its packets and its TAG_DONE messages. -/
def redCmdOf (s : State) (r : CmdRef) (t : Step) (c : Cmd) : RedCmd :=
  { step := r.step
    idx := r.cmd
    fn := t.fn
    tag := BitVec.ofNat 16 (c.field 0xE 2)
    waiting := BitVec.ofNat 8 (bits c.block 80 8)
    start := s.tick
    window := windowOf s t.fn.val (c.field 0x18 8)
    dst := c.field 0x18 8
    told := false }

/-- COLLECTIVE reduce: its buffers are sent by its cores in turn; the command completes when every packet is
acknowledged and its TAG_DONE messages have come (R347, R349). -/
def execCollectiveReduce (c : CmdRef) (cores : List CoreNo) (s : State) : Out :=
  match startable s c 3 with
  | none => cannot
  | some (t, x) =>
    if decide (x.field 0xC 1 = 1) && givenOk s t c.cmd x cores then
      let parts := redParts s t x cores
      let dsts := (lineParts (x.field 0x18 8) (bits x.block 0 64)).map Prod.fst
      let s := cores.foldl (fun s k => noteRan s k.val t.fn.val) (beginCmd s c t)
      let s := setSlice s c none
      let sites := (List.range (bits x.block 64 16)).map fun i => siteOfCore s (senderOf cores i)
      let s := loadTags s t x sites (dsts.map fun a => redTarget s (cmdAccess (siteOfCore s (senderOf cores 0)) t x) a)
      let r := runRed c.cmd x parts 0 s
      match r.1 with
      | .busy => cannot
      | .stopped f n =>
        .next (stopUnits ((parts.drop n).foldl (fun s q => looseParts q.1 [] (sendPart q.1 c.cmd x) [q.2] s) (pruneTags r.2)) c f)
      | .all =>
        let s := { r.2 with net := { r.2.net with reds := r.2.net.reds ++ [redCmdOf r.2 c t x] } }
        .next (settleReduce (takeKept s c.step c.cmd) c.step c.cmd)
    else cannot

end Sys2Proof.Machine
end

