-- ==== Sys2Proof/Machine/CacheOps.lean ====
section
/-!
DEFINITION. CACHE_OP commands, pins and discard (R231 to R243, R414), and scrub passes (R318 to R321).
-/
namespace Sys2Proof.Machine

/-! ## Pins (R234 to R239, R249) -/

/-- Adds the references of a line to its functions' counts, or takes them away (R249). -/
def pinCounts (s : State) (h : HomeLine) (add : Bool) : State :=
  h.pins.foldl (fun s p =>
    let n := s.obj 0x7040 1 p.1
    let s := s.setObj 0x7040 1 p.1 (if add then satAdd 32 n p.2 else n - p.2)
    let m := s.obj 0x7040 2 p.1
    if h.soft then s.setObj 0x7040 2 p.1 (if add then satAdd 32 m 1 else m - 1) else s) s

/-- Changes the pins of a home line. -/
def setPins (s : State) (l : Line) (h : HomeLine) : State :=
  setHome (pinCounts (pinCounts s (homeLine s l) false) h true) l h

/-- The pin count of a line. -/
def HomeLine.pinCount (h : HomeLine) : Nat := (h.pins.map Prod.snd).sum

/-- Whether a line is hard-pinned. -/
def HomeLine.hard (h : HomeLine) : Bool := !h.pins.isEmpty && !h.soft

/-- Adds one reference of a function, or takes one away. -/
def addRef (fn : Fn) : List (Fn × Nat) → List (Fn × Nat)
  | [] => [(fn, 1)]
  | p :: t => if p.1 = fn then (fn, p.2 + 1) :: t else p :: addRef fn t

/-- Takes one reference of a function away. -/
def dropRef (fn : Fn) (l : List (Fn × Nat)) : List (Fn × Nat) :=
  (l.map fun p => if p.1 = fn then (p.1, p.2 - 1) else p).filter fun p => p.2 ≠ 0

/-- The effective ceiling E (R235). -/
def pinCeiling (s : State) : Nat := min (s.obj 0x2030 2 0) (12 - nearWays s)

/-- The hard-pinned lines of a set. -/
def hardLines (s : State) (l : Line) : List (Nat × HomeLine) := (homeSet s l).filter fun p => p.2.hard

/-- The soft-pinned lines of a set. -/
def softLines (s : State) (l : Line) : List (Nat × HomeLine) :=
  (homeSet s l).filter fun p => !p.2.pins.isEmpty && p.2.soft

/-- The entry of most use of a list. -/
def mostRecent (l : List (Nat × HomeLine)) : Option (Nat × HomeLine) :=
  match (l.map fun p => p.2.pinAt).max? with
  | none => none
  | some m => l.find? fun p => decide (p.2.pinAt = m)

/-- Brings a set to its ceiling: the most recently pinned hard lines above it become soft, the oldest soft lines below it
become hard (R236). -/
def balanceSet (l : Line) : Nat → State → State
  | 0, s => s
  | n + 1, s =>
    let e := pinCeiling s
    let hard := hardLines s l
    if e < hard.length then
      match mostRecent hard with
      | none => s
      | some p => balanceSet l n (setPins s (keyLine p.1) { p.2 with soft := true })
    else if hard.length < e then
      match leastUsed HomeLine.pinAt (softLines s l) with
      | none => s
      | some p => balanceSet l n (setPins s (keyLine p.1) { p.2 with soft := false })
    else s

/-- Brings every set with pinned lines to its ceiling. -/
def balanceAll (s : State) : State :=
  (s.coh.home.filter fun p => !p.2.pins.isEmpty).foldl (fun s p => balanceSet (keyLine p.1) 32 s) s

/-- Pins a line: it is made resident, by a fill that is not latency-critical, and takes a reference; a pin of a resident line is no
use of it (R225, R231, R234, R235, R294). -/
def pinLine (fn : Fn) (s : State) (l : Line) : State :=
  let s := if (homeLine s l).st = 0 then fillHome s l false else s
  let h := homeLine s l
  if 15 ≤ h.pinCount then s.bump 0x7040 5 fn.val 1
  else
    let full := decide (pinCeiling s ≤ (hardLines s l).length)
    let soft := !h.hard && full
    let s := if soft then s.bump 0x7040 3 fn.val 1 else s
    (setPins s l { h with
      pins := addRef fn h.pins
      soft := soft
      pinAt := if h.pins.isEmpty then s.stamp else h.pinAt }).tickStamp

/-- Unpins a line (R231, R236). -/
def unpinLine (fn : Fn) (s : State) (l : Line) : State :=
  let h := homeLine s l
  let pins := dropRef fn h.pins
  let s := setPins s l { h with
    pins := pins
    soft := h.soft && !pins.isEmpty }
  balanceSet l 32 s

/-- Removes every reference of a function (R239). -/
def dropPins (s : State) (fn : Fn) : State :=
  let mine := s.coh.home.filter fun p => p.2.pins.any fun q => q.1 == fn
  let s := mine.foldl (fun s p =>
    let pins := p.2.pins.filter fun q => q.1 ≠ fn
    setPins s (keyLine p.1) { p.2 with
      pins := pins
      soft := p.2.soft && !pins.isEmpty }) s
  mine.foldl (fun s p => balanceSet (keyLine p.1) 32 s) s

/-! ## The other operations (R231, R240) -/

/-- Prefetches a line into its home, and beneath a compute die where TARGET names one of another slice; the copy crosses the ring
(R18, R231, R294). -/
def prefetchLine (fn : Fn) (cls : BitVec 3) (target : Nat) (s : State) (l : Line) : State :=
  let s := if (homeLine s l).st = 0 then fillHome s l false else touchHome s l
  let b := target / 2
  if target < 8 ∧ b ≠ homeSlice l ∧ nearWays s ≠ 0 ∧ (nearLine s b l).st = 0 then
    let s := prepRead s l false
    let h := homeLine s l
    let s := crossAccess s (agentNear b) .rd .data
      (bareMsg (agentNear b) (agentHome (homeSlice l)) (agentNear b) l fn cls false false 0) h.data h.marks
    let s := setHome s l { h with presence := setBit h.presence b true }
    insertNear s b l { NearLine.none with st := 1, data := h.data, marks := h.marks, disc := h.discarded && !l.host }
  else s

/-- Writes every dirty copy of a line to memory; the line stays, clean. -/
def writeBackLine (s : State) (l : Line) : State :=
  let h := homeLine s l
  if l.host then s
  else if h.st = 3 then
    let o := ownerOf h
    let now := ownerLine s l
    let n := nearLine s o l
    let s := if n.st = 2 then setNear s o l { n with st := 1 } else s
    setHome (homeWrite (s.bump 0x3072 4 (homeSlice l) 1) l.no now.1 now.2) l { h with st := 1, data := now.1, marks := now.2 }
  else if h.st = 2 then setHome (homeWrite s l.no h.data h.marks) l { h with st := 1 }
  else s

/-- Discards a line (R240): copies elsewhere go with their data, the home copy is clean and marked, a line that is not
resident is marked in memory. A line of host memory takes no mark. -/
def discardLine (s : State) (l : Line) : State :=
  let h := homeLine s l
  if h.st = 0 then (if l.host then s else queueMark s l.no)
  else
    let s := dropPlaces s l h.presence
    if l.host then
      if h.pins.isEmpty then setHome s l HomeLine.none else setHome s l { h with presence := 0 }
    else setHome s l { h with
      st := 1
      presence := 0
      discarded := true }

/-! ## CACHE_OP commands (R61, R231 to R233) -/

/-- The code pages of a range. -/
def pagesOf (base len : Nat) : Nat := if len = 0 then 0 else (base + len - 1) / 2048 - base / 2048 + 1

/-- The lines of the `i`-th code page of a range: their addresses. -/
def pageLines (base len i : Nat) : List Nat :=
  let lo := max base (base / 2048 * 2048 + 2048 * i)
  let hi := min (base + len) (base / 2048 * 2048 + 2048 * (i + 1))
  (List.range ((hi - lo) / 512)).map fun k => lo + 512 * k

/-- Applies an operation to lines in order, to the first page that it may not touch; `skip` passes over such pages (R232). -/
def eachLine (x : Access) (errs : List (Nat × ArrayErr)) (write skip : Bool) (f : State → Nat → Line → State) :
    List Nat → State → Ran × State
  | [], s => (.all, s)
  | va :: vas, s =>
    let r := vline s x va write
    match r.1 with
    | .error .busy => (.busy, r.2)
    | .error _ => if skip then eachLine x errs write skip f vas r.2 else (.stopped (0, va, 0) 0, r.2)
    | .ok l => eachLine x errs write skip f vas (f (fillErr errs r.2 l) va l)

/-- What an operation does to a line: 1 pin, 2 unpin, 3 prefetch, 4 write back, 5 discard, which is a write through the context
(R231, R414). -/
def cacheAct (t : Step) (c : Cmd) (s : State) (va : Nat) (l : Line) : State :=
  match c.field 0xC 1 with
  | 1 => pinLine t.fn s l
  | 2 => unpinLine t.fn s l
  | 3 => prefetchLine t.fn c.tclass (c.field 0xE 2) s l
  | 4 => writeBackLine s l
  | _ => dirtyMark (discardLine s l) t.fn va l.host

/-- Whether memory has not done a write that a home sent before a moment of the order stamp. -/
def writesWait (s : State) (stamp : Nat) : Bool :=
  s.mem.ctrl.any fun p => (p.2.wr ++ p.2.active).any fun o => o.kind == .write && decide (o.at_ < stamp)

/-- A CACHE_OP that has done all its code pages is done; a write back once memory has done every write (R231): a slice without
units ends it then. -/
def endCacheOp (s : State) (r : CmdRef) (c : Cmd) : State :=
  let since := match c.tally with
    | n :: _ => n
    | [] => s.stamp
  if c.field 0xC 1 = 4 ∧ writesWait s since then
    updStep s r.step fun t => { t with cmds := t.cmds.zipIdx.map fun q =>
      if q.2 = r.cmd then { q.1 with tally := [since] } else q.1 }
  else setPhase (setSlice s r none) r.step r.cmd .done

/-- A slice of a CACHE_OP: code pages of its range in order. -/
def cacheSlice (s : State) (r : CmdRef) (t : Step) (c : Cmd) (startNs : Nat) (w : SliceWork) : Out :=
  let base := c.field 0x10 8
  let len := c.field 0x18 8
  let op := c.field 0xC 1
  let left := pagesOf base len - c.units
  let x : Access := { cmdAccess (agentHome ((placeOf s r).elim 0 fun p => p.die.val)) t c with lat := false }
  let vas := (List.range w.units).flatMap fun i => pageLines base len (c.units + i)
  if workOk s startNs left w then
    let y := eachLine x w.errs (decide (op = 5)) (decide (op = 3)) (cacheAct t c) vas s
    match y.1 with
    | .busy => cannot
    | .stopped _ _ => .next (setPhase (stepFault (setSlice y.2 r none) r.step 0x23 r.cmd) r.step r.cmd .cancelled)
    | .all =>
      let s := countUnits y.2 r w.units w.endNs
      .next (if w.units = left then endCacheOp s r c else s)
  else cannot

/-- A CACHE_OP starts with its first slice, once every earlier command has ended (R233). -/
def cacheOp (s : State) (r : CmdRef) (op : Nat) (w : SliceWork) : Out :=
  match startable s r 6 with
  | none => cannot
  | some (t, c) =>
    if earlierDone t r.cmd && decide (c.field 0xC 1 = op) then cacheSlice (beginCmd s r t) r t c s.now w else cannot

/-- PIN. -/
def execPin (c : CmdRef) (work : SliceWork) (s : State) : Out := cacheOp s c 1 work

/-- UNPIN. -/
def execUnpin (c : CmdRef) (work : SliceWork) (s : State) : Out := cacheOp s c 2 work

/-- PREFETCH: it skips pages that it may not read (R232). -/
def execPrefetch (c : CmdRef) (work : SliceWork) (s : State) : Out := cacheOp s c 3 work

/-- WRITE_BACK. -/
def execWriteBack (c : CmdRef) (work : SliceWork) (s : State) : Out := cacheOp s c 4 work

/-- DISCARD. -/
def execDiscard (c : CmdRef) (work : SliceWork) (s : State) : Out := cacheOp s c 5 work

/-! ## Scrub passes (R318 to R321) -/

/-- The counts of a pass, with its uncorrectable code pages. -/
structure Tally where
  scanned  : Nat
  fixed    : Nat
  lost     : Nat
  repaired : Nat
  poison   : Nat
  skipped  : Nat
  first    : List Nat
  deriving DecidableEq, Repr

/-- A pass that has counted nothing. -/
def Tally.zero : Tally := ⟨0, 0, 0, 0, 0, 0, []⟩

/-- The other copy of a line in a replica entry that is ACTIVE (R319). -/
def otherCopy (s : State) (no : Nat) : Option Nat :=
  (List.range 64).findSome? fun i =>
    let p := repPrimary s i / 512
    let m := repMirror s i / 512
    let n := repPages s i * 128
    if s.obj 0x2051 2 i ≠ 2 then none
    else if p ≤ no ∧ no < p + n then some (m + (no - p))
    else if m ≤ no ∧ no < m + n then some (p + (no - m))
    else none

/-- Rewrites a line from its other copy (R316, R319). -/
def repairLine (s : State) (no : Nat) : State :=
  match otherCopy s no with
  | none => s
  | some o => memRecord ((ctrlWrite s no (ctrlRead s o).1 0).bump 0x3080 3 0 1) 0x5E no 0

/-- Whether a line can be rewritten from its other copy. -/
def repairable (s : State) (no : Nat) : Bool :=
  match otherCopy s no with
  | none => false
  | some o => (ctrlRead s o).2 == 0

/-- Chervil checks a code page, in the MT queue of its controller (R319, R321); `flips` is what the array returned inverted. A code
page whose decode fails counts as uncorrectable whether or not its lines are marked (R304). -/
def scrubPage (s : State) (tl : Tally) (page flips : Nat) : State × Tally :=
  let no := 4 * page
  let s := passGrant s (chanOf s no) 3
  let tl := { tl with scanned := tl.scanned + 1 }
  let clean : State × Tally :=
    (s, if (List.range 4).any fun i => (ctrlRead s (no + i)).2 != 0 then { tl with poison := tl.poison + 1 } else tl)
  if pageLost s no then clean
  else
    match decodeFlips (correctable s (tierOf no)) flips with
    | some (0, _) => clean
    | some (n, left) => (countCe (applyFlips s page left) no n, { tl with fixed := tl.fixed + 1 })
    | none =>
      let bad := (failedCrcs flips).map fun i => no + i
      let mine := bad.filter (repairable s)
      let s := mine.foldl repairLine (uncorrectable s page flips (repairable s))
      let tl := if mine.isEmpty then tl else { tl with repaired := tl.repaired + 1 }
      (s, if bad.length = mine.length then tl else { tl with
        lost := tl.lost + 1
        first := if tl.first.length < 16 then tl.first ++ [2048 * page] else tl.first })

/-- The code page that an address of a pass names: of a function's mapped device page, or of a physical address. -/
def scrubTarget (s : State) (x : Option Access) (a : Nat) : Option Nat × State :=
  match x with
  | none => (if a / 512 < deviceLines then some (a / 2048) else none, s)
  | some x =>
    match windowOf s x.fn.val a with
    | some _ => (none, s)
    | none =>
      let r := translate s x.src x.lat x.fn a
      match r.1 with
      | .error _ => (none, r.2)
      | .ok p => (if p.host then none else some ((p.line a).no / 4), r.2)

/-- Checks `n` code pages from code-page address `a`; the others are skipped. -/
def scrubPages (x : Option Access) (errs : List (Nat × ArrayErr)) : Nat → Nat → State → Tally → State × Tally
  | 0, _, s, tl => (s, tl)
  | n + 1, a, s, tl =>
    let r := scrubTarget s x a
    match r.1 with
    | none => scrubPages x errs n (a + 2048) r.2 { tl with skipped := tl.skipped + 1 }
    | some page =>
      let y := scrubPage r.2 tl page (errFlips ((errs.find? fun e => e.1 = page).map Prod.snd))
      scrubPages x errs n (a + 2048) y.1 y.2

/-- The summary record (R320). -/
def scrubRecord (base len startNs endNs status : Nat) (tl : Tally) : Nat :=
  base + 2 ^ 64 * len + 2 ^ 128 * startNs + 2 ^ 192 * endNs + 2 ^ 256 * tl.scanned + 2 ^ 320 * tl.fixed + 2 ^ 384 * tl.lost +
    2 ^ 448 * tl.repaired + 2 ^ 512 * tl.poison + 2 ^ 576 * tl.skipped + 2 ^ 640 * status + 2 ^ 672 * tl.first.length +
    (tl.first.zipIdx.map fun p => 2 ^ (704 + 64 * p.2) * p.1).sum

/-- A pass's counts between its slices, as its command keeps them. -/
def Tally.keep (tl : Tally) : List Nat := [tl.scanned, tl.fixed, tl.lost, tl.repaired, tl.poison, tl.skipped] ++ tl.first

/-- The counts that a command keeps. -/
def Cmd.counts (c : Cmd) : Tally :=
  let n (i : Nat) : Nat := c.tally.getD i 0
  ⟨n 0, n 1, n 2, n 3, n 4, n 5, c.tally.drop 6⟩

/-- Writes a pass's record at RESULT and ends its command. A RESULT that may not be written ends the step (DEDUCED, log entry
28). -/
def endScrub (s : State) (r : CmdRef) (t : Step) (c : Cmd) (x : Access) (startNs endNs : Nat) (stopped : Bool) (tl : Tally) : Out :=
  let w := vwrite s x (bits c.block 0 64) 256 (scrubRecord (c.field 0x10 8) (c.field 0x18 8) startNs endNs (b2n stopped) tl)
  match w.1 with
  | .error .busy => cannot
  | .error (.unmapped va d) => .next (setPhase (stepFaultAt (setSlice w.2 r none) t.key 8 r.cmd va d) r.step r.cmd .cancelled)
  | .error (.readonly va) => .next (setPhase (stepFaultAt (setSlice w.2 r none) t.key 9 r.cmd va 0) r.step r.cmd .cancelled)
  | .ok _ => .next (setPhase (setSlice w.2 r none) r.step r.cmd (if stopped then .cancelled else .done))

/-- A slice of a SCRUB: code pages of its range in order, from the Chervil of a base die; the last one writes the record (R61,
R318, R321). -/
def scrubSlice (s : State) (r : CmdRef) (t : Step) (c : Cmd) (passNs startNs : Nat) (w : SliceWork) : Out :=
  let base := c.field 0x10 8
  let left := pagesOf base (c.field 0x18 8) - c.units
  let x := { cmdAccess (agentChervil ((placeOf s r).elim 0 fun p => p.die.val)) t c with lat := false }
  let by_ := if bit (c.field 0xC 2) 0 then none else some x
  if workOk s startNs left w then
    let p := scrubPages by_ w.errs w.units (base / 2048 * 2048 + 2048 * c.units) s c.counts
    let s := updStep (countUnits p.1 r w.units w.endNs) r.step fun t => { t with cmds := t.cmds.zipIdx.map fun q =>
      if q.2 = r.cmd then { q.1 with tally := p.2.keep } else q.1 }
    if w.units = left then endScrub s r t c x passNs w.endNs false p.2 else .next s
  else cannot

/-- The SCRUB command that a row names once its step has cancelled it in mid-pass. -/
def cancelledScrub (s : State) (r : CmdRef) : Option (Step × Cmd) :=
  match findStep s r.step with
  | none => none
  | some t =>
    match t.command r.cmd with
    | none => none
    | some c => if c.phase == .cancelled && decide (c.typ = 7) && c.sliceNs.isSome then some (t, c) else none

/-- SCRUB (R318, R321): the pass starts with its first slice. A cancelled pass writes the counts it reached, with STATUS 1. -/
def execScrub (c : CmdRef) (startNs : Nat) (cancelled : Bool) (work : SliceWork) (s : State) : Out :=
  if cancelled then
    match cancelledScrub s c with
    | none => cannot
    | some (t, x) =>
      if decide (startNs = x.startNs) && decide (work.units = 0) && decide (startNs ≤ work.endNs) then
        endScrub s c t x { cmdAccess (agentChervil 0) t x with lat := false } startNs work.endNs true x.counts
      else cannot
  else
    match startable s c 7 with
    | none => cannot
    | some (t, x) =>
      if notBefore s startNs && decide (startNs < guardStart s) then
        scrubSlice (beginCmd (s.at startNs) c t) c t x startNs startNs work
      else cannot

/-! ## Later slices (R61, R64) -/

/-- A later slice of an engine's command. -/
def engineSlice (s : State) (r : CmdRef) (t : Step) (c : Cmd) (ns : Nat) (w : SliceWork) : Out :=
  if c.phase == .running && (c.sliceNs.any fun e => decide (e ≤ ns)) && notBefore s ns && decide (ns < guardStart s) &&
      (placeOf s r).isSome then
    match c.typ with
    | 2 => copySlice (s.at ns) r t c ns w
    | 6 => cacheSlice (s.at ns) r t c ns w
    | 7 => scrubSlice (s.at ns) r t c c.startNs ns w
    | _ => cannot
  else cannot

/-- SLICE_START: a command goes on, on cores or on its engine (R61, R62, R64). -/
def execSliceStart (c : CmdRef) (ns : Nat) (cores : List CoreNo) (work : SliceWork) (s : State) : Out :=
  match findStep s c.step with
  | none => cannot
  | some t =>
    match t.command c.cmd with
    | none => cannot
    | some x =>
      if inPlan s t then
        if x.typ = 1 then (if sliceMayStart s x ns then coreSlice s c t ns cores else cannot) else engineSlice s c t x ns work
      else cannot

end Sys2Proof.Machine
end

