-- ==== Sys2Proof/Machine/LinkRows.lean ====
section
/-!
DEFINITION. The rows of the link layer, of lane sparing, of bundle retirement, of lost links and of elevators (R34, R351 to
R357, R359, R361, R369).
-/
namespace Sys2Proof.Machine

/-! ## The link layer (R351, R352, R369) -/

/-- Counts flits that a direction resends, and those since the last sample of LINK_ERRORS (R451). -/
def countResends (s : State) (k n : Nat) : State :=
  let m := s.mgmt.lastSample
  let s := { s with mgmt := { s.mgmt with lastSample := sset (fun _ => 0) m (256 + k) (sget (fun _ => 0) m (256 + k) + n) } }
  if k < 96 then s.bump 0x3090 1 k n else s.bump 0x30A0 3 (k - 96) n

/-- The retry buffer after an ACK of a SEQ: everything up to it is accepted. -/
def dropAcked (seq : Nat) : List (Nat × Flit) → Option (List (Nat × Flit))
  | [] => none
  | p :: t => if flitSeq p.2 = seq then some t else dropAcked seq t

/-- An ACK reaches the sender of a direction; where it advances, waiting packets may go. -/
def takeAck (s : State) (k seq : Nat) : State :=
  let d := linkOf s k
  match dropAcked seq d.unacked with
  | none => s
  | some rest => drainLink k d.wait.length (setLink s k { d with unacked := rest, resends := 0 })

/-- Whether a direction delays packets of class-0 steps: flits or packets of VC0 wait there. -/
def delaysClass0 (d : LinkDir) : Bool := (d.unacked.any fun p => decide (p.2.vc = 0)) || d.wait.any fun p => decide (p.vc = 0)

/-- A link delays the class-0 packets that wait at a direction: a single fault of the class-0 steps that run (R70, R339; a
packet names no step, so that every one counts: DESIGN CHOICE, log entry 25). -/
def linkFault (s : State) (k : Nat) : State := if delaysClass0 (linkOf s k) then markFault s fun _ => true else s

/-- The sender resends every unacknowledged flit in SEQ order; the second resend of a flit is a single fault (R339). -/
def resendAll (s : State) (k : Nat) : State :=
  let d := linkOf s k
  let s := if d.resends = 1 ∧ k < 96 then linkFault s k else s
  countResends (setLink s k { d with resends := if d.unacked.isEmpty then d.resends else d.resends + 1 }) k d.unacked.length

/-- A NAK reaches the sender of a direction: its ACK counts, then everything unacknowledged is resent. -/
def takeNak (s : State) (k seq : Nat) : State := resendAll (takeAck s k seq) k

/-- A CREDIT field reaches the sender of a direction: the latest cumulative count of its VC. -/
def takeCredit (s : State) (k : Nat) (f : BitVec 16) : State :=
  if f.getLsbD 3 then
    let d := linkOf s k
    let d := { d with credits := sset (fun _ => 0) d.credits (bits f.toNat 0 3) (bits f.toNat 4 12) }
    drainLink k d.wait.length (setLink s k d)
  else s

/-- The identifier of the other direction. -/
def pairedId (l : LinkId) : LinkId :=
  match l with
  | .bundle b => .bundle (Fin.ofNat 96 (pairedLink b.val))
  | .port p => .port p

/-- The receiver of a direction discards a flit: it sends NAK, once until it accepts a flit again. -/
def discardFlit (s : State) (l : LinkId) : State :=
  let k := linkKey l
  let d := linkOf s k
  if d.nakSent then s
  else
    let f : Flit :=
      { seqKind := BitVec.ofNat 16 4096
        ack := BitVec.ofNat 16 ((d.expect + 4095) % 4096 + 4096 + 8192)
        vc := 5
        zero := 0
        start := 0
        creditA := creditField s (pairedLink k) (2 * d.expect)
        creditB := creditField s (pairedLink k) (2 * d.expect + 1)
        body := 0
        crc := 0 }
    (setLink s k { d with nakSent := true }).emit (.flit (pairedId l) (flitSealed f))

/-- What a good flit tells the sender of the paired direction: ACK, NAK and credits. -/
def takeControl (s : State) (k : Nat) (f : Flit) : State :=
  let a := bits f.ack.toNat 0 12
  let s := if f.ack.getLsbD 13 then takeNak s k a else if f.ack.getLsbD 12 then takeAck s k a else s
  takeCredit (takeCredit s k f.creditA) k f.creditB

/-- The receiver of a direction accepts a DATA flit; the units of its packets are freed as they come (R352; DESIGN CHOICE, log
entry 21). -/
def acceptFlit (s : State) (k : Nat) (f : Flit) : State :=
  let d := linkOf s k
  let vc := bits f.vc.toNat 0 3
  let u := flitUnits f (sget (fun _ => 0) d.left vc)
  setLink s k { d with
    expect := (d.expect + 1) % 4096
    nakSent := false
    left := sset (fun _ => 0) d.left vc u.1
    freed := sset (fun _ => 0) d.freed vc (sget (fun _ => 0) d.freed vc + u.2) }

/-- Whether an ACK of a direction names a SEQ that its receiver has accepted; the receiver behind a port is on another
module. -/
def ackSeen (s : State) (k seq : Nat) : Bool :=
  decide (96 ≤ k) || decide (((linkOf s k).expect + 4095 + 4096 - seq) % 4096 < 2048)

/-- Whether a CREDIT field of a direction's receiver tells no more than it has freed. -/
def creditSeen (s : State) (k : Nat) (f : BitVec 16) : Bool :=
  decide (96 ≤ k) || !f.getLsbD 3 ||
    decide ((sget (fun _ => 0) (linkOf s k).freed (bits f.toNat 0 3) + 4096 - bits f.toNat 4 12) % 4096 < 2048)

/-- Whether a good flit can arrive on a bundle: its sender holds it, and what it tells is true. What comes in through a port is
another module's. -/
def flitSent (s : State) (k : Nat) (f : Flit) : Bool :=
  decide (96 ≤ k) || ((flitKind f != 0 || decide (flitSeq f ≠ (linkOf s k).expect) ||
      (linkOf s k).unacked.any fun p => p.2.seqKind == f.seqKind && p.2.vc == f.vc && p.2.start == f.start && p.2.body == f.body) &&
    (!(f.ack.getLsbD 12 || f.ack.getLsbD 13) || ackSeen s (pairedLink k) (bits f.ack.toNat 0 12)) &&
    creditSeen s (pairedLink k) f.creditA && creditSeen s (pairedLink k) f.creditB)

/-- FLIT_RECEIVE: a flit with a bad CRC is counted and discarded, as is one that overlaps an uncorrectable codeword of a port
(R368); a DATA flit is accepted only with the next SEQ. The codewords of a port that end with the flit are counted (R389). -/
def execFlitReceive (l : LinkId) (f : Flit) (corrected uncorrected : Nat) (s : State) : Out :=
  let k := linkKey l
  let good := flitGood f && decide (uncorrected = 0)
  guarded (!good || flitSent s k f) <|
    let s := if 96 ≤ k then (s.bump 0x30A0 1 (k - 96) corrected).bump 0x30A0 2 (k - 96) uncorrected else s
    if good then
      let s := takeControl s (pairedLink k) f
      if flitKind f = 1 ∨ flitKind f = 2 then s
      else if flitKind f = 0 ∧ flitSeq f = (linkOf s k).expect then acceptFlit s k f
      else discardFlit s l
    else discardFlit (if k < 96 then s.bump 0x3090 2 k 1 else s) l

/-- NAK: its ACK names the last SEQ that the receiver accepted. -/
def execNak (l : LinkId) (lastSeq : BitVec 12) (s : State) : Out :=
  guarded (ackSeen s (linkKey l) lastSeq.toNat) (takeNak s (linkKey l) lastSeq.toNat)

/-- LINK_ACK_TIMEOUT. -/
def execLinkAckTimeout (l : LinkId) (s : State) : Out :=
  guarded (!(linkOf s (linkKey l)).unacked.isEmpty) (resendAll s (linkKey l))

/-! ## Lanes (R353, R354) -/

/-- The state of a bundle: 0 in service, 1 in service with spares, 2 paused, 3 retired. -/
def bundleState (s : State) (b : Nat) : Nat := s.obj 0x4060 1 b

/-- The flagged lanes of a bundle. -/
def flagged (s : State) (b : Nat) : Nat := (s.net.laneFlags.filter fun p => p.1 / 136 = b).length

/-- Flags a lane. -/
def flagLane (s : State) (b : Nat) (lane : Fin 136) : State :=
  { s with net := { s.net with laneFlags := sset (fun _ => false) s.net.laneFlags (b * 136 + lane.val) true } }

/-- LANE_FLAG: a lane's margin errors of 1 ms exceed LANE_MARGIN_LIMIT, or it loses lock. -/
def execLaneFlag (b : Fin 96) (lane : Fin 136) (margin : Nat) (lockLost : Bool) (s : State) : Out :=
  guarded (decide (bundleState s b.val ≠ 3) && (lockLost || decide (netLimit s 4 < margin))) (flagLane s b.val lane)

/-- LANE_TEST: a bundle without a flagged lane resends more than BUNDLE_RETRY_LIMIT flits in 1 ms, or a flit was resent 16 times
(R351); the test flags each lane that shows errors. -/
def execLaneTest (b : Fin 96) (resends : Nat) (bad : List (Fin 136)) (s : State) : Out :=
  guarded (decide (bundleState s b.val ≤ 1) && ((decide (flagged s b.val = 0) && decide (netLimit s 5 < resends)) ||
    decide (16 ≤ (linkOf s b.val).resends))) (bad.foldl (fun s l => flagLane s b.val l) s)

/-- Whether a bundle has flagged lanes and enough unused spares for them. -/
def swappable (s : State) (b : Nat) : Bool :=
  decide (0 < flagged s b) && decide (flagged s b + s.obj 0x4060 2 b ≤ 8)

/-- LANE_SWAP: the bundle pauses; a single fault of the class-0 packets that it delays (R339). -/
def execLaneSwap (b : Fin 96) (s : State) : Out :=
  guarded (decide (bundleState s b.val ≤ 1) && swappable s b.val)
    (beginTakeover ((linkFault s b.val).setObj 0x4060 1 b.val 2) (blockOf 6 b.val))

/-- LANE_SWAP_DONE: the bundle resumes on its spares and resends from the last ACK. -/
def execLaneSwapDone (b : Fin 96) (s : State) : Out :=
  guarded (decide (bundleState s b.val = 2)) <|
    let used := s.obj 0x4060 2 b.val + flagged s b.val
    let s := ((s.setObj 0x4060 2 b.val used).setObj 0x4060 1 b.val 1)
    let s := { s with net := { s.net with laneFlags := s.net.laneFlags.filter fun p => p.1 / 136 ≠ b.val } }
    let d := linkOf s b.val
    let s := drainLink b.val d.wait.length (countResends s b.val d.unacked.length)
    endTakeover (takeoverRecord s 0x54 1 (blockOf 6 b.val) 0xFFFF (8 - used) 0) (blockOf 6 b.val)

/-! ## Retired bundles and lost links (R355 to R357) -/

/-- The bundles of a link direction that carry slots. -/
def servingBundles (s : State) (dir : Nat) : List Nat :=
  (List.range 12).filter fun k => decide (bundleState s (12 * dir + k) ≠ 3)

/-- The slots of a bundle. -/
def bundleSlots (s : State) (dir k : Nat) : List Nat := (List.range 64).filter fun t => slotBundle s dir t = k

/-- The serving bundle of a direction with the fewest slots, the lowest-numbered on a tie. -/
def fewest (s : State) (dir : Nat) : Option Nat :=
  (servingBundles s dir).foldl (fun a k =>
    match a with
    | none => some k
    | some j => if (bundleSlots s dir k).length < (bundleSlots s dir j).length then some k else some j) none

/-- Passes a slot to the serving bundle that holds the fewest. -/
def passSlot (dir : Nat) (s : State) (slot : Nat) : State :=
  match fewest s dir with
  | none => s
  | some k =>
    { s with net := { s.net with slotTable := sset (fun k => k % 64 % 12) s.net.slotTable (dir * 64 + slot) k } }

/-- Resends a flit of a retired bundle on the bundle that took its slot, under that bundle's next SEQ; `left` holds, by bundle and
virtual channel, the units to come of the packet that the flits before it began there. -/
def moveFlit (dir : Nat) (a : State × Sparse Nat) (p : Nat × Flit) : State × Sparse Nat :=
  let k := 12 * dir + slotBundle a.1 dir p.1
  let d := linkOf a.1 k
  let vc := bits p.2.vc.toNat 0 3
  let u := flitUnits p.2 (sget (fun _ => 0) a.2 (8 * k + vc))
  let f := flitSealed { p.2 with seqKind := BitVec.ofNat 16 d.next }
  (countResends (setLink a.1 k { d with
    next := (d.next + 1) % 4096
    unacked := d.unacked ++ [(p.1, f)]
    sent := sset (fun _ => 0) d.sent vc (sget (fun _ => 0) d.sent vc + u.2) }) k 1, sset (fun _ => 0) a.2 (8 * k + vc) u.1)

/-- Moves a waiting packet of a retired bundle to the bundle that took its slot. -/
def movePacket (dir : Nat) (s : State) (p : LinkPacket) : State := crossLink s (12 * dir + slotBundle s dir p.slot) p

/-- The bundles in service on the narrowest link of the path between two base dies through a third (R356). -/
def pathWidth (s : State) (x v y : Nat) : Nat :=
  let w (d : Nat) : Nat := s.obj 0x4060 3 d
  min (min (w (linkDir x v)) (w (linkDir v x))) (min (w (linkDir v y)) (w (linkDir y v)))

/-- The slots of a diagonal pair that move so that the split follows the widths of its two paths (R356). Which slots move
is DESIGN CHOICE: the lowest-numbered (log entry 21). A slot that moves drains first. -/
def shiftPair (s : State) (e : Nat) : State :=
  let x := if e = 0 then 0 else 1
  let y := 3 - x
  let low := if e = 0 then 1 else 0
  let high := 3 - low
  let wl := pathWidth s x low y
  let wh := pathWidth s x high y
  if wl + wh = 0 then s
  else
    let want := 64 * wl / (wl + wh)
    let moving (t : Nat) : Bool := s.net.drainSlots.contains (e, t)
    let onLow (t : Nat) : Bool := (bit (s.obj 0x4060 5 e) t == moving t)
    let lows := (List.range 64).filter onLow
    let highs := (List.range 64).filter fun t => !onLow t
    let pick := if want < lows.length then lows.take (lows.length - want) else highs.take (want - lows.length)
    { s with net := { s.net with drainSlots := (s.net.drainSlots.filter fun p => !(p.1 == e && pick.contains p.2)) ++
        (pick.filter fun t => !moving t).map fun t => (e, t) } }

/-- BUNDLE_RETIRED: its slots pass on, its unacknowledged flits after the last SEQ accepted are resent there, and the module
is flagged for replacement. -/
def execBundleRetired (b : Fin 96) (lastSeq : BitVec 12) (s : State) : Out :=
  guarded (decide (bundleState s b.val ≤ 1) && decide (0 < flagged s b.val) && !swappable s b.val &&
      decide (lastSeq.toNat = ((linkOf s b.val).expect + 4095) % 4096)) <|
    let dir := b.val / 12
    let d := linkOf s b.val
    let left := (dropAcked lastSeq.toNat d.unacked).getD d.unacked
    let s := linkFault s b.val
    let s := (s.setObj 0x4060 1 b.val 3).setObj 0x4060 3 dir (s.obj 0x4060 3 dir - 1)
    let s := (bundleSlots s dir (b.val % 12)).foldl (passSlot dir) s
    let s := setLink s b.val { d with unacked := [], wait := [] }
    let s := d.wait.foldl (movePacket dir) (left.foldl (moveFlit dir) (s, [])).1
    let s := shiftPair (shiftPair s 0) 1
    takeoverNow (flagReplace s 5) 0x55 3 (blockOf 6 b.val) 0

/-- Whether two agents lie on the base dies of a diagonal pair. -/
def onPair (pair src dst : Nat) : Bool :=
  decide (baseOf src ≠ baseOf dst) && !adjacent (baseOf src) (baseOf dst) &&
    decide (diagonalPair (baseOf src) (baseOf dst) = pair)

/-- Whether a packet of a slot that a base die of a diagonal pair sent on is not answered yet (R356). -/
def pairWaits (s : State) (pair slot : Nat) : Bool :=
  (s.net.e2e.any fun e => onPair pair e.src e.dst && decide (slotOf e.msg.line = slot) && !heldBack s e.kind e.msg) ||
    (s.net.redSent.any fun r => !r.held && onPair pair r.packet.src r.dst && decide (redSlot s r.packet = slot)) ||
    s.peer.sent.any fun x => !x.held && decide (x.core < 256) && onPair pair (siteOfCore s x.core) (agentPort x.port) &&
      decide (routeSlot x.pk.remoteVa.toNat = slot)

/-- SLOT_DRAIN_DONE: every packet sent on the old path is answered; the slot takes the other path, and what its base dies held
goes there (R356). -/
def execSlotDrainDone (pair : Fin 2) (slot : Fin 64) (s : State) : Out :=
  guarded (s.net.drainSlots.contains (pair.val, slot.val) && !pairWaits s pair.val slot.val) <|
    let mine (h : DrainHold) : Bool := decide (h.pair = pair.val) && decide (h.packet.slot = slot.val)
    let held := s.net.drainHold.filter mine
    let s := { s with net := { s.net with
      drainSlots := s.net.drainSlots.filter fun p => p != (pair.val, slot.val)
      drainHold := s.net.drainHold.filter fun h => !mine h } }
    held.foldl (fun s h => crossDies s h.src h.dst h.packet)
      (s.setObj 0x4060 5 pair.val (s.obj 0x4060 5 pair.val ^^^ 2 ^ slot.val))

/-- LINK_LOST (R357). -/
def execLinkLost (dir : Fin 8) (s : State) : Out :=
  guarded (decide (s.obj 0x4060 3 dir.val = 0) && !s.net.lost) (serviceEnds s 0x2C 5)

/-! ## Elevators and mesh links (R34, R359, R361) -/

/-- MESH_SILENCE: the neighbour is reported to Lovage. -/
def execMeshSilence (psn : Psn) (s : State) : Out :=
  .next { s with net := { s.net with
    reported := if s.net.reported.contains psn.val then s.net.reported else s.net.reported ++ [psn.val] } }

/-- An elevator becomes unusable (R34, R529). -/
def loseElevator (s : State) (e : Nat) : State := flagReplace (s.setObj 0x4010 3 e 1) 7

/-- The elevators of a die that can be used. -/
def usableElevators (s : State) (d : Nat) : Nat := ((List.range 8).filter fun i => s.obj 0x4010 3 (8 * d + i) = 0).length

/-- The running class-0 steps with a core on a die: a router's or an elevator's failure is a single fault of theirs (R70, R518). -/
def dieFault (s : State) (die : Nat) : State := markFault s fun t => (coresOf s t.key).any fun c => decide (siteOfCore s c / 36 = die)

/-- ELEVATOR_FAULT (R361): more than 16 failures in 1 ms; each counts. A die whose last elevator goes is lost (R519). -/
def execElevatorFault (e : Fin 64) (failures : Nat) (s : State) : Out :=
  guarded (decide (s.obj 0x4010 3 e.val = 0) && decide (16 < failures)) <|
    let s := dieFault s (e.val / 8)
    let s := loseElevator (s.bump 0x3090 6 e.val failures) e.val
    let s := takeoverNow s 0x52 3 (blockOf 3 e.val) (usableElevators s (e.val / 8))
    if usableElevators s (e.val / 8) = 0 then serviceEnds s 0x2D 7 else s

end Sys2Proof.Machine
end

