-- ==== Sys2Proof/Machine/FailOver.lean ====
section
/-!
DEFINITION. Failed cores, routers, agents and cache banks, and the spares that take over (R27 to R32, R67, R227, R228, R272,
R358 to R360, R484, R517 to R525).
-/
namespace Sys2Proof.Machine

/-! ## Agents that fail (R272) -/

/-- A transaction that waits for a failed agent: an invalidation counts as answered; a failed owner's line is poisoned, its
data open (R227, R272). -/
def dropAgent (a : Nat) (s : State) (key : Nat) : State :=
  let l := keyLine key
  let h := homeLine s l
  match h.busy with
  | none => s
  | some t =>
    let lostOwner := decide (t.owner = some a)
    let t' := { t with
      invs := t.invs.filter fun x => x ≠ a
      owner := if lostOwner then none else t.owner }
    let h := { h with
      busy := some t'
      presence := setBit h.presence (agentPlace a) false }
    let s :=
      if lostOwner then
        let data := Config.freeLine s.free
        let s := homeWrite { s with free := s.free + 1 } l.no data 15
        let s := if agentPlace a < 4 then setNear s (agentPlace a) l NearLine.none else s
        setHome s l { h with
          st := 1
          data := data
          marks := 15 }
      else setHome s l h
    if t'.invs.isEmpty ∧ t'.owner.isNone ∧ t' ≠ t then finishTxn s t' false else s

/-- The lines whose home waits for an owner. -/
def ownedLines (s : State) (a : Nat) : List Line :=
  (s.coh.home.filter fun p => match p.2.busy with
    | some t => decide (t.owner = some a)
    | none => false).map fun p => keyLine p.1

/-- The messages of an owner's transaction. -/
def ownerKind (k : MsgKind) : Bool :=
  k == .fwdRd || k == .fwdOwn || k == .recall || k == .ownData || k == .ownDone || k == .grant

/-- The homes complete every transaction that waits for an agent, and drop it from their presence vectors; what is in flight
to and from it about them is lost, and what a failed site has not sent is discarded (R272, R358, R521). -/
def completeAgent (s : State) (a : Nat) : State :=
  let lost := ownedLines s a
  let toFrom (f : Flight) : Bool :=
    (f.kind == MsgKind.inv && decide (f.msg.dst = a)) || (f.kind == MsgKind.invAck && decide (f.msg.src = a)) ||
      (ownerKind f.kind && (decide (f.msg.src = a) || decide (f.msg.dst = a)) && lost.contains f.msg.line)
  let idle (p : Nat × HomeLine) : Nat × HomeLine :=
    if p.2.busy.isNone ∧ a < 288 then (p.1, { p.2 with presence := setBit p.2.presence (agentPlace a) false }) else p
  let s := { s with
    net := { s.net with
      e2e := s.net.e2e.filter fun e => !toFrom ⟨e.kind, e.msg⟩ && (decide (288 ≤ a) || decide (e.src ≠ a))
      e2eHold := s.net.e2eHold.filter fun f => !toFrom f && (decide (288 ≤ a) || decide (f.msg.src ≠ a)) }
    coh := { s.coh with
      net := s.coh.net.filter fun f => !toFrom f
      accepted := s.coh.accepted.filter fun f => !(decide (f.msg.dst = a) && lost.contains f.msg.line)
      home := s.coh.home.map idle } }
  (s.coh.home.map Prod.fst).foldl (dropAgent a) s

/-- Whether a transaction waits for an agent. -/
def waitsFor (s : State) (a : Nat) : Bool :=
  s.coh.home.any fun p => match p.2.busy with
    | none => false
    | some t => t.invs.contains a || decide (t.owner = some a)

/-- AGENT_FENCED. -/
def execAgentFenced (agent : Nat) (s : State) : Out :=
  guarded (waitsFor s agent && (s.net.fenced.contains agent || (portOf agent).isSome)) (completeAgent s agent)

/-! ## Spares (R30) -/

/-- The recorded ceiling of a site in MHz (R5, R484). -/
def siteCeiling (s : State) (psn : Nat) : Nat := sget (fun _ => recordCeiling) s.ctl.ceilings psn

/-- The free spare sites of a die. -/
def freeSpares (s : State) (die : Nat) : List Nat :=
  ((List.range 36).map fun i => 36 * die + i).filter fun p => decide (s.obj 0x4010 2 p = 1)

/-- The spare that Lovage chooses: one of 2,700 MHz or more before the others, the lower PSN first. -/
def chooseSpare (s : State) (die : Nat) : Option Nat :=
  match (freeSpares s die).find? fun p => decide (2700 ≤ siteCeiling s p) with
  | some p => some p
  | none => (freeSpares s die).head?

/-- The set point of a core of a ceiling (R483): the target or the ceiling, less what power or heat takes, whichever is
more (R478, R491), and never below 800 MHz (R482). -/
def setPoint (s : State) (core ceiling : Nat) : Nat :=
  let cut := max (sget (fun _ => 0) s.power.dieLimit (core / s.grade)) (sget (fun _ => 0) s.power.powerCut core)
  max 800 (min (s.obj 0x9020 3 0) ceiling - cut)

/-- Brings the set point of every core up to date. -/
def updateSetPoints (s : State) : State :=
  (List.range (coreTotal s.grade)).foldl (fun s c =>
    s.setObj 0x9020 2 c (if inService s c then setPoint s c (s.obj 0x9020 1 c) else 0)) s

/-- A site takes a logical number: the map, the spare counts and the core's clock objects follow; its caches are empty (R30,
R31, R222, R521). -/
def assignSite (s : State) (core psn : Nat) : State :=
  let die := psn / 36
  let s := (s.setObj 0x4010 1 core psn).setObj 0x4010 2 psn 0
  let s := s.setObj 0x4070 3 die (s.obj 0x4070 3 die - 1)
  let s := s.setObj 0x1010 5 0 (s.obj 0x1010 5 0 - 1)
  let s := (s.setObj 0x9020 1 core (siteCeiling s psn)).setObj 0x9020 2 core (setPoint s core (siteCeiling s psn))
  let s := (s.setObj 0x4030 2 core 0).setObj 0x4030 3 core 0
  let s := s.setCore core Core.idle
  { s with ctl := { s.ctl with siteOf := sset (fun _ => 0) s.ctl.siteOf core (psn + 1) } }

/-- The record of a step whose core is lost (R522, R525). -/
def coreLost (s : State) (core : Nat) (cmd : CoreCmd) : State :=
  match findStep s cmd.step with
  | none => s
  | some t =>
    let s := fnRecord s t.fn { LogRec.blank with
      kind := 1
      severity := 2
      cause := 0x27
      scope := 1
      core := core
      stepId := t.id
      cmdIndex := cmd.idx } 4 0x27 0
    updStep s t.key fun t => (t.addStatus .faultUnrecovered (newestRecord s)).cancelRest

/-- A command of a failed core that does not run again: its step is lost (R522). -/
def endRerun (s : State) (core : Nat) (cmd : CoreCmd) : State :=
  let s := coreLost s core cmd
  if runsOnCores s cmd.step cmd.idx || spilled s cmd.step cmd.idx then s
  else setPhase (setSlice s ⟨cmd.step, cmd.idx⟩ none) cmd.step cmd.idx .done

/-- A logical number goes out of service (R30): what was to run again on its spare has no site to run on (DEDUCED, log entry 29). -/
def numberOut (s : State) (core : Nat) : State :=
  let mine (r : SpillRec) : Bool := r.pages.isEmpty && decide (r.core.val = core)
  let gone := (s.sage.spills.filter mine).filterMap fun r => r.save.cmd
  let s := { s with sage := { s.sage with spills := s.sage.spills.filter fun r => !mine r } }
  let s := gone.foldl (fun s c => endRerun s core c) s
  let s := (s.setObj 0x4010 1 core 0xFFFF).setObj 0x9020 1 core 0
  let s := s.setObj 0x9020 2 core 0
  let s := { s with ctl := { s.ctl with siteOf := sset (fun _ => 0) s.ctl.siteOf core 0x10000 } }
  flagReplace s 0

/-! ## Core faults (R521, R522) -/

/-- The state from which the groups of a failed core's command start again: the last spill, or the start state (R522). -/
def restartState (s : State) (core : Nat) (cmd : CoreCmd) : Option Core :=
  match s.sage.restarts.find? fun r => decide (r.step = cmd.step) && decide (r.cmd = cmd.idx) && decide (r.core.val = core) with
  | some r => some r.save
  | none =>
    match findStep s cmd.step with
    | none => none
    | some t => (t.command cmd.idx).map fun c => setupCore s t cmd.idx c ⟨Fin.ofNat 256 core, cmd.first, cmd.count⟩

/-- What becomes of the command of a failed core (R70, R522): it restarts from its restart point, a class-0 step at the head
of the next plan; or its step is lost. A command that is stopping starts no group again. -/
def decideRerun (s : State) (core : Nat) (cmd : CoreCmd) : State :=
  if cmd.irreversible then endRerun s core cmd
  else
    match restartState s core cmd with
    | none => s
    | some k =>
      let k := { k with cmd := k.cmd.map fun c => { c with stopping := cmd.stopping } }
      let s := { s with sage := { s.sage with
        spills := s.sage.spills ++ [⟨[], cmd.step, cmd.idx, Fin.ofNat 256 core, k⟩] } }
      let s := if runsOnCores s cmd.step cmd.idx then s else setSlice s ⟨cmd.step, cmd.idx⟩ none
      markFault s fun t => decide (t.key = cmd.step)

/-- The failed site of a core: its clocks stop, what has not left it is lost, and the homes complete what names it (R272,
R358, R521). -/
def failSite (s : State) (core psn : Nat) : State :=
  let cmd := (s.core core).cmd
  let s := s.setCore core { Core.idle with hw := { Core.idle.hw with fenced := true } }
  let s := s.setObj 0x4010 2 psn 3
  let s := { s with net := { s.net with fenced := s.net.fenced ++ [psn] } }
  let s := completeAgent s psn
  match cmd with
  | none => s
  | some c => decideRerun s core c

/-- The free spares of a core's die once one has taken over. -/
def sparesAfter (s : State) (core : Nat) : Nat := s.obj 0x4070 3 (dieOfCore s core) - 1

/-- A core fault of a cause: the site is fenced, the hardware record written, and the take-over begins (R521, R525). -/
def failCore (s : State) (core cause : Nat) : State :=
  let psn := siteOfCore s core
  let sev := if (freeSpares s (psn / 36)).isEmpty then 3 else 2
  let s := failSite s core psn
  let s := takeoverRecord s cause sev (blockOf 1 psn) core (sparesAfter s core) 0
  beginTakeover s (blockOf 1 psn)

/-- Whether a logical core serves and has not failed. -/
def coreLive (s : State) (core : Nat) : Bool := inService s core && !(s.core core).hw.fenced

/-- CORE_FAULT. -/
def execCoreFault (core : CoreNo) (ns : Nat) (s : State) : Out :=
  guarded (notBefore s ns && coreLive s core.val) (failCore (s.at ns) core.val 0x50)

/-- A site whose clock domain was reset and which passed self-test is a free spare again, once its number has moved (R488). -/
def rejoinSite (s : State) (psn : Nat) : State :=
  if s.ctl.rejoin.contains psn then
    let s := (s.setObj 0x4010 2 psn 1).setObj 0x4070 3 (psn / 36) (s.obj 0x4070 3 (psn / 36) + 1)
    let s := s.setObj 0x1010 5 0 (s.obj 0x1010 5 0 + 1)
    { s with
      net := { s.net with fenced := s.net.fenced.filter fun p => p ≠ psn }
      ctl := { s.ctl with rejoin := s.ctl.rejoin.filter fun p => p ≠ psn } }
  else s

/-- Whether 20 µs have passed since the fault of a site (R521). -/
def siteDue (s : State) (psn : Nat) : Bool :=
  (s.mgmt.log ++ s.mgmt.logPend).all fun r => decide (r.kind ≠ 2) ||
    (decide (r.block ≠ blockNo (blockOf 1 psn)) && decide (r.block ≠ blockNo (blockOf 2 psn))) || decide (r.time + 20000 ≤ s.now)

/-- SPARE_TAKEOVER (R30, R31, R521): at the first tick boundary 20 µs after the fault the spare takes the failed core's number; with
no free spare the number goes out of service. -/
def execSpareTakeover (core : CoreNo) (s : State) : Out :=
  let psn := siteOfCore s core.val
  guarded (inService s core.val && (s.core core.val).hw.fenced && takesOver s (blockOf 1 psn) && decide (s.now = s.tickStart) && siteDue s psn) <|
    let s := match chooseSpare s (psn / 36) with
      | some p =>
        let s := assignSite s core.val p
        if siteCeiling s p < 2700 then flagReplace s 0 else s
      | none => numberOut s core.val
    rejoinSite (endTakeover s (blockOf 1 psn)) psn

/-- CORE_SWAP (R30, R31, R67, R484): at a tick boundary a flagged or aged core that runs nothing gives its number to a free
spare of 2,700 MHz or more; its old site is retired (log entry 29). -/
def execCoreSwap (core : CoreNo) (s : State) : Out :=
  let psn := siteOfCore s core.val
  let spare := (freeSpares s (psn / 36)).find? fun p => decide (2700 ≤ siteCeiling s p)
  guarded (coreLive s core.val && (s.core core.val).cmd.isNone && decide (s.now = s.tickStart) && spare.isSome &&
      (decide (s.obj 0x4030 3 core.val = 1) || decide (siteCeiling s psn < 2700))) <|
    match spare with
    | none => s
    | some p =>
      let s := completeAgent (s.setObj 0x4010 2 psn 3) psn
      let s := assignSite s core.val p
      let s := takeoverRecord s 0x5F 1 (blockOf 1 psn) core.val (s.obj 0x4070 3 (dieOfCore s core.val)) 0
      aer s 0 "Corrected Internal Error" 0 (newestRecord s)

/-! ## Routers (R28, R359, R360) -/

/-- The elevators that attach to a site's router (R28). -/
def attached (psn : Nat) : List Nat :=
  let row := psn % 36 / 6
  let col := psn % 6
  if (row = 1 ∨ row = 4) ∧ 1 ≤ col ∧ col ≤ 4 then [8 * (psn / 36) + (if row = 4 then 4 else 0) + (col - 1)] else []

/-- A site is retired: one that serves fails its core, a free spare is no longer free. -/
def retireSite (s : State) (psn : Nat) : State :=
  match coreOfSite s psn with
  | some c => if coreLive s c then beginTakeover (failSite s c psn) (blockOf 1 psn) else s
  | none =>
    if s.obj 0x4010 2 psn = 1 then
      let s := s.setObj 0x4070 3 (psn / 36) (s.obj 0x4070 3 (psn / 36) - 1)
      (s.setObj 0x1010 5 0 (s.obj 0x1010 5 0 - 1)).setObj 0x4010 2 psn 3
    else s.setObj 0x4010 2 psn 3

/-- The commands whose packets a Chive unit held, or whose acknowledgements it had not sent (R360). -/
def unitCommands (s : State) (u : Nat) : List (Nat × Nat) :=
  let n := s.net.redSent.length + 1
  let held := (s.net.chive.filter fun e => decide (e.unit = u)).flatMap ChiveEntry.senders
  let owed := (s.net.redSent.filter fun r => decide (r.packet.src = u)).flatMap RedSent.absorbed
  ((held ++ owed).filterMap fun x =>
    (s.net.redSent.find? fun r => decide (r.packet.src = x.1) && decide (r.packet.seq = x.2)).map fun r =>
      redCommand n s r.packet).eraseDups

/-- A Chive unit is lost with what it held (R360). -/
def loseUnit (s : State) (u : Nat) : State :=
  let lost := unitCommands s u
  let s := { s with net := { s.net with
    chive := s.net.chive.filter fun e => decide (e.unit ≠ u)
    chiveTags := s.net.chiveTags.filter fun t => decide (t.unit ≠ u)
    redSent := s.net.redSent.filter fun r => decide (r.packet.src ≠ u) && !(lost.any fun c => c = (r.step, r.idx) && r.absorbed.isEmpty) } }
  lost.foldl (fun s c =>
    let s := { s with net := { s.net with reds := s.net.reds.filter fun r => !(decide (r.step = c.1) && decide (r.idx = c.2)) } }
    setPhase (stepFault s c.1 0x2A c.2) c.1 c.2 .cancelled) s

/-- Packets on their way through a failed router are dropped; their senders send them again (R340, R359). -/
def dropThrough (s : State) (psn : Nat) : State :=
  let through (a slot : Nat) : Bool := decide (a < 288) && decide (a / 36 = psn / 36) && (meshPath s a slot).contains psn
  { s with
    coh := { s.coh with net := s.coh.net.filter fun f =>
      !(through f.msg.src (slotOf f.msg.line) || through f.msg.dst (slotOf f.msg.line)) }
    net := { s.net with redNet := s.net.redNet.filter fun p => !(redUnits s p).contains (0x150 + psn) } }

/-- The routers of a die that have failed. -/
def failedRouters (s : State) (die : Nat) : List Nat :=
  (List.range 36).filter fun i => decide (s.obj 0x4060 4 (36 * die + i) ≠ 0)

/-- ROUTER_FAULT (R359): packets through the router are dropped, the die's tables avoid it, the site and the sites left without a
route are retired, its elevators become unusable, its Chive unit is lost, and one record is written. -/
def execRouterFault (psn : Psn) (alsoSites : List Psn) (ns : Nat) (s : State) : Out :=
  guarded (notBefore s ns && decide (s.obj 0x4060 4 psn.val = 0)) <|
    let s := dropThrough (dieFault (s.at ns) (psn.val / 36)) psn.val
    let s := s.setObj 0x4060 4 psn.val 1
    let s := avoidRouters s (psn.val / 36) (failedRouters s (psn.val / 36))
    let core := (coreOfSite s psn.val).getD 0xFFFF
    let die := psn.val / 36
    let spares := s.obj 0x4070 3 die - 1
    let s := takeoverRecord s 0x51 (if s.obj 0x4070 3 die = 0 then 3 else 2) (blockOf 2 psn.val) core spares 0
    let s := (psn :: alsoSites).foldl (fun s p => retireSite s p.val) s
    let s := (attached psn.val).foldl loseElevator s
    let s := loseUnit s (0x150 + psn.val)
    let s := { s with net := { s.net with reported := s.net.reported.filter fun x => x ≠ psn.val } }
    if usableElevators s die = 0 ∧ (attached psn.val).isEmpty = false then serviceEnds s 0x2D 7 else s

/-! ## Cache banks (R227, R228, R524) -/

/-- The state of a bank: 0 in use, 1 spare unused, 2 retired, 3 folded. -/
def bankState (s : State) (sl b : Nat) : Nat := s.obj 0x4040 1 (17 * sl + b)

/-- The bank that serves a bank number. -/
def numberBank (s : State) (sl n : Nat) : Nat := sget (fun k => k % 16) s.coh.bankMap (sl * 16 + n)

/-- The numbers that a bank serves. -/
def bankNumbers (s : State) (sl b : Nat) : List Nat := (List.range 16).filter fun n => decide (numberBank s sl n = b)

/-- The number that a bank serves of its own: its number, or for the spare the one that it took over. -/
def ownNumber (s : State) (sl b : Nat) : Nat :=
  if b < 16 then b else ((bankNumbers s sl b).find? fun n => decide (bankState s sl n = 2)).getD 0

/-- Whether a number is served by a bank of its own that has not failed. -/
def stillServes (s : State) (sl failing n : Nat) : Bool :=
  decide (bankState s sl n ≠ 3) && decide (numberBank s sl n ≠ failing)

/-- The number onto whose bank the numbers of a failed bank fold (R228). -/
def foldOnto (s : State) (sl b : Nat) : Option Nat :=
  let n := ownNumber s sl b
  match [n ^^^ 1, n ^^^ 2, n ^^^ 4, n ^^^ 8].find? (stillServes s sl b) with
  | some m => some m
  | none => (List.range 16).find? (stillServes s sl b)

/-- Maps numbers to a bank. -/
def mapNumbers (s : State) (sl b : Nat) (ns : List Nat) : State :=
  ns.foldl (fun s n => { s with coh := { s.coh with
    bankMap := sset (fun k => k % 16) s.coh.bankMap (sl * 16 + n) b } }) s

/-- A home line of a failed bank goes (R227): dirty data that can be read is written to memory, the rest is written with
every sector marked; a discarded line leaves its mark; copies elsewhere are invalidated. -/
def dropHomeLine (unreadable : List Nat) (s : State) (key : Nat) : State :=
  let l := keyLine key
  let h := homeLine s l
  let own := ownerLine s l
  let s :=
    if l.host then s
    else if h.st = 3 then homeWrite s l.no own.1 own.2
    else if h.discarded then queueMark s l.no
    else if h.st = 2 then
      if unreadable.contains l.no then homeWrite { s with free := s.free + 1 } l.no (Config.freeLine s.free) 15
      else homeWrite s l.no h.data h.marks
    else s
  let s := dropPlaces s l h.presence
  let s := pinCounts s h false
  let s := if h.hard || h.pins.isEmpty then s else h.pins.foldl (fun s p => s.bump 0x7040 4 p.1 1) s
  setHome s l HomeLine.none

/-- A near line of a failed bank goes (R227): a dirty one is written to memory, and its home holds it clean. -/
def dropNearLine (unreadable : List Nat) (sl : Nat) (s : State) (key : Nat) : State :=
  let l := keyLine (key / 4)
  let n := nearLine s sl l
  let h := homeLine s l
  let s := setNear s sl l NearLine.none
  if n.st = 2 then
    let bad := unreadable.contains l.no
    let data := if bad then Config.freeLine s.free else n.data
    let marks : Marks := if bad then 15 else n.marks
    let s := if bad then { s with free := s.free + 1 } else s
    setHome (homeWrite s l.no data marks) l { h with
      st := 1
      data := data
      marks := marks
      presence := setBit h.presence sl false }
  else if n.st = 1 then setHome s l { h with presence := setBit h.presence sl false }
  else s

/-- Whether transactions on a line of a bank are open: the model follows a bank fault once they have ended (log entry
13). -/
def bankBusy (s : State) (sl b : Nat) : Bool :=
  (s.coh.home.any fun p => (p.2.busy.isSome || unsettled s (keyLine p.1)) &&
    (decide (bankOf s sl (p.1 / 2) = b) && homeSlice (keyLine p.1) == sl)) ||
    s.coh.near.any fun p => decide (p.2.st ≠ 0) && unsettled s (keyLine (p.1 / 4)) && decide (p.1 % 4 = sl) && decide (bankOf s sl (p.1 / 8) = b)

/-- Refetches a hard-pinned line (R227, R236). -/
def refetch (s : State) (p : Nat × HomeLine) : State :=
  let l := keyLine p.1
  let s := fillHome s l false
  let s := setPins s l { homeLine s l with
    pins := p.2.pins
    soft := false
    pinAt := p.2.pinAt }
  balanceSet l 32 s

/-- Empties a failed bank, passes its numbers to another one and refetches its hard-pinned lines. -/
def moveBank (s : State) (sl b dst : Nat) (unreadable : List Nat) : State :=
  let homes := s.coh.home.filter fun p => decide (p.2.st ≠ 0) && homeSlice (keyLine p.1) == sl && decide (bankOf s sl (p.1 / 2) = b)
  let nears := s.coh.near.filter fun p => decide (p.2.st ≠ 0) && p.1 % 4 == sl && decide (bankOf s sl (p.1 / 8) = b)
  let ns := bankNumbers s sl b
  let s := (nears.map Prod.fst).foldl (dropNearLine unreadable sl) s
  let s := (homes.map Prod.fst).foldl (dropHomeLine unreadable) s
  (homes.filter fun p => p.2.hard).foldl refetch (mapNumbers s sl dst ns)

/-- Sets a bank's state. -/
def setBank (s : State) (sl b v : Nat) : State := s.setObj 0x4040 1 (17 * sl + b) v

/-- BANK_FAULT: an unused spare is retired; a bank in use passes its numbers to the spare, or folds them onto another bank;
the loss of the last is the loss of the base die (R227, R228, R519, R525). -/
def execBankFault (slice : Fin 4) (bank : Fin 17) (unreadable : List Nat) (s : State) : Out :=
  let sl := slice.val
  let b := bank.val
  let blk := blockOf 7 (17 * sl + b)
  guarded (decide (bankState s sl b < 2) && !bankBusy s sl b && !s.net.lost) <|
    let s := if bankState s sl b = 0 then markFault s fun _ => true else s
    if bankState s sl b = 1 then takeoverNow (setBank s sl b 2) 0x53 1 blk 0
    else
      if bankState s sl 16 = 1 then
        let s := setBank (setBank (moveBank s sl b 16 unreadable) sl b 2) sl 16 0
        beginTakeover (takeoverRecord s 0x53 1 blk 0xFFFF 0 0) blk
      else
        match foldOnto s sl b with
        | some m =>
          let own := ownNumber s sl b
          let s := moveBank s sl b (numberBank s sl m) unreadable
          let s := setBank (if b = 16 then setBank s sl 16 2 else s) sl own 3
          takeoverNow (flagReplace s 1) 0x53 3 blk 0
        | none => serviceEnds (setBank s sl b 2) 0x2D 7

/-- BANK_SPARE_READY (R524, R530): the spare serves the bank number, and the take-over has completed. -/
def execBankSpareReady (slice : Fin 4) (s : State) : Out :=
  match s.ctl.takeover.find? fun b => decide (b.kind = 7) && decide (b.no.toNat / 17 = slice.val) with
  | none => cannot
  | some b => .next (endTakeover s b)

end Sys2Proof.Machine
end

