-- ==== Sys2Proof/Machine/Functions.lean ====
section
/-!
DEFINITION. The states of a function: quiesce, resume, FLR, VF Enable, zeroing and readiness (R416 to R423, R437).
-/
namespace Sys2Proof.Machine

/-! ## What every disable does (R417 step 4, R239, R349, R382) -/

/-- A function's packets that are still queued at a port are discarded, and with them the writes of cores that they carry
(R382). -/
def dropQueued (s : State) (f : Fn) : State :=
  let mine (x : PeerSent) : Bool := x.held && x.pk.srcFn == f
  let gone := s.peer.sent.filter mine
  gone.foldl (fun s x => if x.core < 256 then
      let k := s.core x.core
      pump (s.setCore x.core { k with writes := k.writes.filter fun w => !(decide (w.tag = x.tag) && w.msg.line == x.line) }) x.core
    else s) { s with peer := { s.peer with sent := s.peer.sent.filter fun x => !mine x } }

/-- The module removes a function's pins, queued peer packets, windows, grants and unconsumed TAG_DONE messages. -/
def fnCleanup (s : State) (f : Fn) : State :=
  let s := dropQueued (dropPins s f) f
  { s with
    host := { s.host with
      windows := sclear s.host.windows (16 * f.val) (16 * (f.val + 1))
      grants := sclear s.host.grants (16 * f.val) (16 * (f.val + 1)) }
    peer := { s.peer with tags := s.peer.tags.filter fun t => t.2.1 ≠ f } }

/-- The steps of a function in the store. -/
def fnSteps (s : State) (f : Fn) : List Nat := (s.sage.steps.filter fun t => t.fn = f).map Step.key

/-- Ends every step of a function that has not ended, with a status and no record. -/
def abortSteps (s : State) (f : Fn) (st : StepStatus) : State :=
  (s.sage.steps.filter fun t => t.fn = f ∧ t.phase ≠ .ended).foldl (fun s t => endStep s t.key st 0) s

/-! ## Graceful quiesce (R417, R437) -/

/-- The drain limit of a function (R421). -/
def drainLimit (s : State) (f : Nat) : Nat := s.obj 0x7050 2 f

/-- A graceful quiesce of a function starts. -/
def beginDrain (s : State) (f limit : Nat) : State :=
  let d : Drain := ⟨s.now, limit, tickPeriod s⟩
  let s := s.setFn f 3
  { s with host := { s.host with drains := sset (fun _ => none) s.host.drains f (some d) } }

/-- Forgets a drain. -/
def endDrain (s : State) (f : Nat) : State :=
  { s with host := { s.host with drains := sset (fun _ => none) s.host.drains f none } }

/-- Marks a function as moved by a module quiesce, or not. -/
def setMoved (s : State) (f : Nat) (b : Bool) : State :=
  { s with host := { s.host with moved := sset (fun _ => false) s.host.moved f b } }

/-- Whether a module quiesce moved a function. -/
def wasMoved (s : State) (f : Nat) : Bool := sget (fun _ => false) s.host.moved f

/-- DRAIN_END: at the first tick boundary at or after t + L periods every step of the function that is not completed ends
ABORTED_DISABLE, and the function's pins and windows go. -/
def execDrainEnd (f : Fn) (s : State) : Out :=
  match sget (fun _ => none) s.host.drains f.val with
  | none => cannot
  | some d =>
    guarded (decide (s.fnState f.val = 3) && decide (d.ns + d.limit * (1000 * d.period) ≤ s.tickStart))
      (fnCleanup (abortSteps (endDrain s f.val) f .abortedDisable) f)

/-- FUNCTION_QUIESCED: the drain has ended and every completion entry is written. -/
def execFunctionQuiesced (f : Fn) (s : State) : Out :=
  guarded (decide (s.fnState f.val = 3) && (sget (fun _ => none) s.host.drains f.val).isNone && (fnSteps s f).isEmpty)
    (s.setFn f.val 4)

/-- RESUME: QUIESCED to READY. -/
def resumeFn (s : State) (f : Nat) : State := setMoved (s.setFn f 2) f false

/-! ## Abrupt disable (R418, R419) -/

/-- Eight bytes of the tables as they stand; none where a mark covers them. -/
def tableNow (s : State) (pa : Nat) : Option Nat := tableBytes (peekLine s ⟨pa / 512, false⟩) pa

/-- The valid level-1 entries of a function's context. -/
def level2Tables (s : State) (f : Nat) : List Nat :=
  (List.range 65536).filterMap fun i =>
    match tableNow s (sget (fun _ => 0) s.host.ctxBase f + 8 * i) with
    | some e => if l1Ok e then some (bits e 19 21 * 2 ^ 19) else none
    | none => none

/-- The device pages that one level-2 table maps writable. -/
def tablePages (s : State) (base : Nat) : List Nat :=
  (List.range 65536).filterMap fun i =>
    match tableNow s (base + 8 * i) with
    | some e => if l2Ok e && bit e 1 && !bit e 2 then some (bits e 16 24) else none
    | none => none

/-- The device pages that a function's context maps writable (R419). -/
def writablePages (s : State) (f : Nat) : List Nat :=
  if (ctxBase s f).isSome then ((level2Tables s f).flatMap (tablePages s)).eraseDups else []

/-- The function page, its MSI-X table and PBA, its context and its queues return to their reset values (R418). ACCT_SELECT of the
function's window (R77) is left as it is: DESIGN CHOICE, log entry 55. -/
def resetPage (s : State) (f : Nat) : State :=
  let h := s.host
  { s with
    regs := sclear s.regs (rkey f 0) (rkey f 0x18100)
    sage := { s.sage with doorbells := s.sage.doorbells.filter fun d => d.fn.val ≠ f }
    host := { h with
      heads := sclear h.heads (65 * f) (65 * (f + 1))
      stopped := sclear h.stopped (256 * f) (256 * (f + 1))
      ctxBase := sset (fun _ => 0) h.ctxBase f 0
      ctxSet := sset (fun _ => false) h.ctxSet f false
      tlb := sclear h.tlb (f * 2 ^ 32) ((f + 1) * 2 ^ 32)
      chanDrop := sclear h.chanDrop (8 * f) (8 * (f + 1))
      evLost := sset (fun _ => 0) h.evLost f 0
      irq := h.irq.filter fun w => w.fn.val ≠ f
      evPend := h.evPend.filter fun e => e.fn.val ≠ f } }

/-- The blocks of BAR0 outside the function page that the PF's resets return to their reset values: the error log, the
indirect registers, the mailbox, and BAR2_WIN (R418, R548). -/
def resetPfBlocks (s : State) : State :=
  { s with regs := sclear (sclear s.regs (rkey 0 0x21000) (rkey 0 0x21060)) (rkey 0 0x20040) (rkey 0 0x20048) }

/-- The job of a function's zeroing in the MT queues. -/
def zeroJob (f : Nat) : Nat := 2000 + f

/-- The code pages of pages, by channel. -/
def pagesCount (s : State) (pages : List Nat) : Sparse Nat :=
  pages.foldl (fun m p => (rangePages s (65536 * p) 1).foldl (fun m q =>
    sset (fun _ => 0) m q.1 (sget (fun _ => 0) m q.1 + q.2)) m) []

/-- An abrupt disable: the function's steps end without entries or events, its page is reset, and it enters ZEROING with
the pages of its context as it stands, whose code pages go to the MT queues; a zeroing in progress goes on (R418 to R420). -/
def abruptDisable (s : State) (f : Fn) : State :=
  let pages := writablePages s f.val
  let s := abortSteps s f .abortedDisable
  let s := { s with sage := { s.sage with steps := s.sage.steps.filter fun t => t.fn ≠ f } }
  let s := setMoved (endDrain (resetPage (fnCleanup s f) f.val) f.val) f.val false
  if s.fnState f.val = 0 ∨ s.host.zeroing.any (fun z => z.fn == f) then s
  else
    let s := { s with host := { s.host with zeroing := s.host.zeroing ++ [(⟨f, pages⟩ : Zeroing)] } }
    (putJob s (zeroJob f.val) (pagesCount s pages)).setFn f.val 1

/-- The VFs that are enabled. -/
def enabledVfs (s : State) : List Fn := (List.range 256).filterMap fun i =>
  if 0 < i ∧ s.host.vfEnable ∧ i ≤ s.host.numVfs then some (Fin.ofNat 256 i) else none

/-- Clears VF Enable, which disables every VF. -/
def clearVfs (s : State) : State :=
  let s := (enabledVfs s).foldl abruptDisable s
  { s with host := { s.host with vfEnable := false } }

/-- FLR of a VF, or of the PF, which also clears VF Enable, BAR2_WIN and the blocks of BAR0. -/
def execFlr (f : Fn) (s : State) : Out :=
  guarded (s.host.linkUp && fnPresent s f)
    (if f.val = 0 then resetPfBlocks (abruptDisable (clearVfs s) 0) else abruptDisable s f)

/-- VF_ENABLE_CLEAR. -/
def execVfEnableClear (s : State) : Out := guarded (s.host.linkUp && s.host.vfEnable) (clearVfs s)

/-- VF_ENABLE_SET: each VF up to NumVFs shows ZEROING until it is READY (R394, R423); `num` is NumVFs as it counts, at most 7
where ARI Capable Hierarchy is clear. -/
def execVfEnableSet (num : Fin 256) (s : State) : Out :=
  guarded (s.host.linkUp && !s.host.vfEnable) <|
    let s := { s with host := { s.host with
      vfEnable := true
      numVfs := num.val } }
    (enabledVfs s).foldl (fun s f => s.setFn f.val 1) s

/-- Event counters of a function at zero (R49). -/
def clearCounters (s : State) (f : Nat) : State :=
  { s with host := { s.host with evc := sclear s.host.evc (4096 * f) (4096 * (f + 1)) } }

/-- A function becomes READY, or stays in QUIESCED while the module is quiescing or quiesced (R437). -/
def becomeReady (s : State) (f : Nat) : State :=
  if s.moduleState = 1 ∨ s.moduleState = 2 then setMoved (s.setFn f 4) f true else s.setFn f 2

/-- VF_READY: a VF that needs no zeroing finishes its setup. -/
def execVfReady (f : Fn) (s : State) : Out :=
  guarded (s.released && decide (0 < f.val) && fnPresent s f && decide (s.fnState f.val = 1) &&
      s.host.zeroing.all fun z => z.fn != f)
    (becomeReady (clearCounters s f.val) f.val)

/-! ## Zeroing (R419) -/

/-- A line takes zero data with clear marks, in its cache and in memory, in both copies of a replicated region; the writes that
still wait for it are older (R306). -/
def zeroLine (s : State) (no : Nat) : State :=
  let l : Line := ⟨no, false⟩
  let h := homeLine s l
  let s := if h.st = 0 then s else
    setHome (dropPlaces s l h.presence) l { h with
      st := 1
      data := 0
      marks := 0
      presence := 0
      discarded := false }
  let s := ctrlWrite (dropWaiting s no) no 0 0
  match replicaOf s no with
  | none => s
  | some i => ctrlWrite (dropWaiting s (mirrorLine s i no)) (mirrorLine s i no) 0 0

/-- The 128 lines of a page. -/
def zeroPage (s : State) (page : Nat) : State := (List.range 128).foldl (fun s i => zeroLine s (128 * page + i)) s

/-- Whether every transaction on a line of the pages is over (log entry 13). -/
def pagesIdle (s : State) (pages : List Nat) : Bool :=
  s.coh.home.all fun p => settled s (keyLine p.1) || (keyLine p.1).host || !pages.contains ((keyLine p.1).no / 128)

/-- ZEROING_DONE: the pages have passed the MT queues and are zero; the PF and an enabled VF become READY, another VF is ABSENT. -/
def execZeroingDone (f : Fn) (s : State) : Out :=
  match takeFirst (fun z : Zeroing => z.fn == f) s.host.zeroing with
  | none => cannot
  | some (z, rest) =>
    guarded (s.released && !jobOpen s (zeroJob f.val) && pagesIdle s z.pages) <|
      let s := z.pages.foldl zeroPage { s with host := { s.host with zeroing := rest } }
      if f.val = 0 then becomeReady s 0
      else if fnPresent s f then becomeReady (clearCounters s f.val) f.val
      else s.setFn f.val 0

end Sys2Proof.Machine
end

