-- ==== Sys2Proof/Machine/DictVal.lean ====
section
/-!
DEFINITION. The values that the dictionary shows (R429 to R465): stored elements, and those that are derived from the state
of their blocks.
-/
namespace Sys2Proof.Machine

/-! ## Bytes -/

/-- Little-endian bytes as a number. -/
def ofBytes : List Nat → Nat
  | [] => 0
  | b :: t => b + 256 * ofBytes t

/-- `n` elements of `w` bytes from element `off`, as one number. -/
def packElems (f : Nat → Nat) (w : Nat) : Nat → Nat → Nat
  | _, 0 => 0
  | off, n + 1 => f off % 2 ^ (8 * w) + 2 ^ (8 * w) * packElems f w (off + 1) n

/-- SERIAL: DESIGN CHOICE (log entry 6), the example of R435. -/
def serialBytes : List Nat := [75, 84, 50, 52, 49, 57, 48, 66, 55, 88, 51, 77]

/-- PART_NUMBER: "AQ-9" and the number of serving cores. -/
def partBytes (s : State) : List Nat :=
  let n := coreTotal s.grade
  [65, 81, 45, 57, 48 + n / 100 % 10, 48 + n / 10 % 10, 48 + n % 10]

/-! ## Records -/

/-- The 128 B of a log record (R454, R527). -/
def LogRec.bytes (r : LogRec) : Nat :=
  r.index % 2 ^ 32 + 2 ^ 32 * (r.kind % 2 ^ 16) + 2 ^ 48 * (r.severity % 256) + 2 ^ 56 * (r.func % 256) +
    2 ^ 64 * (r.time % 2 ^ 64) + 2 ^ 128 * (r.tick % 2 ^ 64) + 2 ^ 256 * (r.cause % 256) + 2 ^ 264 * (r.scope % 256) +
    2 ^ 272 * (r.core % 2 ^ 16) + 2 ^ 288 * (r.pc % 2 ^ 32) + 2 ^ 320 * (r.stepId % 2 ^ 64) +
    2 ^ 384 * (r.address % 2 ^ 64) + 2 ^ 448 * (r.block % 2 ^ 32) + 2 ^ 480 * (r.slot % 256) +
    2 ^ 488 * (r.sparesLeft % 256) + 2 ^ 496 * (r.cmdIndex % 2 ^ 16) + 2 ^ 512 * (r.durationUs % 2 ^ 32) +
    2 ^ 544 * (r.seqRef % 2 ^ 32) + 2 ^ 576 * (r.detail % 2 ^ 192)

/-- The log record with an index, where the log holds it. -/
def findRecord (s : State) (i : Nat) : Option LogRec :=
  if i = 0 then none else (s.mgmt.log ++ s.mgmt.logPend).find? fun r => r.index = i

/-- The 256 B of a start record (R513). -/
def StartRec.bytes (r : StartRec) : Nat :=
  r.number % 2 ^ 32 + 2 ^ 32 * (r.kind % 256) + 2 ^ 40 * (r.cause % 256) + 2 ^ 48 * (r.result % 256) +
    2 ^ 56 * (r.step % 256) + 2 ^ 64 * (r.processor % 256) + 2 ^ 72 * (r.slot % 256) + 2 ^ 80 * (r.fails % 256) +
    2 ^ 88 * (r.straps % 256) + 2 ^ 96 * blockNo r.failBlock + 2 ^ 128 * r.failDetail.toNat +
    2 ^ 160 * (r.refclkRestarts % 2 ^ 32) + 2 ^ 192 * packElems (fun i => r.stepEnds.getD i 0) 4 0 11 +
    2 ^ 576 * packElems (fun i => r.selfTest.getD i 0) 2 0 10 + 2 ^ 832 * packElems (fun i => r.verify.getD i 0) 8 0 5

/-- The 184 B of an accounting record (R76). -/
def acctBytes (s : State) (rec : Nat) : Nat :=
  packElems (acct s rec) 8 0 7 + 2 ^ 448 * packElems (fun i => acct s rec (7 + i)) 4 0 32

/-- A directory entry as the probe reports it (R255, R285): 0 for a line with no entry. -/
def probeBytes (s : State) (no : Nat) : Nat :=
  let h := homeLine s ⟨no, false⟩
  if h.st = 0 then 0
  else h.presence.toNat + 2 ^ 292 * h.st + 2 ^ 294 * b2n h.busy.isSome + 2 ^ 295 * (h.pins.map Prod.snd).sum +
    2 ^ 299 * b2n h.soft + 2 ^ 300 * b2n h.discarded + 2 ^ 301 * h.marks.toNat

/-! ## Requesters -/

/-- The session of a place in the table. -/
def sessionAt (s : State) (i : Fin 8) : Option Session := s.mgmt.sessions.find? fun x => x.place = i

/-- Replaces a session. -/
def putSession (s : State) (x : Session) : State :=
  { s with mgmt := { s.mgmt with sessions := s.mgmt.sessions.map fun y => if y.place = x.place then x else y } }

/-- The VF whose window a request came through, if any. -/
def Requester.vf : Requester → Option Nat
  | .window f => if f.val = 0 then none else some f.val
  | .session _ _ _ => none

/-- ACCT_SELECT of a requester (R77): each window and session has its own; that of VFn starts at n x 64. -/
def acctSelect (s : State) : Requester → Nat
  | .window f => sget (fun k => 64 * k) s.mgmt.acctSel f.val
  | .session i _ _ => ((sessionAt s i).map Session.acctSel).getD 0

/-- LOG_SELECT of a requester (R456). -/
def logSelect (s : State) : Requester → Nat
  | .window f => sget (fun _ => 0) s.mgmt.logSel f.val
  | .session i _ _ => ((sessionAt s i).map Session.logSel).getD 0

/-- Sets ACCT_SELECT of a requester. -/
def setAcctSelect (s : State) (v : Nat) : Requester → State
  | .window f => { s with mgmt := { s.mgmt with acctSel := sset (fun k => 64 * k) s.mgmt.acctSel f.val v } }
  | .session i _ _ =>
    match sessionAt s i with
    | some x => putSession s { x with acctSel := v }
    | none => s

/-- Sets LOG_SELECT of a requester. -/
def setLogSelect (s : State) (v : Nat) : Requester → State
  | .window f => { s with mgmt := { s.mgmt with logSel := sset (fun _ => 0) s.mgmt.logSel f.val v } }
  | .session i _ _ =>
    match sessionAt s i with
    | some x => putSession s { x with logSel := v }
    | none => s

/-! ## Elements -/

/-- Whether an object is a per-core counter array that a VF reads under R106. -/
def coreCounter (key : Nat) : Bool :=
  let i := key / 256
  (i = 0x3040 || i = 0x3050 || i = 0x3060 || i = 0x3070 || key = 0x307206 || key = 0x901002) &&
    (match findObj i (key % 256) with
      | some o => o.typ = 10
      | none => false)

/-- Whether an object is a per-function array (R60, R145, R249, R421). -/
def fnArray (key : Nat) : Bool :=
  let i := key / 256
  i = 0x7010 || key = 0x702001 || i = 0x7040 || key = 0x705001 || key = 0x705002 || key = 0x705005 || key = 0x705008

/-- Whether a core has run, or is running, a slice of a command of a function in the current tick (R106). -/
def coreRan (s : State) (f c : Nat) : Bool := sget (fun _ => false) s.sage.ran (c * 256 + f)

/-- A firmware slot's entry in SLOT_INFO (R461). -/
def FwSlot.info (x : FwSlot) : Nat := x.version + 2 ^ 32 * x.security + 2 ^ 64 * x.state

/-- The entry of a place in SESSIONS (R465). -/
def sessionEntry (s : State) (e : Nat) : Nat :=
  match s.mgmt.sessions.find? fun x => decide (x.place.val = e) && x.open_ with
  | some x => x.number % 2 ^ 32 + 2 ^ 32 * x.keySlot
  | none => 0

/-- Element `e` of an object of a scalar or array type, as a requester reads it. -/
def elemOf (s : State) (who : Requester) (key e : Nat) : Nat :=
  match key with
  | 0x100005 => Config.macAddress.toNat
  | 0x100009 => Config.romVersion.toNat
  | 0x200103 => bits s.ctl.straps.toNat 4 5
  | 0x500003 => logSelect s who
  | 0x601004 => if e = 0 then s.mgmt.fwA.info else s.mgmt.fwB.info
  | 0x602002 => sessionEntry s e
  | 0x703001 => acctSelect s who
  | 0x802002 => window s (s.obj 0x8020 1 0) e
  | 0x802003 => sget (fun _ => 0) s.host.grants (16 * s.obj 0x8020 1 0 + e)
  | 0x900006 => f32Ratio (powerFloor s).1 ((powerFloor s).2 * 1000)
  | 0x900007 => f32Ratio (fullLoad s) 1000
  | 0x90000A => feedState s (e = 1)
  | 0x902004 => bits s.ctl.straps.toNat 0 3
  | _ =>
    if key % 256 = 0 then highestSub (key / 256)
    else
      let v := s.obj (key / 256) (key % 256) e
      match Requester.vf who with
      | some f => if coreCounter key && !coreRan s f e then 0 else v
      | none => v

/-- The length and the bytes of a STR or BLOB object; none where it holds no record (R454, R514). -/
def blobOf (s : State) (who : Requester) (key : Nat) : Option (Nat × Nat) :=
  match key with
  | 0x100004 => some (12, ofBytes serialBytes)
  | 0x100006 => some (64, Config.mfgDigest.toNat)
  | 0x101001 => some (7, ofBytes (partBytes s))
  | 0x205205 => some (256, s.obj 0x2052 5 0)
  | 0x307302 => some (40, s.obj 0x3073 2 0)
  | 0x500004 => (findRecord s (logSelect s who)).map fun r => (128, r.bytes)
  | 0x501001 => some (256, ((s.mgmt.starts.getLast?).map StartRec.bytes).getD 0)
  | 0x501004 => (s.mgmt.starts.find? fun r => r.number = s.obj 0x5010 3 0).map fun r => (256, r.bytes)
  | 0x600001 => some (min 1536 Config.deviceCert.1, Config.deviceCert.2)
  | 0x600002 =>
    let c := Config.aliasCert s.mgmt.primary.val s.mgmt.fwDigest
    some (min 1536 c.1, c.2)
  | 0x600003 => some (1793, Config.identityKey.toNat)
  | 0x703002 => some (184, acctBytes s (acctSelect s who))
  | 0x705007 => some (32768, packElems (evCounter s (s.obj 0x7050 6 0)) 8 0 4096)
  | _ => some (0, 0)

/-- Whether an object is a STR or a BLOB. -/
def Obj.isBytes (o : Obj) : Bool := o.typ = 8 || o.typ = 9

/-- What a requester finds in an object: how many elements or bytes, the bytes of each, and their values; none where the
object holds no record. A VF sees only its own element of a per-function array (R448). -/
def view (s : State) (who : Requester) (o : Obj) : Option (Nat × Nat × (Nat → Nat)) :=
  if o.isBytes then
    (blobOf s who o.key).map fun b => (b.1, 1, fun i => bits b.2 (8 * i) 8)
  else
    match Requester.vf who with
    | some f =>
      if fnArray o.key then some (1, o.esize, fun _ => elemOf s who o.key f)
      else some (o.len s.grade, o.esize, elemOf s who o.key)
    | none => some (o.len s.grade, o.esize, elemOf s who o.key)

end Sys2Proof.Machine
end

