-- ==== Sys2Proof/Machine/Service.lean ====
section
/-!
DEFINITION. Quiescing and resuming the module, drain and safe removal (R437, R531 to R534).
-/
namespace Sys2Proof.Machine

/-! ## Module quiesce and resume (R437) -/

/-- Every function number. -/
def allFns : List Nat := List.range 256

/-- The module moves to QUIESCING and quiesces every READY function with its DRAIN_LIMIT_TICKS. -/
def quiesceModule (s : State) : State :=
  (allFns.filter fun f => s.fnState f = 2).foldl (fun s f => setMoved (beginDrain s f (drainLimit s f)) f true) (s.setModule 1)

/-- What waits for the module to leave quiesce takes effect (R268); the functions that a quiesce moved resume. -/
def resumeModule (s : State) : State :=
  let s := (allFns.filter fun f => wasMoved s f && (s.fnState f = 4 || s.fnState f = 3)).foldl
    (fun s f => resumeFn (endDrain s f) f) s
  { (s.setModule 0) with coh := { s.coh with raceMode := s.obj 0x2040 1 0 } }

/-- MODULE_QUIESCED: every function is QUIESCED or ABSENT. -/
def execModuleQuiesced (s : State) : Out :=
  guarded (s.moduleState = 1 && allFns.all fun f => s.fnState f = 0 || s.fnState f = 4) (s.setModule 2)

/-! ## The safe state (R531, R533) -/

/-- SERVICE_STATE: 0 none, 1 draining by button, 2 draining by latch, 3 safe to remove. -/
def serviceState (s : State) : Nat := s.obj 0x4080 1 0

/-- Sets SERVICE_STATE. -/
def setService (s : State) (v : Nat) : State := s.setObj 0x4080 1 0 v

/-- Whether the latch is open. -/
def latchOpen (s : State) : Bool := s.obj 0x4080 2 0 = 1

/-- Gates or restores every core's clock. -/
def gateAll (s : State) (b : Bool) : State :=
  (List.range (coreTotal s.grade)).foldl (fun s c =>
    let k := s.core c
    s.setCore c { k with hw := { k.hw with gated := b } }) s

/-- Every port goes dark: those that are neither DISABLED nor FAILED show NO_LIGHT. -/
def portsDark (s : State) : State :=
  let s := (List.range 8).foldl (fun s p =>
    if 2 ≤ s.obj 0x8010 3 p ∧ s.obj 0x8010 3 p ≤ 5 then
      setLink (((s.setObj 0x8010 3 p 1).setObj 0x8010 4 p 0).setObj 0x8010 5 p 0) (96 + p) LinkDir.fresh
    else s) s
  { s with peer := { s.peer with ports := [] } }

/-- DRAIN_SAFE: lasers dark, core clocks gated, both tiers in self-refresh. -/
def execDrainSafe (s : State) : Out :=
  guarded (s.moduleState = 2 && (serviceState s = 1 || serviceState s = 2)) <|
    let s := gateAll (portsDark (setService s 3)) true
    { s with power := { s.power with
        selfRefresh := true
        lasersDark := true } }

/-- The module leaves the safe state. -/
def leaveSafe (s : State) : State :=
  if serviceState s = 3 then
    let s := gateAll s false
    { s with power := { s.power with
        selfRefresh := false
        lasersDark := false } }
  else s

/-! ## Requests (R531 to R533) -/

/-- A drain starts: its record, the notice to the PF, and the quiesce. -/
def beginService (s : State) (by_ : Nat) : State :=
  let s := logRecord s { LogRec.blank with kind := 8, cause := 0x40, scope := 3 }
  let s := queueEvent (setService s by_) 0 4 0x40 0 0
  if s.moduleState = 2 ∧ (allFns.all fun f => s.fnState f ≠ 2) then s else quiesceModule s

/-- Every drain ends at the first tick boundary after now. -/
def shortenDrains (s : State) : State :=
  { s with host := { s.host with drains := s.host.drains.map fun p =>
      (p.1, p.2.map fun d => { d with
        ns := s.now + 1
        limit := 0 }) } }

/-- A short press, or 1 written to SERVICE_REQUEST. -/
def requestDrain (s : State) : State := if s.released && serviceState s = 0 then beginService s 1 else s

/-- SERVICE_PRESS. -/
def execServicePress (ns : Nat) (s : State) : Out := guarded (notBefore s ns) (requestDrain (s.at ns))

/-- A press of 5 s or more, or 2 written to SERVICE_REQUEST: whether it is accepted, and the state. While the latch is open it
is refused. -/
def requestCancel (s : State) : Bool × State :=
  if latchOpen s then (false, s)
  else if serviceState s ≠ 0 ∧ s.released then (true, setService (resumeModule (leaveSafe s)) 0)
  else if s.moduleState = 2 then (true, resumeModule s)
  else (true, s)

/-- SERVICE_CANCEL. -/
def execServiceCancel (s : State) : Out := .next (requestCancel s).2

/-- The drain that an open latch starts (R532). -/
def latchDrain (s : State) : State :=
  if serviceState s = 0 then shortenDrains (beginService s 2)
  else if serviceState s = 1 then shortenDrains s
  else s

/-- LATCH_OPEN: during a start the drain begins at release. -/
def execLatchOpen (ns : Nat) (s : State) : Out :=
  guarded (notBefore s ns && !latchOpen s) <|
    let s := (s.at ns).setObj 0x4080 2 0 1
    if s.released then latchDrain s
    else if s.moduleState = 4 then s
    else { s with ctl := { s.ctl with drainLater := true } }

/-- LATCH_CLOSE. -/
def execLatchClose (s : State) : Out := guarded (latchOpen s) (s.setObj 0x4080 2 0 0)

end Sys2Proof.Machine
end

