-- ==== Sys2Proof/Machine/Starts.lean ====
section
/-!
DEFINITION. Cold and warm starts, release, failed starts and service hold (R32, R497 to R516).
-/
namespace Sys2Proof.Machine

/-! ## What a start keeps -/

/-- Objects that keep their values through a start: the records of R433, the fault and retirement record, the health of the
blocks, and what the power system shows. -/
def keptObjects : List Nat :=
  [0x101005, 0x200201, 0x200202, 0x205003, 0x205302, 0x205303, 0x205304, 0x400001, 0x400002, 0x400102, 0x401001, 0x401002, 0x401003,
    0x404001, 0x405005, 0x405006, 0x406001, 0x406002, 0x406003, 0x406004, 0x406005, 0x407001, 0x407003, 0x408002,
    0x500001, 0x500002, 0x501002, 0x601005, 0x601006, 0x900009, 0x90000A, 0x90000D, 0x902001, 0x902005, 0x903002]

/-- Whether an object belongs to the persistent configuration: persist, and RW or RWQ (R433). -/
def isConfig (key : Nat) : Bool :=
  match findObj (key / 256) (key % 256) with
  | some o => o.persist && (o.acc = 1 || o.acc = 3)
  | none => false

/-- The dictionary after a reset: what is kept, and the persistent configuration of the newest valid copy (R433). -/
def startDict (s : State) : Sparse Nat :=
  let kept := s.dict.filter fun p => keptObjects.contains (p.1 / 2 ^ 20) || (p.1 / 2 ^ 20 == 0x801003 && p.2 == 6)
  if s.mgmt.copyValid.1 || s.mgmt.copyValid.2 then
    s.mgmt.persist.foldl (fun d p => sset (dictDefault s.grade) d p.1 p.2) kept
  else kept

/-- The domains that stay up in service hold: PD18 and PD19. -/
def holdDomains : BitVec 20 := 0xC0000

/-- The management state after a reset: what lies in flash, and the identity key (R457). -/
def startMgmt (s : State) : MgmtState :=
  { State.reset.mgmt with
    fwA := s.mgmt.fwA
    fwB := s.mgmt.fwB
    persist := s.mgmt.persist
    copyValid := s.mgmt.copyValid
    copyLast := s.mgmt.copyLast
    identity := s.mgmt.identity
    fwDigest := s.mgmt.fwDigest
    logPend := s.mgmt.logPend
    log := s.mgmt.log
    starts := s.mgmt.starts
    ringDriven := s.mgmt.ringDriven
    uptime := s.now }

/-- The host interface after a reset: the link and the configuration space as they stand, every function page at its reset
values (R508). -/
def startHost (s : State) : HostState :=
  { State.reset.host with
    linkUp := s.host.linkUp
    perst := s.host.perst
    vfEnable := s.host.vfEnable
    numVfs := s.host.numVfs
    bar2Log2 := s.host.bar2Log2 }

/-- The module's logic after a reset, with memory as it stands. -/
def logicReset (s : State) : State :=
  { State.reset with
    pending := s.pending
    free := s.free
    stamp := s.stamp
    out := s.out
    grade := s.grade
    now := s.now
    dict := startDict s
    coh := { State.reset.coh with bankMap := s.coh.bankMap }
    mem := { s.mem with
      ctrl := []
      scrub := none }
    host := startHost s
    net := { State.reset.net with
      routeTable := s.net.routeTable
      slotTable := s.net.slotTable
      lost := s.net.lost
      fenced := s.net.fenced }
    mgmt := startMgmt s
    power := { s.power with
      hints := []
      dieLimit := []
      powerCut := [] }
    ctl := { s.ctl with
      takeover := []
      waiting := []
      thermalHold := false } }

/-- Memory without its contents; host memory is the host's (R326, R472). -/
def emptyMemory (m : MemState) : MemState :=
  { m with
    dev := []
    poison := []
    discard := []
    clean := []
    remap := m.remap.map fun p => (p.1, 2)
    pinnedPages := [] }

/-! ## Triggers (R497 to R499, R513) -/

/-- Changes the record of the start in progress. -/
def changeRecord (s : State) (f : StartRec → StartRec) : State :=
  match s.mgmt.starts.reverse with
  | [] => s
  | r :: t => { s with mgmt := { s.mgmt with starts := (f r :: t).reverse } }

/-- The UART line of an update of the latest start record (R562). -/
def printStart (s : State) : State :=
  match s.mgmt.starts.getLast? with
  | some r => uartLine s r.number r.kind r.cause
  | none => s

/-- Writes the record of the start in progress (R513, R562). -/
def setRecord (s : State) (f : StartRec → StartRec) : State := printStart (changeRecord s f)

/-- The 4-bit STRAPS field of a start record. -/
def strapBits (s : State) : Nat := bits s.ctl.straps.toNat 0 4

/-- A start's number is one more than that of the latest record. -/
def nextStart (s : State) : Nat :=
  match s.mgmt.starts.getLast? with
  | some r => r.number + 1
  | none => 1

/-- A trigger: the start's record and log entry are written, every session closes, and the module is STARTING or
WARM_STARTING. The ring of start records holds 4,096. -/
def beginStart (s : State) (cold : Bool) (cause : Nat) : State :=
  let n := nextStart s
  let r : StartRec :=
    { number := n
      kind := if cold then 1 else 2
      cause := cause
      result := 0
      step := 0
      processor := s.mgmt.primary.val
      slot := s.obj 0x1000 8 0
      fails := s.obj 0x5010 2 0
      straps := strapBits s
      failBlock := blockOf 0 0
      failDetail := 0
      refclkRestarts := 0
      stepEnds := []
      selfTest := []
      verify := [] }
  let s := logRecord s { LogRec.blank with kind := 7, cause := cause, scope := 3, seqRef := n }
  let drop := if s.mgmt.starts.length < 4096 then s.mgmt.starts else s.mgmt.starts.tail
  let s := { s with
    mgmt := { s.mgmt with
      starts := drop ++ [r]
      sessions := []
      held := []
      segments := [] }
    ctl := { s.ctl with start := some { cold := cold, cause := cause, number := n, failed := false, done := false } } }
  (printStart s).setModule (if cold then 5 else 3)

/-- A cold trigger: what ran is gone with its domains (R472). -/
def beginCold (s : State) (cause : Nat) : State :=
  let s := logicReset s
  let s := { s with mem := emptyMemory s.mem }
  beginStart { s with power := { s.power with
    pllLocked := false
    counting := s.power.refclk
    restarts := 0
    stopCause := false } } true cause

/-- What PERST_N resets: the link, the configuration space and every function page (R508, R548). -/
def resetHost (s : State) : State :=
  { s with
    regs := []
    sage := { s.sage with doorbells := [] }
    host := { State.reset.host with perst := s.host.perst }
    mgmt := { s.mgmt with held := s.mgmt.held.filter fun h => match h.who with
      | .window _ => false
      | .session _ _ _ => true } }

/-- The stop of step 1 of R506: every command is cancelled, and no function is READY any more (R516). -/
def stopWork (s : State) : State :=
  let s := (liveSteps s).foldl (fun s k => endStep s k .abortedReset 0) s
  ({ s with sage := { s.sage with
    plan := []
    loaded := [] } }).clearObj 0x7050 1

/-- The stop that resets the host interface as well: no entry is written for any step. -/
def stopSilent (s : State) : State :=
  let s := stopWork s
  resetHost { s with sage := { s.sage with steps := [] } }

/-- A warm trigger: causes 06h and 07h leave the steps to be completed ABORTED_RESET; 05h and 08h write no entries. -/
def beginWarm (s : State) (cause : Nat) : State :=
  beginStart (if cause = 5 ∨ cause = 8 then stopSilent s else stopWork s) false cause

/-! ## Firmware selection (R458, R502) -/

/-- A firmware slot. -/
def fwSlot (s : State) (i : Nat) : FwSlot := if i = 0 then s.mgmt.fwA else s.mgmt.fwB

/-- Sets a firmware slot. -/
def setFwSlot (s : State) (i : Nat) (x : FwSlot) : State :=
  if i = 0 then { s with mgmt := { s.mgmt with fwA := x } } else { s with mgmt := { s.mgmt with fwB := x } }

/-- Whether the ROM accepts a slot: its image was accepted at its COMMIT, it has not failed since, and VERSION_FLOOR allows
it. DEDUCED (log entry 30): nothing changes a committed image, so its signature and digest still check. -/
def slotValid (s : State) (i : Nat) : Bool :=
  ((fwSlot s i).state = 1 || (fwSlot s i).state = 2) && decide (s.obj 0x6010 6 0 ≤ (fwSlot s i).security)

/-- The slot that NEXT_SLOT names, or the other one where that image is invalid. -/
def chooseSlot (s : State) : Option Nat :=
  let n := s.obj 0x6010 5 0
  if slotValid s n then some n else if slotValid s (1 - n) then some (1 - n) else none

/-- The image body of a slot: the bytes after the 1,536 B header. -/
def imageBody (x : FwSlot) : Nat := memRead x.image 1536 (memRead x.image 12 4)

/-- The firmware check: a slot passed over is marked failed, and the running image is shown and measured. -/
def runSlot (s : State) (i : Nat) : State :=
  let n := s.obj 0x6010 5 0
  let s := if n = i then s else setFwSlot s n { fwSlot s n with state := 3 }
  let x := fwSlot s i
  let s := (s.setObj 0x1000 7 0 x.version).setObj 0x1000 8 0 i
  { s with mgmt := { s.mgmt with
    trial := decide (x.state = 2)
    floorRead := s.obj 0x6010 6 0
    fwDigest := (Config.shake256 (imageBody x) (memRead x.image 12 4)).toNat } }

/-! ## Blocks found failing (R503, R504, R510) -/

/-- A logical number of a die moves to a free spare, or goes out of service (R30). -/
def moveNumber (s : State) (die c : Nat) : State :=
  match chooseSpare s die with
  | some p => if siteCeiling s p < 2700 then flagReplace (assignSite s c p) 0 else assignSite s c p
  | none => numberOut s c

/-- A site that fails at a start is retired, and its logical number moves. -/
def retireAtStart (s : State) (psn : Nat) : State :=
  match coreOfSite s psn with
  | none => if s.obj 0x4010 2 psn = 1 then retireSite s psn else s.setObj 0x4010 2 psn 3
  | some c => moveNumber (s.setObj 0x4010 2 psn 3) (psn / 36) c

/-- The map as the fault record leaves it (R32): the number of a retired site whose take-over had not come moves now, and a site
that passed its self-test after a clock-domain reset is a free spare again (R488). -/
def restoreMap (s : State) : State :=
  let s := (List.range (coreTotal s.grade)).foldl (fun s c =>
    let psn := s.obj 0x4010 1 c
    if psn < 288 ∧ s.obj 0x4010 2 psn = 3 then moveNumber s (psn / 36) c else s) s
  s.ctl.rejoin.foldl rejoinSite s

/-- The channels as the fault record leaves them: the pages of a fast-tier channel lost in service are withdrawn (R300), and a
slow-tier channel that was being remapped is remapped (R298, R299). -/
def settleChannels (s : State) : State :=
  let s := (List.range 128).foldl (fun s ch => if s.obj 0x4050 5 ch = 3 then s.setObj 0x4050 5 ch 2 else s) s
  (List.range 96).foldl (fun s ch =>
    if s.obj 0x4050 5 (128 + ch) = 3 ∧ sget (fun _ => 0) s.mem.remap ch ≠ 0 then
      restoreLines (s.setObj 0x4050 5 (128 + ch) 2) (128 + ch)
    else s) s

/-- A bundle that was paused to swap lanes serves on its spares (R354). -/
def finishSwaps (s : State) : State :=
  (List.range 96).foldl (fun s b =>
    if bundleState s b = 2 then (s.setObj 0x4060 1 b 1).setObj 0x4060 2 b (s.obj 0x4060 2 b + flagged s b) else s) s

/-- A bank that fails at a start is replaced by the spare of its slice, or folded (R227). -/
def bankAtStart (s : State) (sl b : Nat) : State :=
  if bankState s sl b = 1 ∨ 2 ≤ bankState s sl b then setBank s sl b 2
  else if bankState s sl 16 = 1 then mapNumbers (setBank (setBank s sl b 2) sl 16 0) sl 16 (bankNumbers s sl b)
  else
    match foldOnto s sl b with
    | some m =>
      let t := mapNumbers s sl (numberBank s sl m) (bankNumbers s sl b)
      flagReplace (setBank (if b = 16 then setBank t sl 16 2 else t) sl (ownNumber s sl b) 3) 1
    | none => setBank s sl b 2

/-- A bundle that fails at a start is retired, and its slots pass on. -/
def bundleAtStart (s : State) (b : Nat) : State :=
  let dir := b / 12
  let s := (s.setObj 0x4060 1 b 3).setObj 0x4060 3 dir (s.obj 0x4060 3 dir - 1)
  flagReplace (shiftPair (shiftPair ((bundleSlots s dir (b % 12)).foldl (passSlot dir) s) 0) 1) 5

/-- A slow channel that fails training is retired and remapped, where its region has room; lines of ACTIVE replicated regions come
back from their other copy (R298). -/
def slowAtStart (s : State) (chan : Nat) : State :=
  let s := if regionFull s chan then s.setObj 0x4050 5 (128 + chan) 3
    else restoreLines ((remapPages s chan).setObj 0x4050 5 (128 + chan) 2) (128 + chan)
  flagReplace s 3

/-- A fast channel is retired (R297). -/
def fastAtStart (s : State) (chan : Nat) : State := flagReplace (s.setObj 0x4050 5 chan 2) 2

/-! ## Lanes (R296, R297, R503) -/

/-- The failed lanes that the tests find in a via group of a fast-tier channel. -/
def groupLosses (l : List LaneLoss) (chan group : Nat) : Nat :=
  (l.map fun x => match x with
    | .via c g n => if c.val = chan ∧ g.val = group then n.val else 0
    | .bundle _ _ => 0).sum

/-- A fast-tier channel takes the spare lanes of its groups; one with more than 4 failed lanes in a group is retired. -/
def trainFast (l : List LaneLoss) (s : State) (chan : Nat) : State :=
  let n := (List.range 9).map (groupLosses l chan)
  if 2 ≤ s.obj 0x4050 5 chan then s
  else if n.any fun k => decide (4 < k) then fastAtStart s chan
  else (s.setObj 0x4050 6 chan n.sum).setObj 0x4050 5 chan (if n.sum = 0 then 0 else 1)

/-- A bundle takes spare lanes for those that its test finds; one with too few is retired. -/
def trainBundle (l : List LaneLoss) (s : State) (b : Nat) : State :=
  let n := (l.map fun x => match x with
    | .via _ _ _ => 0
    | .bundle c n => if c.val = b then n.val else 0).sum
  let used := s.obj 0x4060 2 b + n
  if n = 0 ∨ bundleState s b = 3 then s
  else if 8 < used then bundleAtStart s b
  else (s.setObj 0x4060 2 b used).setObj 0x4060 1 b 1

/-- Every lane result of a cold start takes effect. -/
def trainLanes (s : State) (l : List LaneLoss) : State :=
  let s := (List.range 128).foldl (trainFast l) s
  (List.range 96).foldl (trainBundle l) s

/-- The spare lanes in use: of via groups, and of bundles. -/
def laneSpares (s : State) : Nat × Nat :=
  (((List.range 128).map fun c => s.obj 0x4050 6 c).sum, ((List.range 96).map fun b => s.obj 0x4060 2 b).sum)

/-- A router that fails at a start: its site is retired, the die's tables avoid it, and its elevators are unusable (R359, R503). -/
def routerAtStart (s : State) (psn : Nat) : State :=
  let s := (retireAtStart s psn).setObj 0x4060 4 psn 1
  (attached psn).foldl loseElevator (avoidRouters s (psn / 36) (failedRouters s (psn / 36)))

/-- What a failing block loses, in self-test, in training, or because the start before it failed on it. -/
def failAtStart (s : State) (b : Block) : State :=
  let n := b.no.toNat
  let s := { s with ctl := { s.ctl with unusable := s.ctl.unusable ++ [b] } }
  match b.kind.toNat with
  | 1 => retireAtStart s n
  | 2 => routerAtStart s n
  | 3 => flagReplace (s.setObj 0x4010 3 n 1) 7
  | 4 => fastAtStart s n
  | 5 => slowAtStart s (n - 128)
  | 6 => bundleAtStart s n
  | 7 => bankAtStart s (n / 17) (n % 17)
  | 8 => flagReplace (s.setObj 0x8010 3 n 6) 7
  | 9 => flagReplace (s.setObj 0x4001 1 n 2) 6
  | _ => s

/-- Whether a block exists and may be made unusable: a kind that R510 marks "Yes", not yet unusable, and for a management
processor the other not failed. -/
def mayFail (s : State) (b : Block) : Bool :=
  let n := b.no.toNat
  !s.ctl.unusable.contains b && (match b.kind.toNat with
    | 1 => decide (n < 288) && s.obj 0x4010 2 n ≤ 1
    | 2 => decide (n < 288) && decide (s.obj 0x4060 4 n = 0)
    | 3 => decide (n < 64) && decide (s.obj 0x4010 3 n = 0)
    | 4 => decide (n < 128) && decide (s.obj 0x4050 5 n ≤ 1)
    | 5 => decide (128 ≤ n) && decide (n < 224) && decide (s.obj 0x4050 5 n ≤ 1)
    | 6 => decide (n < 96) && decide (bundleState s n ≠ 3)
    | 7 => decide (n < 68)
    | 8 => decide (n < 8) && decide (s.obj 0x8010 3 n ≠ 6)
    | 9 => decide (n < 2) && decide (s.obj 0x4001 1 (1 - n) ≠ 2)
    | _ => false)

/-- The block of the start before, where that start failed (R510). A failed firmware slot is not started again. -/
def applyPrevious (s : State) : State :=
  match s.mgmt.starts.reverse with
  | _ :: r :: _ =>
    if r.result = 2 then
      if r.failBlock.kind = 11 then setFwSlot s (r.failBlock.no.toNat % 2) { fwSlot s (r.failBlock.no.toNat % 2) with state := 3 }
      else if mayFail s r.failBlock then failAtStart s r.failBlock else s
    else s
  | _ => s

/-- Applies the failing blocks of a self-test in order, those that exist and were in use. -/
def failAll (s : State) (l : List Block) : State := l.foldl (fun s b => if mayFail s b then failAtStart s b else s) s

/-- The channels and bundles that are retired or lost: fast, slow, bundles. -/
def retiredCounts (s : State) : Nat × Nat × Nat :=
  (((List.range 128).filter fun c => decide (2 ≤ s.obj 0x4050 5 c)).length,
    ((List.range 96).filter fun c => decide (2 ≤ s.obj 0x4050 5 (128 + c))).length,
    ((List.range 96).filter fun b => decide (bundleState s b = 3)).length)

/-- The ten counts of SELF_TEST: the blocks of the failing list, and the lanes, channels and bundles newly marked between two
states. -/
def selfTestCounts (l : List Block) (s t : State) : List Nat :=
  let n (k : BitVec 8) : Nat := (l.filter fun b => b.kind = k).length
  let a := laneSpares s
  let b := laneSpares t
  let x := retiredCounts s
  let y := retiredCounts t
  [n 1, n 2, n 3, b.1 - a.1, y.1 - x.1, y.2.1 - x.2.1, b.2 - a.2, y.2.2 - x.2.2, n 7, n 8]

/-! ## The end of a start's work -/

/-- Both processors as a start leaves them: a failed one stays failed, BD0 is primary if it passes (R424). -/
def chooseProcessors (s : State) : State :=
  let bad (i : Nat) : Bool := s.ctl.unusable.contains (blockOf 9 i)
  let p : Fin 2 := if bad 0 then 1 else 0
  let s := { s with mgmt := { s.mgmt with primary := p } }
  (s.setObj 0x4001 1 0 (if bad 0 then 2 else 0)).setObj 0x4001 1 1 (if bad 1 then 2 else if bad 0 then 0 else 1)

/-- Every entry of the replica table is ACTIVE (R314), but those that `copying` names. -/
def activateReplicas (s : State) (copying : List Nat) : State :=
  (List.range 64).foldl (fun s i => s.setObj 0x2051 2 i (if repPages s i = 0 then 0 else if copying.contains i then 1 else 2)) s

/-- PORT_STATE: 0 DISABLED, 1 NO_LIGHT, 2 TRAINING, 3 UP, 4 UP_REDUCED, 5 MISMATCH, 6 FAILED. -/
def portState (s : State) (p : Nat) : Nat := s.obj 0x8010 3 p

/-- The domains PD16 and PD17 follow the ports they feed. -/
def portDomains (s : State) : State :=
  let all (a : Nat) : Bool := (List.range 4).all fun i => portState s (a + i) = 0
  { s with power := { s.power with
    domains := BitVec.ofNat 20 (putBits (putBits s.power.domains.toNat 16 1 (b2n !(all 0))) 17 1 (b2n !(all 4))) } }

/-- TICK_ALIGN_STATE as a role leaves it: 0 free-running, 1 leader, 3 acquiring. -/
def roleState (role : Nat) : Nat := if role = 2 then 3 else role

/-- The configuration takes effect: race mode, set points, ports held DISABLED, monitors (R268, R387, R433, R483). -/
def applyConfig (s : State) : State :=
  let s := { latchLimits s with
    coh := { s.coh with raceMode := s.obj 0x2040 1 0 }
    mgmt := { s.mgmt with cfgApplied := true } }
  let s := updateSetPoints s
  let s := (List.range 8).foldl (fun s p =>
    if s.obj 0x8010 3 p ≠ 6 ∧ s.obj 0x8010 1 p = 0 then s.setObj 0x8010 3 p 0 else s) s
  let s := (portDomains s).setObj 0x8000 5 0 (roleState (s.obj 0x8000 3 0))
  (List.range 32).foldl monRestart s

/-- Marks the start's work as done and completes its record, which is written at the end of each step. -/
def finishWork (s : State) (ends : List (BitVec 32)) (f : StartRec → StartRec) : State :=
  let steps := if (s.ctl.start.map StartRun.cold) = some true then 10 else 8
  let s := (List.range (steps - 1)).foldl (fun s _ => printStart s) s
  let s := setRecord s fun r => f { r with
    step := if r.kind = 1 then 10 else 8
    processor := s.mgmt.primary.val
    slot := s.obj 0x1000 8 0
    straps := strapBits s
    stepEnds := ends.map BitVec.toNat }
  { s with ctl := { s.ctl with start := s.ctl.start.map fun x => { x with done := true } } }

/-- Whether a start with a cause is at work and may end its steps: its clocks and a feed are there. -/
def startAtWork (s : State) (cold : Bool) (cause : BitVec 8) : Bool :=
  (match s.ctl.start with
    | some r => r.cold == cold && decide (r.cause = cause.toNat) && !r.done && !r.failed
    | none => false) && s.power.refclk && !s.power.counting && (s.power.feedA.valid || s.power.feedB.valid) &&
    (chooseSlot (applyPrevious s)).isSome

/-- COLD_START (R500): the steps from power sequencing to the persistent configuration, `failed` being the blocks that fail
self-test or training and `lanes` the lanes that their tests find failed. -/
def execColdStart (cause : BitVec 8) (failed : List Block) (lanes : List LaneLoss) (stepEndUs : List (BitVec 32))
    (s : State) : Out :=
  guarded (startAtWork s true cause && decide (stepEndUs.length ≤ 11)) <|
    let s := { s with
      ctl := { s.ctl with straps := s.ctl.strapPins }
      mgmt := { s.mgmt with ringDriven := true }
      power := { s.power with
        domains := BitVec.allOnes 20
        pllLocked := true
        selfRefresh := false
        lasersDark := false
        counting := false } }
    let s := s.setObj 0x9000 9 0 (bits s.ctl.straps.toNat 3 1)
    let s := { s with mgmt := { s.mgmt with identity := true } }
    let s := settleChannels (applyPrevious (finishSwaps s))
    let s := runSlot s ((chooseSlot s).getD 0)
    let new := failed.filter (mayFail s)
    let t := restoreMap (chooseProcessors (trainLanes (failAll s new) lanes))
    let counts := selfTestCounts new s t
    let s := { t with mem := emptyMemory t.mem }
    let s := (s.setObj 0x2050 3 0 (s.obj 0x2050 1 0)).setObj 0x2050 3 1 (s.obj 0x2050 2 0)
    let s := applyConfig (activateReplicas s [])
    finishWork s stepEndUs fun r => { r with selfTest := counts }

/-! ## Warm start (R506 to R508) -/

/-- The pages that hold a hard-pinned line. -/
def hardPages (s : State) : List Nat :=
  (s.coh.home.filterMap fun p =>
    if p.2.hard && !(keyLine p.1).host then some ((keyLine p.1).no / 128) else none).eraseDups

/-- The writes and mark-only updates that wait at the controllers are made (R292, R305). -/
def flushControllers (s : State) : State :=
  s.mem.ctrl.foldl (fun s p => (p.2.active ++ p.2.wr).foldl (fun s o =>
    match o.kind with
    | .write => ctrlWrite s o.line o.data o.marks
    | .mark => if pageLost s o.line then s else setDiscard s o.line
    | .read | .fix | .pages => s) s) { s with mem := { s.mem with ctrl := [] } }

/-- Every dirty line goes to memory, and a discarded line leaves its mark there (R229, R241). -/
def writeBackAll (s : State) : State := flushControllers (s.coh.home.foldl (fun s p => evictHome s (keyLine p.1)) s)

/-- Whether the stopped commands' writes to device memory and the messages about its lines are over (R506 step 1). -/
def stopDone (s : State) : Bool :=
  (s.cores.all fun p => p.2.mq.isEmpty && (p.2.writes.all fun w => w.msg.line.host || w.peer.isSome) &&
    p.2.xfers.all fun x => !x.out || x.lines.all fun y => y.line.host) &&
    (s.coh.net.all fun f => f.msg.line.host) && s.coh.home.all fun p => settled s (keyLine p.1) || (keyLine p.1).host

/-- The verification scrub of one run of pages; `errs` is what the array returns. -/
def verifyPages (errs : List (Nat × ArrayErr)) (r : State × Tally) (run : Nat × Nat) : State × Tally :=
  scrubPages none errs (32 * run.2) (65536 * run.1) r.1 r.2

/-- The replica entries that are COPYING. -/
def copyingNow (s : State) : List Nat := (List.range 64).filter fun i => decide (s.obj 0x2051 2 i = 1)

/-- Replica entries that were COPYING at the trigger are copied in full and are ACTIVE (R507). -/
def finishCopies (s : State) (copying : List Nat) : State :=
  copying.foldl (fun s i =>
    (copyLines s (repPrimary s i / 512) (repMirror s i / 512) (repPages s i * 128)).setObj 0x2051 2 i 2) s

/-- The runs of pages that the verification scrub covers (R507). -/
def verifyRuns (s : State) (copying pages : List Nat) : List (Nat × Nat) :=
  ((List.range 64).flatMap fun i =>
    if s.obj 0x2051 2 i = 2 ∧ copying.contains i = false then [(repPrimary s i / 65536, repPages s i), (repMirror s i / 65536, repPages s i)] else []) ++
    pages.map fun p => (p, 1)

/-- Whether a step that a reset ended still waits for an entry that its queue could take (R506 step 1). -/
def entriesLeft (s : State) : Bool := s.sage.steps.any fun t => cqOpen s t.fn.val t.cq

/-- WARM_START (R506): the steps from the stop to the persistent configuration; `errs` is what the array returns to the
verification scrub. -/
def execWarmStart (cause : BitVec 8) (errs : List (Nat × ArrayErr)) (stepEndUs : List (BitVec 32)) (s : State) : Out :=
  guarded (startAtWork s false cause && decide (stepEndUs.length ≤ 11) && !entriesLeft s && stopDone s) <|
    let pages := hardPages s
    let copying := copyingNow s
    let s := logicReset (finishSwaps (writeBackAll s))
    let s := { s with
      mem := { s.mem with pinnedPages := pages }
      mgmt := { s.mgmt with ringDriven := true }
      power := { s.power with
        pllLocked := true
        selfRefresh := false
        lasersDark := false
        counting := false } }
    let s := settleChannels (applyPrevious (activateReplicas s copying))
    let s := chooseProcessors (runSlot s ((chooseSlot s).getD 0))
    let n := (copying.map (repPages s)).sum
    let s := finishCopies s copying
    let v := (verifyRuns s copying pages).foldl (verifyPages errs) (s, Tally.zero)
    let s := applyConfig (restoreMap v.1)
    finishWork s stepEndUs fun r => { r with
      verify := [v.2.scanned, v.2.fixed, v.2.lost, v.2.repaired, n] }

/-! ## Release, failure and hold (R505, R509 to R512) -/

/-- Whether self-test leaves a ring direction with no bundle, or no serving core in service (R505). -/
def mustHold (s : State) : Bool :=
  ((List.range 8).any fun d => s.obj 0x4060 3 d = 0) || (List.range (coreTotal s.grade)).all fun c => !inService s c

/-- Whether the start in progress has done its work. -/
def startDone (s : State) : Bool :=
  match s.ctl.start with
  | some r => r.done && !r.failed
  | none => false

/-- The functions that become READY at release. -/
def readyAll (s : State) : State :=
  (enabledVfs s).foldl (fun s f => s.setFn f.val 2) (s.setFn 0 2)

/-- RELEASE: tick 0 begins at a whole multiple of the tick period, the PF and the enabled VFs are READY, and a start that is
not on a trial slot clears START_FAILS (R37, R499, R508, R511). An open latch starts a drain (R532, R533). -/
def execRelease (s : State) : Out :=
  guarded (startDone s && !mustHold s) <|
    let p := 1000 * s.obj 0x2010 1 0
    let t := (s.now + p - 1) / p * p
    let s := { s with
      now := t
      ctl := { s.ctl with start := none } }
    let s := ((s.setModule 0).setObj 0x2010 3 0 0).setObj 0x2010 4 0 t
    let s := if s.mgmt.trial then s else s.setObj 0x5010 2 0 0
    let s := setRecord s fun r => { r with
      result := 1
      step := r.step + 1
      fails := s.obj 0x5010 2 0 }
    let s := readyAll s
    if latchOpen s || s.ctl.drainLater then latchDrain { s with ctl := { s.ctl with drainLater := false } } else s

/-- START_STEP_TIMEOUT: the start fails in a step on a block (R501, R509). -/
def execStartStepTimeout (step : Fin 12) (b : Block) (detail : BitVec 32) (s : State) : Out :=
  match s.ctl.start with
  | none => cannot
  | some r =>
    guarded (!r.failed && !r.done && decide (1 ≤ step.val) && decide (step.val ≤ if r.cold then 10 else 8)) <|
      let s := s.setObj 0x5010 2 0 (satAdd 8 (s.obj 0x5010 2 0) 1)
      let s := setRecord s fun x => { x with
        result := 2
        step := step.val
        failBlock := b
        failDetail := detail
        fails := s.obj 0x5010 2 0 }
      { s with ctl := { s.ctl with start := some { r with failed := true } } }

/-- A trial slot is given up: it is failed and NEXT_SLOT names the other (R463). -/
def revertSlot (s : State) (i : Nat) : State :=
  let s := setFwSlot s i { fwSlot s i with state := 3 }
  let s := s.setObj 0x6010 5 0 (1 - i)
  { s with mgmt := { s.mgmt with trial := false } }

/-- The trial slot that a failed start was to run, once it came to its firmware check (R463, R500, R506). -/
def failedTrial (s : State) (r : StartRun) : Option Nat :=
  match s.mgmt.starts.getLast?, chooseSlot s with
  | some x, some i => if (fwSlot s i).state = 2 ∧ (if r.cold then 5 else 4) ≤ x.step then some i else none
  | _, _ => none

/-- START_FAILED: the next start begins: a warm start on the other slot where a trial slot failed, else a cold start of
cause 03h (R463, R509, R511). -/
def execStartFailed (s : State) : Out :=
  match s.ctl.start with
  | none => cannot
  | some r =>
    guarded (r.failed && decide (s.obj 0x5010 2 0 < 3))
      (match failedTrial s r with
        | some i => beginWarm (revertSlot s i) 7
        | none => beginCold s 3)

/-- Service hold (R512): PD18 and PD19 stay up and the dictionary is served from ROM. -/
def enterHold (s : State) : State :=
  let s := logicReset s
  let s := { s with
    mem := emptyMemory s.mem
    power := { s.power with
      domains := holdDomains
      pllLocked := false
      lasersDark := true }
    ctl := { s.ctl with start := none } }
  setService (s.setModule 4) 3

/-- SERVICE_HOLD: no valid image, a manufacturing record that fails its signature (`recordBad`), a ring direction or every core lost
in self-test, or a third failed start (R502, R505, R511). -/
def execServiceHold (recordBad : Bool) (s : State) : Out :=
  match s.ctl.start with
  | none => cannot
  | some r =>
    if r.failed then guarded (decide (3 ≤ s.obj 0x5010 2 0)) (enterHold s)
    else guarded ((r.done && mustHold s) || (!r.done && (recordBad || (chooseSlot (applyPrevious s)).isNone)))
      (enterHold (setRecord s fun x => { x with result := 3 }))

end Sys2Proof.Machine
end

