-- ==== Sys2Proof/Machine/Ports.lean ====
section
/-!
DEFINITION. The optical peer ports: light, training, fibres, fail-over, arrivals from a partner, and tick alignment (R364 to
R387).
-/
namespace Sys2Proof.Machine

/-! ## Ports -/

/-- Sets PORT_STATE. -/
def setPortState (s : State) (p v : Nat) : State := s.setObj 0x8010 3 p v

/-- PORT_FIBRES: [7:0] transmit, [15:8] receive. -/
def portFibres (s : State) (p : Nat) : Nat := s.obj 0x8010 5 p

/-- What a port is doing. -/
def portRt (s : State) (p : Nat) : PortRt := sget (fun _ => PortRt.dark) s.peer.ports p

/-- Sets it. -/
def setPortRt (s : State) (p : Nat) (r : PortRt) : State :=
  { s with peer := { s.peer with ports := sset (fun _ => PortRt.dark) s.peer.ports p r } }

/-- Whether the ports work: the configuration applies, and the lasers are not held dark. -/
def portsWork (s : State) : Bool := s.mgmt.cfgApplied && !s.power.lasersDark

/-- What a port's front-panel indicator shows (R377). -/
def portIndicator (s : State) (p : Nat) : String :=
  if s.power.domains.getLsbD (16 + p / 4) = false ∨ portState s p = 0 then "off"
  else if portState s p = 1 then "amber"
  else if portState s p = 2 then "green 2 Hz"
  else if portState s p = 3 then "green"
  else if portState s p = 4 then "green, amber flash 1 s"
  else "amber 2 Hz"

/-! ## Packets that fail, and fail-over (R375, R376) -/

/-- An unanswered packet fails: the write or atomic is dropped, or the command's step faults. -/
def failPacket (cause : Nat) (s : State) (p : PeerSent) : State :=
  let s := releasePeer { s with peer := { s.peer with sent := s.peer.sent.filter fun q => q != p } } p.partner
  if p.core < 256 then
    match (s.core p.core).writes.find? fun w => decide (w.tag = p.tag) && w.msg.line == p.line with
    | none => s
    | some w => pump (dropWrite s p.core w cause) p.core
  else endPacket s p (some cause)

/-- An unanswered packet of a port that went down is sent again on the new port of its slot; with no port left it fails. -/
def resendPacket (s : State) (p : PeerSent) : State :=
  match dealPort s p.partner (routeSlot p.pk.remoteVa.toNat) with
  | none => failPacket 0x25 s p
  | some q =>
    let x := { p with
      port := q
      pk := { p.pk with port := Fin.ofNat 8 q }
      sentNs := s.now }
    let s := { s with peer := { s.peer with sent := updFirst (fun y => y == p) (fun _ => x) s.peer.sent } }
    if x.held then s else emitPeer s x

/-- The class-0 steps that wait for an answer through a port, which its loss touches (R70). -/
def touchSteps (s : State) (p : Nat) : State :=
  let keys := (s.peer.sent.filter fun x => x.port = p).map fun x =>
    if x.core < 256 then (match (s.core x.core).cmd with
      | some c => c.step
      | none => x.step) else x.step
  markFault s fun t => keys.contains t.key

/-- A port goes down: it drops its link state, the group's slots are dealt again, and what the partner has not answered is
sent again on the ports that remain (R352, R375, R376). A port that carried traffic is recorded. -/
def portDown (s : State) (p new : Nat) : State :=
  let was := portUp s p
  let lost := s.peer.sent.filter fun x => x.port = p
  let partner := bits (s.obj 0x8010 4 p) 0 16
  let busy := !lost.isEmpty || !(linkOf s (96 + p)).wait.isEmpty
  let s := if was then touchSteps s p else s
  let s := ((setPortState s p new).setObj 0x8010 5 p 0).setObj 0x8010 4 p 0
  let s := setLink (setPortRt s p PortRt.dark) (96 + p) LinkDir.fresh
  if was then
    let s := if busy then s.bump 0x30A0 5 p 1 else s
    let left := (groupPorts s partner).length
    let s :=
      if left = 0 then
        hwRecord s { LogRec.blank with
          severity := 2
          cause := 0x57
          block := blockNo (blockOf 8 p) }
      else takeoverNow s 0x57 1 (blockOf 8 p) 0
    lost.foldl resendPacket s
  else s

/-! ## Light and training (R366, R371, R372, R375) -/

/-- LOSS_OF_LIGHT. -/
def execLossOfLight (p : Fin 8) (s : State) : Out :=
  guarded (decide (2 ≤ portState s p.val) && decide (portState s p.val ≤ 5)) (portDown s p.val 1)

/-- POWER_REDUCE: a port that has shown no light for 1 ms reduces its transmit power. -/
def execPowerReduce (p : Fin 8) (s : State) : Out :=
  let r := portRt s p.val
  guarded (portsWork s && decide (portState s p.val = 1) && !r.light && !r.reduced)
    ((setPortRt s p.val { r with reduced := true }).emit (.light p.val false))

/-- PROBE: 2 ms of normal light. -/
def execProbe (p : Fin 8) (s : State) : Out :=
  guarded (portsWork s && (portRt s p.val).reduced) ((s.emit (.light p.val true)).emit (.light p.val false))

/-- LIGHT_DETECT: full power, and training starts. -/
def execLightDetect (p : Fin 8) (s : State) : Out :=
  guarded (portsWork s && decide (portState s p.val = 1) && decide (s.obj 0x8010 1 p.val ≠ 0))
    ((setPortState (setPortRt s p.val { PortRt.dark with
      light := true
      lasers := true }) p.val 2).emit (.light p.val true))

/-- TRAINING_TIMEOUT: training starts again from the first light, so what it had found goes. -/
def execTrainingTimeout (p : Fin 8) (s : State) : Out :=
  guarded (decide (portState s p.val = 2)) (setPortRt s p.val { portRt s p.val with removed := [] })

/-- Whether IDENT refuses a partner (R372). -/
def identMismatch (s : State) (p partner : Nat) : Bool :=
  let me := s.obj 0x8000 1 0
  let want := s.obj 0x8010 2 p
  decide (me = 0) || decide (partner = 0) || decide (partner = me) || (decide (want ≠ 0) && decide (want ≠ partner))

/-- TICK_ROLE: 0 free-running, 1 leader, 2 follower. -/
def tickRole (s : State) : Nat := s.obj 0x8000 3 0

/-- The lowest-numbered source port of a follower that is up (R383). -/
def tickSource (s : State) : Option Nat := (List.range 8).find? fun p => bit (s.obj 0x8000 4 0) p && portUp s p

/-- The clean tests of the fibres that training left out: none yet. -/
def unlocked (tx rx : Nat) : Sparse Nat :=
  (List.range 16).foldl (fun m k =>
    if bit (if k < 8 then tx else rx) (k % 8) then m else sset (fun _ => 10) m k 0) []

/-- IDENT: the port shows its partner and fibres, and carries traffic with its credits at zero, or is in MISMATCH. A
direction with no fibre does not train (R370). -/
def execIdent (p : Fin 8) (partner : BitVec 16) (partnerPort : Fin 8) (periodUs : BitVec 32) (tx rx : BitVec 8) (s : State) : Out :=
  guarded (portsWork s && decide (portState s p.val = 2) && tx != 0 && rx != 0) <|
    let s := s.setObj 0x8010 4 p.val (partner.toNat + 65536 * partnerPort.val)
    let s := s.setObj 0x8010 5 p.val (tx.toNat + 256 * rx.toNat)
    if identMismatch s p.val partner.toNat then setPortState s p.val 5
    else
      let s := setLink (setPortRt s p.val { portRt s p.val with removed := unlocked tx.toNat rx.toNat }) (96 + p.val) LinkDir.fresh
      let s := setPortState s p.val (if tx = 255 ∧ rx = 255 then 3 else 4)
      if tickRole s = 2 ∧ tickSource s = some p.val ∧ periodUs.toNat ≠ tickPeriod s then s.setObj 0x8000 5 0 5 else s

/-! ## Fibres (R370) -/

/-- The key of a fibre: transmit 0 to 7, receive 8 to 15, which is its bit of PORT_FIBRES. -/
def fibreKey (rx : Bool) (fibre : Fin 8) : Nat := 8 * b2n rx + fibre.val

/-- FIBRE_REMOVED: the sender deals over the fibres that remain and resends from the last ACK; with none left the port goes
down. Its corrected symbols of 1 ms exceed FIBRE_SER_LIMIT, or it lost lock or failed a test. -/
def execFibreRemoved (p : Fin 8) (rx : Bool) (fibre : Fin 8) (symbols : Nat) (failed : Bool) (s : State) : Out :=
  let k := fibreKey rx fibre
  guarded (portUp s p.val && bit (portFibres s p.val) k && (failed || decide (s.obj 0x8010 6 0 < symbols))) <|
    let f := putBits (portFibres s p.val) k 1 0
    let s := takeoverNow s 0x56 1 (blockOf 8 p.val) 0
    if bits f (8 * b2n rx) 8 = 0 then portDown s p.val 1
    else
      let r := portRt s p.val
      let s := setPortState (s.setObj 0x8010 5 p.val f) p.val 4
      let s := setPortRt s p.val { r with removed := sset (fun _ => 10) r.removed k 0 }
      if rx then s else resendAll s (96 + p.val)

/-- FIBRE_RETEST: ten clean tests on end bring a fibre back. -/
def execFibreRetest (p : Fin 8) (rx : Bool) (fibre : Fin 8) (clean : Bool) (s : State) : Out :=
  let k := fibreKey rx fibre
  let r := portRt s p.val
  let n := sget (fun _ => 10) r.removed k
  guarded (portUp s p.val && decide (n < 10)) <|
    let m := if clean then n + 1 else 0
    let s := setPortRt s p.val { r with removed := sset (fun _ => 10) r.removed k m }
    if m = 10 then
      let f := putBits (portFibres s p.val) k 1 1
      setPortState (s.setObj 0x8010 5 p.val f) p.val (if f = 65535 then 3 else 4)
    else s

/-- OPTICAL_ENGINE_FAILED: the port is FAILED and the module is flagged for replacement (R387, R529). -/
def execOpticalEngineFailed (p : Fin 8) (s : State) : Out :=
  guarded (s.mgmt.cfgApplied && decide (1 ≤ portState s p.val) && decide (portState s p.val ≤ 5)) <|
    let s := portDown s p.val 6
    flagReplace { s with ctl := { s.ctl with unusable := s.ctl.unusable ++ [blockOf 8 p.val] } } 7

/-! ## PORT_ENABLE (R387, R473) -/

/-- PORT_ENABLE takes effect: 0 holds a port DISABLED; a port enabled again starts from NO_LIGHT. A FAILED port stays
FAILED. -/
def enablePort (s : State) (p val : Nat) : State :=
  let s := s.setObj 0x8010 1 p val
  if portState s p = 6 then s
  else if val = 0 then (if portState s p = 0 then s else portDomains ((portDown s p 0).emit (.light p false)))
  else if portState s p = 0 then portDomains (setPortState s p 1)
  else s

/-! ## Arrivals (R380, R381) -/

/-- A grant entry of a function (R388). -/
def grantEntry (s : State) (fn i : Nat) : Nat := sget (fun _ => 0) s.host.grants (fn * 16 + i)

/-- Whether a grant admits a packet. -/
def grantAdmits (g : Nat) (pk : PeerPacket) : Bool :=
  let va := pk.remoteVa.toNat / 512 * 512
  (decide (bits g 128 16 = 0) || decide (bits g 128 16 = pk.srcModule.toNat)) &&
    (decide (bits g 144 8 = 255) || decide (bits g 144 8 = pk.srcFn.val)) &&
    decide (winBase g ≤ va) && decide (va + 512 ≤ winBase g + winLength g) && bit g 152

/-- Whether the receiving function and its grants admit a packet. -/
def grantsAdmit (s : State) (pk : PeerPacket) : Bool :=
  fnActs s pk.dstFn && (List.range 16).any fun i => grantAdmits (grantEntry s pk.dstFn.val i) pk

/-- The first and one past the last byte of a mask. -/
def maskHull (m : ByteMask) : Nat × Nat :=
  let l := maskRuns m.toNat 512 0 0
  match l.head?, l.getLast? with
  | some a, some b => (a.1, b.1 + b.2)
  | _, _ => (0, 0)

/-- A deposit of a peer write (R246, R379): its span from the first written byte to the last; the bytes written land. -/
def peerDeposit (s : State) (pk : PeerPacket) (c : Nat) : State :=
  let h := maskHull pk.mask
  let k := s.core c
  let off := pk.lmemOff.toNat
  match k.cmd with
  | none => dropDeposit s c
  | some x =>
    if inService s c ∧ x.fn = pk.dstFn ∧ off + h.2 ≤ x.window then
      s.setCore c ((maskRuns pk.mask.toNat 512 0 0).foldl (fun k r =>
        let bad : List Span := (List.range 4).filterMap fun q =>
          let lo := max r.1 (128 * q)
          let hi := min (r.1 + r.2) (128 * q + 128)
          if pk.marks.getLsbD q && decide (lo < hi) then some (off + lo, hi - lo) else none
        k.deposit { core := Fin.ofNat 256 c, off := off + r.1, len := r.2, data := lineBytes pk.data r.1 r.2, bad := bad }) k)
    else dropDeposit s c

/-- What a peer write's hint does beside the write (R245, R246): a deposit, or a hint outside R48 that is ignored and counted. -/
def peerHint (s : State) (pk : PeerPacket) : State :=
  let h := pk.hint.toNat
  if h = 0 ∨ (0x100 ≤ h ∧ h ≤ 0x107) then s
  else if 0x8000 ≤ h ∧ h < 0x8000 + coreTotal s.grade then peerDeposit s pk (h - 0x8000)
  else s.bump 0x3071 1 0 1

/-- Applies a packet that was admitted and translated to a line. -/
def applyPacket (s : State) (pk : PeerPacket) (l : Line) : State :=
  let fn := pk.dstFn
  let va := pk.remoteVa.toNat / 512 * 512
  let p := pk.port.val
  let done (code : Nat) (ops : List LaneOp) : PeerDone :=
    { module := pk.srcModule.toNat, seq := pk.seq.toNat, code := code, ops := ops }
  if pk.isRed then
    let r := { pk.red with
      src := agentPort p
      fn := fn
      line := l
      data := pk.data
      mask := pk.mask
      marks := pk.marks
      seq := pk.seq.toNat }
    dirtyMark { s with
      net := { s.net with redNet := s.net.redNet ++ [r] }
      peer := { s.peer with taken := s.peer.taken ++ [⟨p, pk.srcModule.toNat, pk.seq.toNat⟩] } } fn va l.host
  else if pk.isAtom then
    let r := cohAtom s (agentPort p) fn 6 false l pk.kind pk.ops
    answerPeer (dirtyMark r.2 fn va l.host) p (done (b2n r.1.2) r.1.1)
  else
    let s := peerHint (cohWrite s (agentPort p) fn 6 l pk.data pk.mask pk.marks pk.hint.toNat false) pk
    answerPeer (dirtyMark s fn va l.host) p (done 0 [])

/-- A refused packet. -/
def refusePacket (s : State) (pk : PeerPacket) (code : Nat) : State :=
  answerPeer (s.bump 0x30A0 4 pk.port.val 1) pk.port.val
    { module := pk.srcModule.toNat, seq := pk.seq.toNat, code := code, ops := [] }

/-- The reply that is kept for a packet which was applied before. -/
def keptAnswer (s : State) (pk : PeerPacket) : Option PeerDone :=
  s.peer.answered.reverse.find? fun d => decide (d.module = pk.srcModule.toNat) && decide (d.seq = pk.seq.toNat)

/-- Whether a packet is a resend of a reduction packet whose acknowledgement is still to come. -/
def stillTaken (s : State) (pk : PeerPacket) : Bool :=
  s.peer.taken.any fun t => decide (t.module = pk.srcModule.toNat) && decide (t.seq = pk.seq.toNat)

/-- PEER_ARRIVAL: a resend is answered from the record; a packet that the grants or the translation refuse is refused; any
other is applied, unless a transaction holds its line BUSY, when it arrives later (log entry 13). -/
def execPeerArrival (pk : PeerPacket) (s : State) : Out :=
  if portUp s pk.port.val = false then cannot
  else match keptAnswer s pk with
  | some d => .next (s.emit (.peerReply pk.port.val d.seq d.code d.ops))
  | none =>
    if stillTaken s pk then .next s
    else if grantsAdmit s pk = false then .next (refusePacket s pk 2)
    else
      let va := pk.remoteVa.toNat / 512 * 512
      let r := vline s ⟨agentPort pk.port, pk.dstFn, 6, false, false, 0⟩ va true
      match r.1 with
      | .error (.readonly _) => .next (refusePacket r.2 pk 2)
      | .error (.unmapped _ _) => .next (refusePacket r.2 pk 3)
      | .error .busy => cannot
      | .ok l => .next (applyPacket r.2 pk l)

/-- The place of a packet's sender in the counts per die (R340); a command's packet counts at the port's die. -/
def senderDie (s : State) (x : PeerSent) : Nat :=
  if x.core < 256 then dieIndex (siteOfCore s x.core) else dieIndex (0x140 + x.port)

/-- The agent that times a packet to a port: the site of its core, or the port's own die. -/
def peerSender (s : State) (x : PeerSent) : Nat := if x.core < 256 then siteOfCore s x.core else agentPort x.port

/-- A packet is sent again; after 8 resends its sender reports the path (R342). -/
def resendPeer (s : State) (x : PeerSent) : State :=
  let y := { x with
    resends := x.resends + 1
    sentNs := s.now }
  let s := s.bump 0x3090 3 (senderDie s x) 1
  let s := { s with
    peer := { s.peer with sent := updFirst (fun z => z == x) (fun _ => y) s.peer.sent }
    net := { s.net with pathReports := if x.resends = 8 then s.net.pathReports ++ [(peerSender s x, agentPort x.port)]
      else s.net.pathReports } }
  emitPeer s y

/-- PEER_E2E_TIMEOUT: no reply for PEER_E2E_TIMEOUT_US: the packet is sent again, 16 times at most, then it fails (R340, R342,
R381). -/
def execPeerE2eTimeout (p : Fin 8) (seq : BitVec 16) (ns : Nat) (s : State) : Out :=
  match s.peer.sent.find? fun x => !x.held && decide (x.port = p.val) && decide (x.seq = seq.toNat) with
  | none => cannot
  | some x =>
    guarded (notBefore s ns && decide (x.sentNs + 1000 * s.obj 0x8000 2 0 ≤ ns)) <|
      if x.resends < 16 then resendPeer (s.at ns) x else failPacket 0x28 (s.at ns) x

/-! ## Tick alignment (R383 to R386) -/

/-- A 32-bit two's complement value. -/
def toI32 (x : Int) : Nat := (x % 2 ^ 32).toNat

/-- The offset of a follower, where I32 holds it; a larger one is not stated (log entry 35). -/
def measuredOffset (s : State) (off : Int) : State :=
  if -(2 ^ 31) ≤ off ∧ off < 2 ^ 31 then s.setObj 0x8000 6 0 (toI32 off)
  else
    let r := drawFree s
    r.2.setObj 0x8000 6 0 (r.1.toNat % 2 ^ 32)

/-- The trim that the follower takes: any within 1,000 ppm (R385, log entry 9). -/
def takeTrim (s : State) : State :=
  let r := drawFree s
  r.2.setObj 0x8000 7 0 (toI32 ((r.1.toNat % 2000001 : Nat) - 1000000))

/-- TIME_STAMP_EXCHANGE: the offset is ((t2 - t1) - (t4 - t3)) / 2, the source's time being offset behind the follower's
(log entry 35). A source of another tick period is not followed. -/
def execTimeStampExchange (p : Fin 8) (t1 t2 t3 t4 : Int) (srcLocked : Bool) (srcPeriodUs : BitVec 32) (s : State) : Out :=
  guarded (decide (tickRole s = 2) && bit (s.obj 0x8000 4 0) p.val && portUp s p.val && srcLocked && s.mgmt.cfgApplied) <|
    let s := s.emit (.timeStamp p.val)
    if srcPeriodUs.toNat ≠ tickPeriod s then s.setObj 0x8000 5 0 5
    else
      let off := ((t2 - t1) - (t4 - t3)) / 2
      let st := s.obj 0x8000 5 0
      let s := measuredOffset s off
      if st = 2 then takeTrim s
      else
        let far := decide (1000 < off) || decide (off < -1000)
        let s := if !s.peer.locked || far then { s with sage := { s.sage with timeStep := -off } } else s
        ({ s with peer := { s.peer with locked := true } }).setObj 0x8000 5 0 2

/-- HOLDOVER: no source port of a follower is up; the last trim stays. -/
def execHoldover (s : State) : Out :=
  let st := s.obj 0x8000 5 0
  guarded (decide (tickRole s = 2) && (st == 2 || st == 3 || st == 5) &&
    (List.range 8).all fun p => !(bit (s.obj 0x8000 4 0) p && portUp s p)) (s.setObj 0x8000 5 0 4)

end Sys2Proof.Machine
end

