-- ==== Sys2Proof/Machine/DictWrite.lean ====
section
/-!
DEFINITION. What a dictionary write does to an object once the request is well formed (R431 to R433): the stored value, the
checks that an object's own rule adds, and the effects. The answer is a status code of R442 and the state; a refused write
changes nothing but where its rule says so (R323, R325).
-/
namespace Sys2Proof.Machine

/-! ## Status codes (R442) -/

/-- OK. -/
def stOk : Nat := 0
/-- NO_OBJECT. -/
def stNoObject : Nat := 1
/-- ACCESS. -/
def stAccess : Nat := 2
/-- NOT_QUIESCED. -/
def stNotQuiesced : Nat := 3
/-- RANGE. -/
def stRange : Nat := 4
/-- TYPE. -/
def stType : Nat := 5
/-- BUSY. -/
def stBusy : Nat := 6
/-- NOT_AUTHORISED. -/
def stNotAuthorised : Nat := 7
/-- OFFSET. -/
def stOffset : Nat := 8
/-- SERVICE_HOLD. -/
def stServiceHold : Nat := 10
/-- NO_RESOURCE. -/
def stNoResource : Nat := 11
/-- BAD_OP. -/
def stBadOp : Nat := 12
/-- STATE. -/
def stState : Nat := 13

/-- The answer to a write: a status code and the state. -/
abbrev Answer := Nat × State

/-- A write that is accepted where `ok` holds, and refused with RANGE elsewhere. -/
def ranged (ok : Bool) (s t : State) : Answer := if ok then (stOk, t) else (stRange, s)

/-! ## Clears -/

/-- Returns element `e` of an object to its default. -/
def resetElem (idx e : Nat) (s : State) (sub : Nat) : State := s.setObj idx sub e (dictDefault s.grade (dkey idx sub e))

/-- Returns subindices `lo` to `hi` of an index to their defaults. -/
def clearSubs (s : State) (idx lo hi : Nat) : State :=
  (List.range (hi + 1 - lo)).foldl (fun s i => s.clearObj idx (lo + i)) s

/-- A clear of per-core counters: a core number, or FFFFh for every core (R106, R144, R174, R250). -/
def clearCore (s : State) (idx n v : Nat) : Answer :=
  if v = 0xFFFF then (stOk, clearSubs s idx 1 n)
  else ranged (decide (v < coreTotal s.grade)) s ((List.range n).foldl (fun s i => resetElem idx v s (1 + i)) s)

/-- ACCT_CLEAR: the record of an index is zero, its WAIT_MIN_NS all ones (R77). -/
def clearAcct (s : State) (v : Nat) : Answer :=
  ranged (decide (v ≤ 16383)) s { s with sage := { s.sage with acct := sclear s.sage.acct (64 * v) (64 * (v + 1)) } }

/-- CACHE_CTR_CLEAR: a function number, or FFFFh for all (R250). -/
def clearCacheCtr (s : State) (v : Nat) : Answer :=
  if v = 0xFFFF then (stOk, { s with coh := { s.coh with cacheCtr := [] } })
  else ranged (decide (v < 256)) s
    { s with coh := { s.coh with cacheCtr := sclear s.coh.cacheCtr (128 * v) (128 * (v + 1)) } }

/-- COHERENCE_CTR_CLEAR: a slice, or FFFFh for every counter (R284). -/
def clearCoherence (s : State) (v : Nat) : Answer :=
  if v = 0xFFFF then (stOk, clearSubs s 0x3072 1 6)
  else ranged (decide (v < 4)) s ((List.range 5).foldl (fun s i => resetElem 0x3072 v s (1 + i)) s)

/-- A clear that takes FFh only. -/
def clearAll (s : State) (idx hi v : Nat) : Answer := ranged (decide (v = 0xFF)) s (clearSubs s idx 1 hi)

/-- CE_TABLE_CLEAR: 0 fast, 1 slow, FFh both (R328). -/
def clearCeTable (s : State) (v : Nat) : Answer :=
  let one (s : State) (t : Nat) : State := resetElem 0x4050 t (s.clearObj 0x4050 (1 + t)) 3
  if v = 0xFF then (stOk, one (one s 0) 1) else ranged (decide (v < 2)) s (one s v)

/-- SENSOR_CLEAR: a sensor number, or FFFFh: minimum and maximum hold NaN until the next sample (R450). -/
def clearSensor (s : State) (v : Nat) : Answer :=
  if v = 0xFFFF then (stOk, clearSubs s 0x3000 2 3)
  else ranged (decide (v < 412)) s (resetElem 0x3000 v (resetElem 0x3000 v s 2) 3)

/-- MONITOR_CLEAR: a monitor number, or FFh (R453). -/
def clearMonitor (s : State) (v : Nat) : Answer :=
  if v = 0xFF then (stOk, (List.range 32).foldl monRestart s) else ranged (decide (v < 32)) s (monRestart s v)

/-! ## Storing values, and the persistent configuration (R433) -/

/-- Writes an element of the persistent configuration to flash; the two copies take turns. -/
def commit (s : State) (k v : Nat) : State :=
  let i : Fin 2 := 1 - s.mgmt.copyLast
  let valid := if i = 0 then (true, s.mgmt.copyValid.2) else (s.mgmt.copyValid.1, true)
  { s with mgmt := { s.mgmt with
    persist := sset (dictDefault s.grade) s.mgmt.persist k v
    copyLast := i
    copyValid := valid } }

/-- Stores element `e` of an object, in its own place where the object shows state of another block. -/
def storeElem (s : State) (who : Requester) (key e v : Nat) : State :=
  match key with
  | 0x500003 => setLogSelect s v who
  | 0x703001 => setAcctSelect s v who
  | 0x802002 => { s with host := { s.host with windows := sset (fun _ => 0) s.host.windows (16 * s.obj 0x8020 1 0 + e) v } }
  | 0x802003 => { s with host := { s.host with grants := sset (fun _ => 0) s.host.grants (16 * s.obj 0x8020 1 0 + e) v } }
  | _ =>
    let s := s.setObj (key / 256) (key % 256) e v
    if isConfig key then commit s (dkey (key / 256) (key % 256) e) v else s

/-! ## Effects of stored values -/

/-- NEAR_WAYS moves ways between the partitions (R224): hard pins above the bound of the new ways are demoted, a near set above its
ways drops or writes back lines in the order of R225, and a home set above its ways evicts in that order (log entry 34). -/
def trimWays (s : State) : State :=
  let near (s : State) (p : Nat × NearLine) : State :=
    let l := keyLine (p.1 / 4)
    if nearWays s < (nearSet s (p.1 % 4) l).length then makeNearRoom s (p.1 % 4) l else s
  let home (s : State) (p : Nat × HomeLine) : State :=
    let set := homeSet s (keyLine p.1)
    if 16 - nearWays s < set.length then
      match homeVictim s set with
      | some v => evictHome s (keyLine v.1)
      | none => s
    else s
  let s := balanceAll s
  let s := s.coh.near.foldl near s
  s.coh.home.foldl home s

/-- Closes a session: its record (R443, R526). -/
def closeSession (s : State) (x : Session) : State :=
  let s := { s with mgmt := { s.mgmt with sessions := s.mgmt.sessions.filter fun y => y.place != x.place } }
  if x.open_ then
    logRecord s { LogRec.blank with
      kind := 6
      cause := 2
      scope := 3
      block := x.keySlot }
  else s

/-- Closes every session opened with a key slot (R465). -/
def closeKeySessions (s : State) (slot : Nat) : State :=
  (s.mgmt.sessions.filter fun x => x.keySlot = slot).foldl closeSession s

/-- What a stored element sets in motion; `old` is the element before. -/
def elemEffect (s : State) (key e old v : Nat) : State :=
  match key with
  | 0x201001 => if s.sage.periodReq = 0 then { s with sage := { s.sage with periodReq := old } } else s
  | 0x203001 => trimWays s
  | 0x203002 => balanceAll s
  | 0x205101 => startMirror s e
  | 0x301001 => monRestart s e
  | 0x307301 => s.setObj 0x3073 2 0 (probeBytes s (v / 512))
  | 0x602001 => closeKeySessions s e
  | 0x800003 => ({ s with peer := { s.peer with locked := false } }).setObj 0x8000 5 0 (roleState v)
  | 0x801001 => enablePort s e v
  | 0x902003 => updateSetPoints s
  | _ => s

/-- Stores one element with its effect. -/
def putElem (who : Requester) (key : Nat) (s : State) (p : Nat × Nat) : State :=
  let old := s.obj (key / 256) (key % 256) p.1
  elemEffect (storeElem s who key p.1 p.2) key p.1 old p.2

/-! ## The values that objects accept (R431, R432) -/

/-- Whether the ranges of two windows share an address. -/
def windowsMeet (a b : Nat) : Bool := rangesMeet (winBase a) (winLength a) (winBase b) (winLength b)

/-- Whether any two of a list meet. -/
def anyMeet (f : Nat → Nat → Bool) : List Nat → Bool
  | [] => false
  | x :: t => t.any (f x) || anyMeet f t

/-- A list with some elements replaced. -/
def replaced (n : Nat) (old : Nat → Nat) (new : List (Nat × Nat)) : List Nat :=
  (List.range n).map fun i => ((new.find? fun p => p.1 = i).map Prod.snd).getD (old i)

/-- A host hint entry (R247). -/
def hintEntryOk (s : State) (v : Nat) : Bool :=
  decide (bits v 0 16 = 0) && decide (bits v 64 16 = 0) && hintOk s (bits v 128 16) && decide (bits v 152 8 = 0) &&
    decide (bits v 192 64 = 0)

/-- The F32 of an entry is a number above a bound. -/
def above (code : Nat) (bound : FVal) : Bool :=
  let x := Fmt.fp32.decode code
  !x.isNan && decide (0 < x.cmp bound)

/-- Whether a monitor's source has an instance (R451). -/
def instanceOk (source inst : Nat) : Bool :=
  match source with
  | 1 | 2 => decide (inst ≤ 2)
  | 3 => decide (inst ≤ 1)
  | 4 => decide (inst ≤ 7) || decide (inst = 0xFFFF)
  | 5 => decide (inst < 412)
  | 6 => decide (inst < 104)
  | 7 | 8 => decide (inst < 256)
  | _ => false

/-- A monitor entry (R452); an unused one keeps only its zero bytes. -/
def monitorOk (v : Nat) : Bool :=
  decide (bits v 8 8 = 0) && decide (bits v 128 128 = 0) &&
    (decide (bits v 0 8 = 0) ||
      (instanceOk (bits v 0 8) (bits v 16 16) && above (bits v 32 32) (FVal.ofInt 0) && above (bits v 64 32) (FVal.ofInt 1)))

/-- A client-key entry: ROLE and its zero bytes (R465). -/
def clientKeyOk (v : Nat) : Bool := decide (bits v (8 * 1793) 8 ≤ 2) && decide (bits v (8 * 1794) 48 = 0)

/-- A window entry (R388). -/
def windowOk (v : Nat) : Bool :=
  decide (bits v 0 16 = 0) && decide (bits v 64 16 = 0) && decide (bits v 128 16 = 0) && decide (bits v 216 8 = 0)

/-- A grant entry. -/
def grantOk (v : Nat) : Bool :=
  decide (bits v 0 16 = 0) && decide (bits v 64 16 = 0) && decide (bits v 153 103 = 0)

/-- Whether a range of pages lies in one tier. -/
def oneTier (base pages : Nat) : Bool :=
  let last := base + 65536 * pages
  decide (last ≤ 0x4000000000) || (decide (0x4000000000 ≤ base) && decide (last ≤ 2 ^ 40))

/-- A replica entry by itself (R313): its zero bytes, its alignment, each range in one tier, and the two in different
tiers, no page of them withdrawn. -/
def replicaOk (s : State) (v : Nat) : Bool :=
  let p := bits v 0 64
  let m := bits v 64 64
  let n := bits v 128 32
  decide (bits v 160 96 = 0) && decide (p % 65536 = 0) && decide (m % 65536 = 0) &&
    (decide (n = 0) ||
      (oneTier p n && oneTier m n && (decide (p < 0x4000000000) != decide (m < 0x4000000000)) &&
        (List.range n).all fun i => !withdrawnPage s (p / 65536 + i) && !withdrawnPage s (m / 65536 + i)))

/-- Whether two replica entries overlap. -/
def replicasMeet (a b : Nat) : Bool :=
  let r (v off : Nat) : Nat × Nat := (bits v off 64, 65536 * bits v 128 32)
  let meet (x y : Nat × Nat) : Bool := rangesMeet x.1 x.2 y.1 y.2
  meet (r a 0) (r b 0) || meet (r a 0) (r b 64) || meet (r a 64) (r b 0) || meet (r a 64) (r b 64)

/-- Whether the module accepts the elements of a write beyond their plain range. -/
def elemsOk (s : State) (who : Requester) (key : Nat) (l : List (Nat × Nat)) : Bool :=
  let v := ((l.head?).map Prod.snd).getD 0
  let every (f : Nat → Bool) : Bool := l.all fun p => f p.2
  let cap := if key = 0x900001 then v else s.obj 0x9000 1 0
  let floor (k : Nat) : Nat := if key = 0x900000 + k then v else s.obj 0x9000 k 0
  match key with
  | 0x201001 => decide (4 * s.obj 0x2010 2 0 ≤ v)
  | 0x201002 => decide (4 * v ≤ s.obj 0x2010 1 0)
  | 0x203004 => every (hintEntryOk s)
  | 0x205101 => every (replicaOk s) && !anyMeet replicasMeet (replaced 64 (s.obj 0x2051 1) l)
  | 0x205202 => decide (v % 512 = 0)
  | 0x301001 => every monitorOk
  | 0x307301 => decide (v % 512 = 0) && decide (v < 2 ^ 40)
  | 0x602001 => every clientKeyOk
  | 0x703001 => match Requester.vf who with
    | some f => decide (v / 64 = f)
    | none => true
  | 0x802002 =>
    let f := s.obj 0x8020 1 0
    every windowOk && !anyMeet windowsMeet (replaced 16 (window s f) l)
  | 0x802003 => every grantOk
  | 0x900001 | 0x900003 | 0x900004 | 0x900005 => decide (34 + floor 3 + floor 4 + floor 5 ≤ cap)
  | 0x902003 => decide ((v - 2700) % 25 = 0)
  | _ => true

/-! ## Scrub passes (R318, R321) -/

/-- The job of a dictionary pass in the MT queues. -/
def scrubJob : Nat := 0

/-- The code pages of a range of device memory, by channel. -/
def scrubCount (s : State) (base len : Nat) : Sparse Nat :=
  (List.range (pagesOf base len)).foldl (fun m i =>
    let no := 4 * (base / 2048 + i)
    if no < deviceLines then sset (fun _ => 0) m (chanOf s no) (sget (fun _ => 0) m (chanOf s no) + 1) else m) []

/-- SCRUB_START: refused while a pass runs; its code pages go to the MT queues (R321). -/
def startScrub (s : State) (v : Nat) : Answer :=
  if v = 0 then (stOk, s)
  else if s.mem.scrub.isSome then (stBusy, s)
  else
    let base := s.obj 0x2052 1 0
    let len := s.obj 0x2052 2 0
    let s := putJob s scrubJob (scrubCount s base len)
    (stOk, ({ s with mem := { s.mem with scrub := some ⟨base, len, s.now⟩ } }).setObj 0x2052 4 0 1)

/-- SCRUB_PASS_DONE: the pass has passed the MT queues; it ran over device-physical addresses, and its record in SCRUB_RESULT. -/
def execScrubPassDone (endNs : Nat) (errs : List (Nat × ArrayErr)) (s : State) : Out :=
  match s.mem.scrub with
  | none => cannot
  | some p =>
    guarded (notBefore s endNs && !jobOpen s scrubJob) <|
      let s := { (s.at endNs) with mem := { s.mem with scrub := none } }
      let r := scrubPages none errs (pagesOf p.base p.length) (p.base / 2048 * 2048) s Tally.zero
      (r.1.setObj 0x2052 4 0 0).setObj 0x2052 5 0 (scrubRecord p.base p.length p.startNs endNs 0 r.2)

/-! ## Page retirement (R322 to R325) -/

/-- The slow channels of a page's code pages, one entry for each. -/
def pageChannels (s : State) (addr : Nat) : List Nat := (List.range 32).map fun i => chanOf s (addr / 512 + 4 * i)

/-- A code page is copied through the MT queue into the next spare slot of its channel, and remapped there (R323). Its data and
marks go with it. -/
def takeSlot (s : State) (page : Nat) : State :=
  let ch := chanOf s (4 * page)
  let left := s.obj 0x2053 4 (ch - 128)
  let s := passGrant s ch 3
  let s := { s with mem := { s.mem with spare := sset (fun _ => 0) s.mem.spare page (4194304 + (262144 - left) + 1) } }
  s.setObj 0x2053 4 (ch - 128) (left - 1)

/-- Whether the channels of a page hold enough free slots. -/
def slotsLeft (s : State) (addr : Nat) : Bool :=
  let cs := pageChannels s addr
  cs.all fun ch => decide (cs.count ch ≤ s.obj 0x2053 4 (ch - 128))

/-- RETIRE_PAGE: the page is listed in flash; a slow-tier page moves to spare slots, a fast-tier page is withdrawn. A full
list, or a channel without a slot, refuses the write and flags the module. A page that is listed already stays as it is
(log entry 34). -/
def retirePage (s : State) (addr : Nat) : Answer :=
  let n := s.obj 0x2053 3 0
  if addr % 65536 ≠ 0 ∨ 2 ^ 40 ≤ addr then (stRange, s)
  else if (List.range n).any fun i => s.obj 0x2053 2 i = addr then (stOk, s)
  else if 4096 ≤ n ∨ (0x4000000000 ≤ addr ∧ slotsLeft s addr = false) then (stNoResource, flagReplace s 4)
  else
    let s := (s.setObj 0x2053 2 n addr).setObj 0x2053 3 0 (n + 1)
    (stOk,
      if addr < 0x4000000000 then
        { s with mem := { s.mem with withdrawn := sset (fun _ => false) s.mem.withdrawn (addr / 65536) true } }
      else (List.range 32).foldl (fun s i => takeSlot s (addr / 2048 + i)) s)

/-! ## Functions and the module (R421, R437) -/

/-- FN_QUIESCE. -/
def fnQuiesce (s : State) (f : Nat) : Answer :=
  if fnPresent s (Fin.ofNat 256 f) = false then (stRange, s)
  else if s.fnState f ≠ 2 then (stState, s)
  else (stOk, beginDrain s f (drainLimit s f))

/-- FN_RESUME. -/
def fnResume (s : State) (f : Nat) : Answer :=
  if fnPresent s (Fin.ofNat 256 f) = false then (stRange, s)
  else if s.fnState f ≠ 4 then (stState, s)
  else (stOk, resumeFn s f)

/-- MODULE_CMD 1. -/
def cmdQuiesce (s : State) : Answer :=
  if s.moduleState = 0 then (stOk, quiesceModule s)
  else if s.moduleState = 2 then (stOk, if allFns.any fun f => s.fnState f = 2 then quiesceModule s else s)
  else (stBusy, s)

/-- MODULE_CMD 2. Once a drain for service has quiesced the module it acts as the cancel of R533, which an open latch refuses
(log entry 33). -/
def cmdResume (s : State) : Answer :=
  if s.moduleState = 0 then (stOk, s)
  else if s.moduleState = 2 ∧ (serviceState s = 0 ∨ latchOpen s = false) then
    (stOk, if serviceState s = 0 then resumeModule s else setService (resumeModule (leaveSafe s)) 0)
  else (stBusy, s)

/-- MODULE_CMD 3: a warm start of cause 06h, or from service hold a cold start of cause 04h. A thermal shutdown ends by
THERMAL_RESTART or the feeds only (R492). -/
def cmdWarmStart (s : State) : Answer :=
  if s.moduleState = 4 then
    if s.ctl.thermalHold then (stServiceHold, s) else (stOk, beginCold (s.setObj 0x5010 2 0 0) 4)
  else if s.released then (stOk, beginWarm s 6)
  else (stBusy, s)

/-- MODULE_CMD. -/
def moduleCmd (s : State) (v : Nat) : Answer :=
  if v = 1 then cmdQuiesce s else if v = 2 then cmdResume s else cmdWarmStart s

/-- Whether every junction reads below 85 °C: the die temperature sensors, compute dies then base dies (R449, R492). -/
def junctionsCool (s : State) : Bool :=
  let cool (n : Nat) : Bool :=
    let x := Fmt.fp32.decode (s.obj 0x3000 1 n)
    !x.isNan && decide (x.cmp (FVal.ofInt 85) < 0)
  ((List.range 8).all fun d => (List.range 12).all fun i => cool (18 * d + i)) &&
    (List.range 4).all fun d => (List.range 8).all fun i => cool (144 + 14 * d + i)

/-- THERMAL_RESTART. Outside a thermal shutdown there is nothing to restart: refused with STATE, as where a junction is too
hot (log entry 34). -/
def thermalRestart (s : State) (v : Nat) : Answer :=
  if v = 0 then (stOk, s)
  else if s.moduleState = 4 ∧ s.ctl.thermalHold ∧ junctionsCool s then (stOk, beginCold s 2)
  else (stState, s)

/-- SERVICE_REQUEST. -/
def serviceRequest (s : State) (v : Nat) : Answer :=
  if v = 1 then (stOk, requestDrain s)
  else
    let r := requestCancel s
    if r.1 then (stOk, r.2) else (stState, s)

/-- CONFIG_DEFAULTS: every object of the persistent configuration takes its default, in flash and in effect (R433). -/
def configDefaults (s : State) (who : Requester) (v : Nat) : Answer :=
  if s.moduleState ≠ 2 then (stNotQuiesced, s)
  else if v = 0 then (stOk, s)
  else
    let keys := (s.dict.map Prod.fst).filter fun k => isConfig (k / 2 ^ 20)
    let s := keys.foldl (fun s k => putElem who (k / 2 ^ 20) s (k % 2 ^ 20, dictDefault s.grade k)) s
    (stOk, { s with mgmt := { s.mgmt with persist := [] } })

/-! ## Event counters (R421) -/

/-- EVC_VALUES: bytes of the selected function's counters. -/
def writeEvc (s : State) (off len v : Nat) : Answer :=
  let f := s.obj 0x7050 6 0
  if s.fnState f ≠ 4 then (stNotQuiesced, s)
  else
    let old := packElems (evCounter s f) 8 0 4096
    let new := putBits old (8 * off) (8 * len) v
    let put (m : Sparse Nat) (e : Nat) : Sparse Nat :=
      if decide (off < 8 * e + 8) && decide (8 * e < off + len) then sset (fun _ => 0) m (4096 * f + e) (bits new (64 * e) 64)
      else m
    (stOk, { s with host := { s.host with evc := (List.range 4096).foldl put s.host.evc } })

/-! ## Firmware update (R460 to R463) -/

/-- UPDATE_STATE: 0 IDLE, 1 ERASING, 2 LOADING, 3 VERIFYING, 4 READY, 5 REJECTED, 6 ABORTED. -/
def updState (s : State) : Nat := s.obj 0x6010 3 0

/-- The update reaches a state: its record. -/
def setUpd (s : State) (v : Nat) : State :=
  logRecord (s.setObj 0x6010 3 0 v) { LogRec.blank with
    kind := 5
    cause := v
    scope := 3 }

/-- The slot that is not running. -/
def inactiveSlot (s : State) : Nat := 1 - s.obj 0x1000 8 0

/-- Who writes, as the owner of an update: a window, or a session by its number. -/
def ownerOf? (s : State) : Requester → Requester
  | .window f => .window f
  | .session i _ _ => .session i (BitVec.ofNat 32 (((sessionAt s i).map Session.number).getD 0)) ⟨0, 0, true, 0⟩

/-- Whether an update is under way: ERASING, LOADING or VERIFYING. -/
def updating (s : State) : Bool := decide (1 ≤ updState s) && decide (updState s ≤ 3)

/-- Whether another writer owns the update. -/
def otherOwner (s : State) (who : Requester) : Bool := updating s && s.mgmt.updOwner != some (ownerOf? s who)

/-- BEGIN: the inactive slot is empty and is erased. -/
def updateBegin (s : State) (who : Requester) : Answer :=
  let i := inactiveSlot s
  let s := setFwSlot s i { fwSlot s i with state := 0 }
  (stOk, setUpd { s with mgmt := { s.mgmt with updOwner := some (ownerOf? s who) } } 1)

/-- COMMIT: the image is checked in VERIFYING; in any state but LOADING there is no image to check (log entry 34). -/
def updateCommit (s : State) : Answer := if updState s = 2 then (stOk, setUpd s 3) else (stState, s)

/-- ABORT: in any state before READY an update becomes ABORTED (log entry 34). -/
def updateAbort (s : State) : Answer := if updState s ≤ 3 then (stOk, setUpd s 6) else (stState, s)

/-- UPDATE_CMD. -/
def updateCmd (s : State) (who : Requester) (v : Nat) : Answer :=
  if otherOwner s who then (stBusy, s)
  else if v = 1 then updateBegin s who
  else if v = 2 then updateCommit s
  else updateAbort s

/-- UPDATE_IMAGE. -/
def writeImage (s : State) (who : Requester) (off len v : Nat) : Answer :=
  if otherOwner s who then (stBusy, s)
  else if updState s ≠ 2 then (stAccess, s)
  else
    let i := inactiveSlot s
    let x := fwSlot s i
    (stOk, setFwSlot s i { x with image := memWrite x.image off len v })

/-- ERASE_DONE. -/
def execEraseDone (s : State) : Out :=
  guarded (decide (updState s = 1)) <|
    let i := inactiveSlot s
    setUpd (setFwSlot s i { fwSlot s i with image := [] }) 2

/-- Whether an image is valid (R460): its layout, TARGET, digest, signature under either ROM key, and version. -/
def imageValid (s : State) (x : FwSlot) : Bool :=
  let rd (off n : Nat) : Nat := memRead x.image off n
  let len := rd 12 4
  decide (rd 0 4 = 1) && decide (rd 16 4 = 0x9200) && decide (rd 20 12 = 0) && decide (rd 0x560 160 = 0) &&
    decide (1536 + len ≤ 2 ^ 25) && decide (rd 0x20 64 = (Config.shake256 (rd 1536 len) len).toNat) &&
    ((List.range 2).any fun k => Config.falconVerify (Config.romKey k) (rd 0 0x60) (rd 0x60 1280)) &&
    decide (s.obj 0x6010 6 0 ≤ rd 8 4)

/-- VERIFY_DONE: a valid image becomes a trial slot that the next start runs. -/
def execVerifyDone (s : State) : Out :=
  guarded (decide (updState s = 3)) <|
    let i := inactiveSlot s
    let x := fwSlot s i
    if imageValid s x then
      let s := setFwSlot s i { x with
        version := memRead x.image 4 4
        security := memRead x.image 8 4
        state := 2 }
      setUpd (s.setObj 0x6010 5 0 i) 4
    else setUpd s 5

/-- SLOT_CONFIRM: a released trial start, acknowledged by the standby or alone, with its configuration applied (R463). A start
on a trial slot clears START_FAILS here (R511). -/
def execSlotConfirm (s : State) : Out :=
  let i := s.obj 0x1000 8 0
  let alone := (List.range 2).any fun p => decide (s.obj 0x4001 1 p = 2)
  guarded (s.mgmt.trial && s.released && (s.mgmt.hbAcked || alone) && s.mgmt.cfgApplied) <|
    let x := fwSlot s i
    let s := setFwSlot s i { x with state := 1 }
    let s := (s.setObj 0x6010 6 0 (max (s.obj 0x6010 6 0) x.security)).setObj 0x5010 2 0 0
    { s with mgmt := { s.mgmt with trial := false } }

/-- CONFIRM_TIMEOUT: the slot has failed, and the module starts on the other one; the revert counts as a failed start (R463,
R511). -/
def execConfirmTimeout (s : State) : Out :=
  guarded (s.mgmt.trial && s.released) <|
    let s := revertSlot s (s.obj 0x1000 8 0)
    let s := s.setObj 0x5010 2 0 (satAdd 8 (s.obj 0x5010 2 0) 1)
    if 3 ≤ s.obj 0x5010 2 0 then enterHold s else beginWarm s 7

/-! ## One write -/

/-- The effect of a well-formed, authorised write on an object of a scalar, ARRAY or BLOB type: `off` elements or bytes from
the start, `l` the elements, `len` and `v` the body. -/
def writeObj (s : State) (who : Requester) (key off len v : Nat) (l : List (Nat × Nat)) : Answer :=
  match key with
  | 0x200201 => moduleCmd s v
  | 0x200203 => configDefaults s who v
  | 0x205203 => startScrub s v
  | 0x205301 => retirePage s v
  | 0x300004 => clearSensor s v
  | 0x301201 => clearMonitor s v
  | 0x304004 => clearCore s 0x3040 3 v
  | 0x305007 => clearCore s 0x3050 6 v
  | 0x306005 => clearCore s 0x3060 4 v
  | 0x307005 => clearCore s 0x3070 4 v
  | 0x307104 => clearCacheCtr s v
  | 0x307207 => clearCoherence s v
  | 0x308007 => clearAll s 0x3080 6 v
  | 0x309007 => clearAll s 0x3090 6 v
  | 0x30A006 => clearAll s 0x30A0 5 v
  | 0x405004 => clearCeTable s v
  | 0x408003 => serviceRequest s v
  | 0x601001 => updateCmd s who v
  | 0x601002 => writeImage s who off len v
  | 0x703003 => clearAcct s v
  | 0x705003 => fnQuiesce s v
  | 0x705004 => fnResume s v
  | 0x705007 => writeEvc s off len v
  | 0x903003 => thermalRestart s v
  | _ => ranged (elemsOk s who key l) s (l.foldl (putElem who key) s)

end Sys2Proof.Machine
end

