-- ==== Sys2Proof/Machine/Dict.lean ====
section
/-!
DEFINITION. Dictionary requests and replies, the in-band windows, sessions, and the writes that have a row of their own
(R425, R439 to R448, R459).
-/
namespace Sys2Proof.Machine

/-! ## Requests (R441, R446) -/

/-- DW_STAT of a function's page. -/
def dwStat : Nat := 0x8004

/-- Bytes of a message area from a word offset. -/
def areaBytes (s : State) (f off n : Nat) : Nat :=
  packElems (fun i => s.reg f (off + 4 * i)) 4 0 ((n + 3) / 4) % 2 ^ (8 * n)

/-- The request in a message of a length, from its header's bytes and its body. -/
def parseReq (raw hdr body : Nat) : DictReq :=
  { op := BitVec.ofNat 8 hdr
    index := BitVec.ofNat 16 (bits hdr 16 16)
    sub := BitVec.ofNat 8 (bits hdr 32 8)
    offset := BitVec.ofNat 32 (bits hdr 64 32)
    count := BitVec.ofNat 32 (bits hdr 96 32)
    zero := decide (bits hdr 8 8 = 0) && decide (bits hdr 40 24 = 0)
    raw := raw
    body := body }

/-- The request that stands in the request area of a window. -/
def windowReq (s : State) (f : Nat) : DictReq :=
  let n := bits (s.reg f 0x8008) 0 13
  parseReq n (areaBytes s f 0x8100 (min n 16)) (areaBytes s f 0x8110 (n - 16))

/-- The body's length. -/
def reqBody (r : DictReq) : Nat := r.raw - 16

/-- INDEX and SUBINDEX as an object's key. -/
def reqKey (r : DictReq) : Nat := r.index.toNat * 256 + r.sub.toNat

/-- A reply without a value. -/
def plainReply (r : DictReq) (status count : Nat) : DictReply :=
  { status := status
    op := r.op.toNat
    index := r.index.toNat
    sub := r.sub.toNat
    offset := r.offset.toNat
    count := count
    len := 0
    body := 0 }

/-! ## Who may do what (R445, R447, R448, R499, R512, R516) -/

/-- Whether the dictionary is served: PD19 is up and a management processor has not failed. -/
def served (s : State) : Bool := s.power.domains.getLsbD 19 && (decide (s.obj 0x4001 1 0 ≠ 2) || decide (s.obj 0x4001 1 1 ≠ 2))

/-- The objects that are read in service hold and during a start. -/
def holdRead (key : Nat) : Bool :=
  [0x1000, 0x1010, 0x3000, 0x4000, 0x4001, 0x4010, 0x5000, 0x5010, 0x6000, 0x9030].contains (key / 256) ||
    decide (key = 0x200202)

/-- The writes that service hold answers. -/
def holdWrite (key v : Nat) : Bool :=
  decide (key / 256 = 0x6010) || decide (key / 256 = 0x6020) || (decide (key = 0x200201) && decide (v = 3)) ||
    (decide (key = 0x903003) && decide (v = 1))

/-- The status with which service hold or a start turns a request away. -/
def gate (s : State) (op key v : Nat) : Option Nat :=
  let reads := (decide (op = 1) || decide (op = 3)) && holdRead key
  if s.moduleState = 4 then (if reads || (decide (op = 2) && holdWrite key v) then none else some stServiceHold)
  else if s.released || reads then none
  else some stBusy

/-- ROLE of a client key slot: 0 unused, 1 MONITOR, 2 ADMIN (R465). -/
def keyRole (s : State) (slot : Nat) : Nat := bits (s.obj 0x6020 1 slot) (8 * 1793) 8

/-- What a VF's window allows; LOG_SELECT is DEDUCED (log entry 34): without it the VF could not choose a record. -/
def vfAllows (f op key v : Nat) : Bool :=
  (decide (key / 0x100000 = 1) && (decide (op = 1) || decide (op = 3))) ||
    (decide (op = 1) && (coreCounter key || fnArray key || decide (key / 256 = 0x5000) || decide (key = 0x703002))) ||
    (decide (op = 2) && (decide (key = 0x500003) ||
      ((decide (key = 0x703001) || decide (key = 0x703003)) && decide (v / 64 = f)))) ||
    decide (op = 4)

/-- Whether a requester may make a request. -/
def authorised (s : State) (who : Requester) (op key v : Nat) : Bool :=
  match who with
  | .window f => decide (f.val = 0) || vfAllows f.val op key v
  | .session i _ _ =>
    match sessionAt s i with
    | none => false
    | some x => decide (op ≠ 2) || (decide (keyRole s x.keySlot = 2) && decide (key ≠ 0x602001))

/-! ## READ, INFO, WRITE, ATTEST (R431, R441, R459) -/

/-- Whether an object is an ARRAY, a STR or a BLOB, whose OFFSET counts. -/
def counted (o : Obj) : Bool := decide (8 ≤ o.typ)

/-- Whether a VF reads a log record of another function (R456). -/
def foreignRecord (s : State) (who : Requester) (key : Nat) : Bool :=
  match Requester.vf who with
  | none => false
  | some f => decide (key = 0x500004) && (match findRecord s (logSelect s who) with
    | some r => decide (r.func ≠ f)
    | none => false)

/-- READ of an object that may be read. -/
def doRead (s : State) (who : Requester) (r : DictReq) (o : Obj) : DictReply :=
  let off := r.offset.toNat
  let cnt := r.count.toNat
  if o.acc = 2 ∨ foreignRecord s who o.key then plainReply r stAccess 0
  else match view s who o with
  | none => plainReply r stNoObject 0
  | some (n, w, f) =>
    if counted o = false then
      if off ≠ 0 ∨ cnt ≠ 0 then plainReply r stOffset 0
      else { plainReply r stOk 1 with
        len := w
        body := packElems f w 0 1 }
    else if n < off + cnt then plainReply r stOffset 0
    else
      let k := min (if cnt = 0 then n - off else cnt) (8176 / w)
      { plainReply r stOk k with
        len := k * w
        body := packElems f w off k }

/-- INFO of an object. -/
def doInfo (s : State) (r : DictReq) (o : Obj) : DictReply :=
  { plainReply r stOk 0 with
    len := 16
    body := o.typ + 256 * o.etyp + 2 ^ 16 * o.acc + 2 ^ 24 * b2n o.persist + 2 ^ 32 * o.esize + 2 ^ 64 * o.len s.grade }

/-- Whether the body of a write has a length of the object's type. -/
def lengthOk (o : Obj) (n : Nat) : Bool := if counted o then decide (n % o.esize = 0) else decide (n = o.esize)

/-- The elements of a write's body: their numbers and values. -/
def writeElems (o : Obj) (r : DictReq) : List (Nat × Nat) :=
  if o.isBytes then []
  else (List.range (reqBody r / o.esize)).map fun i => (r.offset.toNat + i, bits r.body (8 * o.esize * i) (8 * o.esize))

/-- WRITE of an object: the status, the elements or bytes written, and the state. -/
def doWrite (s : State) (who : Requester) (r : DictReq) (o : Obj) : DictReply × State :=
  let n := reqBody r / o.esize
  let l := writeElems o r
  if o.acc = 0 then (plainReply r stAccess 0, s)
  else if o.acc = 3 ∧ s.moduleState ≠ 2 then (plainReply r stNotQuiesced 0, s)
  else if (counted o = false ∧ r.offset.toNat ≠ 0) ∨ (counted o = true ∧ o.len s.grade < r.offset.toNat + n) then
    (plainReply r stOffset 0, s)
  else if l.any fun p => decide (p.2 < o.lo) || decide (o.hi < p.2) then (plainReply r stRange 0, s)
  else
    let a := writeObj s who o.key r.offset.toNat n r.body l
    (plainReply r a.1 (if a.1 = stOk then n else 0), a.2)

/-- The private alias key of a processor for a measured image, as Config names keys. -/
def aliasKey (s : State) : Nat := s.mgmt.primary.val + 2 * s.mgmt.fwDigest

/-- The 256 B that a quote signs (R459). -/
def quoteBody (s : State) (nonce : Nat) : Nat :=
  let slot := s.obj 0x1000 8 0
  1 + 2 ^ 32 * s.mgmt.primary.val + 2 ^ 40 * slot + 2 ^ 64 * s.obj 0x1000 7 0 +
    2 ^ 96 * (fwSlot s slot).security + 2 ^ 128 * s.mgmt.floorRead + 2 ^ 192 * (s.now % 2 ^ 64) + 2 ^ 256 * nonce +
    2 ^ 512 * s.mgmt.fwDigest + 2 ^ 1024 * Config.mfgDigest.toNat +
    2 ^ 1536 * (Config.configDigest (s.dict.filter fun p => isConfig (p.1 / 2 ^ 20))).toNat

/-- ATTEST: the quote with its signature. -/
def doAttest (s : State) (r : DictReq) : DictReply :=
  let q := quoteBody s (r.body % 2 ^ 256)
  { plainReply r stOk 0 with
    len := 1536
    body := q + 2 ^ 2048 * (Config.falconSign (aliasKey s) q).toNat }

/-- Whether a header breaks its ranges: the zero bytes, COUNT, OFFSET, INDEX and SUBINDEX (R441 check 3). -/
def headerBad (r : DictReq) : Bool :=
  !r.zero || (r.op != 1 && r.count != 0) || (3 ≤ r.op.toNat && r.offset != 0) || (r.op == 4 && (r.index != 0 || r.sub != 0))

/-- What turns a request for an object away before its own checks: gate, then role. -/
def turnedAway (s : State) (who : Requester) (r : DictReq) : Option Nat :=
  match gate s r.op.toNat (reqKey r) r.body with
  | some st => some st
  | none => if authorised s who r.op.toNat (reqKey r) r.body then none else some stNotAuthorised

/-- A request for an object: READ, WRITE or INFO, in the order of R441. -/
def handleObject (s : State) (who : Requester) (r : DictReq) : DictReply × State :=
  if r.op ≠ 2 ∧ reqBody r ≠ 0 then (plainReply r stType 0, s)
  else match findObj r.index.toNat r.sub.toNat with
  | none => (plainReply r stNoObject 0, s)
  | some o =>
    if r.op = 2 ∧ lengthOk o (reqBody r) = false then (plainReply r stType 0, s)
    else match turnedAway s who r with
    | some st => (plainReply r st 0, s)
    | none =>
      if r.op = 1 then (doRead s who r o, s)
      else if r.op = 3 then (doInfo s r o, s)
      else doWrite s who r o

/-- A request: the checks of R441 in order, then its operation. -/
def handle (s : State) (who : Requester) (r : DictReq) : DictReply × State :=
  if r.raw < 16 then (plainReply r stType 0, s)
  else if r.op = 0 ∨ 4 < r.op.toNat then (plainReply r stBadOp 0, s)
  else if headerBad r then (plainReply r stRange 0, s)
  else if r.op = 4 then
    if reqBody r ≠ 32 then (plainReply r stType 0, s)
    else match turnedAway s who r with
      | some st => (plainReply r st 0, s)
      | none => (doAttest s r, s)
  else handleObject s who r

/-! ## Replies (R441, R444, R446) -/

/-- The header of a reply, 16 B. -/
def replyHeader (p : DictReply) : Nat :=
  p.status + 256 * p.op + 2 ^ 16 * p.index + 2 ^ 32 * p.sub + 2 ^ 64 * p.offset + 2 ^ 96 * p.count

/-- A reply appears in a window: the reply area, DW_RSP_LEN, and DW_STAT with BUSY clear. -/
def windowReply (s : State) (f : Nat) (p : DictReply) : State :=
  let msg := replyHeader p + 2 ^ 128 * p.body
  let s := (List.range ((16 + p.len + 3) / 4)).foldl (fun s i => s.setReg f (0xA000 + 4 * i) (bits msg (32 * i) 32)) s
  let s := s.setReg f 0x800C (16 + p.len)
  let v := s.reg f dwStat
  s.setReg f dwStat (putBits (putBits (putBits v 0 16 (bits v 0 16 + 1)) 16 1 0) 24 8 p.status)

/-! ## The management port (R439) -/

/-- MGMT_UDP_PORT, to and from which the protocol runs. -/
def mgmtPort (s : State) : Nat := s.obj 0x2001 1 0

/-- PLCA_NODE_ID, from the straps. -/
def plcaNode (s : State) : Nat := elemOf s (.window 0) 0x200103 0

/-- The BEACON that the module sends as PLCA coordinator, which node 0 is: the node count that it carries. -/
def plcaBeacon (s : State) : Option Nat := if plcaNode s = 0 then some (s.obj 0x2001 2 0) else none

/-- The IPv6 link-local address of an EUI-48 by the modified EUI-64 rule of RFC 4291: FE80::/64, the EUI-48 with FFFEh in its middle
and its universal/local bit inverted. Both processors use the same one. -/
def linkLocal (mac : BitVec 48) : BitVec 128 :=
  BitVec.ofNat 128 (0xFE80 * 2 ^ 112 + (mac.toNat / 2 ^ 24 ^^^ 0x20000) * 2 ^ 40 + 0xFFFE * 2 ^ 24 + mac.toNat % 2 ^ 24)

/-- The module's address. -/
def mgmtAddress : BitVec 128 := linkLocal Config.macAddress

/-- The address of all nodes, ff02::1. -/
def allNodes : BitVec 128 := 0xFF020000000000000000000000000001#128

/-- Whether the module takes a datagram: it keeps its layout, its tag matches, and it goes to the module's port and address; a DISCOVER
(`all`) may also go to all nodes (R439, R440). -/
def takesDgram (s : State) (d : Dgram) (all : Bool) : Bool :=
  d.valid && decide (d.port.toNat = mgmtPort s) && (d.addr == mgmtAddress || (all && d.addr == allNodes))

/-- A reply of a session is sent and kept among its last 16. -/
def sessionReply (s : State) (i : Fin 8) (reqId : BitVec 32) (p : DictReply) : State :=
  let s := match sessionAt s i with
    | none => s
    | some x =>
      let l := x.replies ++ [(reqId.toNat, p)]
      putSession s { x with replies := l.drop (l.length - 16) }
  s.emit (.reply i.val p.status p.op p.index p.sub p.offset p.count p.len p.body (mgmtPort s))

/-- Sends a reply to its requester. -/
def respond (s : State) (who : Requester) (p : DictReply) : State :=
  match who with
  | .window f => windowReply s f.val p
  | .session i reqId _ => sessionReply s i reqId p

/-- A request is handled and answered. -/
def answer (s : State) (who : Requester) (r : DictReq) : State :=
  let a := handle s who r
  respond a.2 who a.1

/-! ## Arrival of a request -/

/-- Whether a window holds a request that waits, and it is this one. -/
def windowAsks (s : State) (f : Fn) (r : DictReq) : Bool :=
  s.host.linkUp && fnPresent s f && bit (s.reg f.val dwStat) 16 && decide (r = windowReq s f.val) &&
    s.mgmt.held.all fun h => h.who != .window f

/-- Segments of a message (R440). -/
def segCount (len : Nat) : Nat := max 1 ((len + 1199) / 1200)

/-- A segment of a session's message arrives: whether it completes the message, and the state. -/
def takeSegment (s : State) (session reqId len : Nat) (seg : Fin 7) : Bool × State :=
  if segCount len ≤ seg.val then (false, s)
  else
    let mine (x : Segment) : Bool := decide (x.session = session) && decide (x.reqId = reqId)
    let old := ((s.mgmt.segments.find? mine).map Segment.got).getD []
    let got := if old.contains seg.val then old else old ++ [seg.val]
    let rest := s.mgmt.segments.filter fun x => !mine x
    let done := decide (segCount len ≤ got.length)
    (done, { s with mgmt := { s.mgmt with segments := if done then rest else rest ++ [⟨session, reqId, got⟩] } })

/-- What comes of a request of a session: a datagram that breaks the layout, fails its tag, goes elsewhere or names no open session
is discarded; a segment that does not complete its message is kept; a known REQ_ID is answered from the cache; another that is
not above the highest is discarded (R440, R444). -/
def sessionAsks (s : State) (i : Fin 8) (reqId : BitVec 32) (d : Dgram) (r : DictReq) (go : State → State) : State :=
  match sessionAt s i with
  | none => s
  | some x =>
    if !x.open_ || !takesDgram s d false || decide (7936 < r.raw) then s
    else
      let a := takeSegment s x.number reqId.toNat r.raw d.seg
      if a.1 = false then a.2
      else match x.replies.find? fun p => p.1 = reqId.toNat with
        | some (_, p) => a.2.emit (.reply i.val p.status p.op p.index p.sub p.offset p.count p.len p.body (mgmtPort s))
        | none => if reqId.toNat ≤ x.highest then a.2 else go (putSession a.2 { x with highest := reqId.toNat })

/-- A request reaches the primary. -/
def takeRequest (who : Requester) (r : DictReq) (go : State → State) (s : State) : Out :=
  guarded (served s && (match who with
    | .window f => windowAsks s f r
    | .session _ _ _ => true))
    (match who with
      | .window _ => go s
      | .session i reqId d => sessionAsks s i reqId d r go)

/-- READ. A message shorter than its header and one of no known OP reach the primary like a READ. -/
def execRead (who : Requester) (r : DictReq) (s : State) : Out :=
  if r.op = 2 ∨ r.op = 3 ∨ r.op = 4 then (if r.raw < 16 then takeRequest who r (fun s => answer s who r) s else cannot)
  else takeRequest who r (fun s => answer s who r) s

/-- Whether a standby in service must acknowledge a copy of each write (R425). -/
def standbyServes (s : State) : Bool := (List.range 2).any fun p => decide (s.obj 0x4001 1 p = 1)

/-- WRITE: the write waits for the standby's acknowledgement; without a standby it is applied at once (R425, R432). -/
def execWrite (who : Requester) (r : DictReq) (s : State) : Out :=
  if r.op ≠ 2 then cannot
  else takeRequest who r (fun s =>
    if standbyServes s then { s with mgmt := { s.mgmt with held := s.mgmt.held ++ [⟨who, r, false⟩] } }
    else answer s who r) s

/-- INFO. -/
def execInfo (who : Requester) (r : DictReq) (s : State) : Out :=
  if r.op ≠ 3 then cannot else takeRequest who r (fun s => answer s who r) s

/-- ATTEST. -/
def execAttest (who : Requester) (r : DictReq) (s : State) : Out :=
  if r.op ≠ 4 then cannot else takeRequest who r (fun s => answer s who r) s

/-- GO (R446): a request of a length outside 16 B to 7,936 B, or of no known OP, is answered at once; any other waits for the
primary. While BUSY is 1 the write is dropped. -/
def execGo (f : Fn) (val : Word) (s : State) : Out :=
  guarded (s.host.linkUp && fnPresent s f) <|
    let v := s.reg f.val dwStat
    if !val.getLsbD 0 || bit v 16 then s
    else
      let r := windowReq s f.val
      if served s && (decide (r.raw < 16) || decide (7936 < r.raw)) then windowReply s f.val (plainReply r stType 0)
      else if served s && (decide (r.op = 0) || decide (4 < r.op.toNat)) then windowReply s f.val (plainReply r stBadOp 0)
      else s.setReg f.val dwStat (putBits v 16 1 1)

/-! ## Writes with a row of their own -/

/-- A WRITE of `n` bytes to an object at an offset, made, acknowledged by the standby and answered in one step (log entry
34). -/
def ownWrite (who : Requester) (idx sub off n v : Nat) (s : State) : Out :=
  let r : DictReq :=
    { op := 2
      index := BitVec.ofNat 16 idx
      sub := BitVec.ofNat 8 sub
      offset := BitVec.ofNat 32 off
      count := 0
      zero := true
      raw := 16 + n
      body := v }
  takeRequest who r (fun s => answer s who r) s

/-- ACCT_CLEAR. -/
def execAcctClear (who : Requester) (val : BitVec 16) (s : State) : Out := ownWrite who 0x7030 3 0 2 val.toNat s
/-- CONV_CLEAR. -/
def execConvClear (who : Requester) (val : BitVec 16) (s : State) : Out := ownWrite who 0x3040 4 0 2 val.toNat s
/-- CORE_CTR_CLEAR. -/
def execCoreCtrClear (who : Requester) (val : BitVec 16) (s : State) : Out := ownWrite who 0x3050 7 0 2 val.toNat s
/-- MATRIX_CTR_CLEAR. -/
def execMatrixCtrClear (who : Requester) (val : BitVec 16) (s : State) : Out := ownWrite who 0x3060 5 0 2 val.toNat s
/-- RO_CTR_CLEAR. -/
def execRoCtrClear (who : Requester) (val : BitVec 16) (s : State) : Out := ownWrite who 0x3070 5 0 2 val.toNat s
/-- CACHE_CTR_CLEAR. -/
def execCacheCtrClear (who : Requester) (val : BitVec 16) (s : State) : Out := ownWrite who 0x3071 4 0 2 val.toNat s
/-- COHERENCE_CTR_CLEAR. -/
def execCoherenceCtrClear (who : Requester) (val : BitVec 16) (s : State) : Out := ownWrite who 0x3072 7 0 2 val.toNat s
/-- MEM_CTR_CLEAR. -/
def execMemCtrClear (who : Requester) (val : BitVec 8) (s : State) : Out := ownWrite who 0x3080 7 0 1 val.toNat s
/-- CE_TABLE_CLEAR. -/
def execCeTableClear (who : Requester) (val : BitVec 8) (s : State) : Out := ownWrite who 0x4050 4 0 1 val.toNat s
/-- NET_CTR_CLEAR. -/
def execNetCtrClear (who : Requester) (val : BitVec 8) (s : State) : Out := ownWrite who 0x3090 7 0 1 val.toNat s
/-- PEER_CTR_CLEAR. -/
def execPeerCtrClear (who : Requester) (val : BitVec 8) (s : State) : Out := ownWrite who 0x30A0 6 0 1 val.toNat s
/-- SENSOR_CLEAR. -/
def execSensorClear (who : Requester) (val : BitVec 16) (s : State) : Out := ownWrite who 0x3000 4 0 2 val.toNat s
/-- MONITOR_CLEAR. -/
def execMonitorClear (who : Requester) (val : BitVec 8) (s : State) : Out := ownWrite who 0x3012 1 0 1 val.toNat s
/-- MONITOR_CONFIG. -/
def execMonitorConfig (who : Requester) (i : Fin 32) (val : BitVec 256) (s : State) : Out :=
  ownWrite who 0x3010 1 i.val 32 val.toNat s
/-- LINE_PROBE_ADDR. -/
def execLineProbeAddr (who : Requester) (val : BitVec 64) (s : State) : Out := ownWrite who 0x3073 1 0 8 val.toNat s
/-- PIN_WAYS. -/
def execPinWays (who : Requester) (val : BitVec 8) (s : State) : Out := ownWrite who 0x2030 2 0 1 val.toNat s
/-- REPLICA_TABLE. -/
def execReplicaTable (who : Requester) (i : Fin 64) (val : BitVec 256) (s : State) : Out :=
  ownWrite who 0x2051 1 i.val 32 val.toNat s
/-- SCRUB_START. -/
def execScrubStart (who : Requester) (val : BitVec 8) (s : State) : Out := ownWrite who 0x2052 3 0 1 val.toNat s
/-- RETIRE_PAGE: `errs` is what the array returns as the code pages of a slow-tier page are copied, which corrects or marks them
(R304, R323). -/
def execRetirePage (who : Requester) (val : BitVec 64) (errs : List (Nat × ArrayErr)) (s : State) : Out :=
  let mine := errs.filter fun e => decide (0x4000000000 ≤ val.toNat) && decide (e.1 / 32 = val.toNat / 65536)
  let t := mine.foldl (fun s e => touchPage s e.1 (some e.2)) s
  match ownWrite who 0x2053 1 0 8 val.toNat t with
  | .next u => if u.obj 0x2053 3 0 = s.obj 0x2053 3 0 then ownWrite who 0x2053 1 0 8 val.toNat s else .next u
  | o => o
/-- CLIENT_KEYS. -/
def execClientKeys (who : Requester) (i : Fin 16) (val : BitVec 14400) (s : State) : Out :=
  ownWrite who 0x6020 1 i.val 1800 val.toNat s
/-- EVC_VALUES. -/
def execEvcValues (who : Requester) (off : Fin 32769) (len : Nat) (val : Nat) (s : State) : Out :=
  ownWrite who 0x7050 7 off.val len val s
/-- FN_QUIESCE. -/
def execFnQuiesce (who : Requester) (val : BitVec 8) (ns : Nat) (s : State) : Out :=
  if notBefore s ns then ownWrite who 0x7050 3 0 1 val.toNat (s.at ns) else cannot
/-- FN_RESUME. -/
def execFnResume (who : Requester) (val : BitVec 8) (s : State) : Out := ownWrite who 0x7050 4 0 1 val.toNat s
/-- MODULE_QUIESCE: MODULE_CMD 1. -/
def execModuleQuiesce (who : Requester) (ns : Nat) (s : State) : Out :=
  if notBefore s ns then ownWrite who 0x2002 1 0 1 1 (s.at ns) else cannot
/-- MODULE_RESUME: MODULE_CMD 2. -/
def execModuleResume (who : Requester) (s : State) : Out := ownWrite who 0x2002 1 0 1 2 s
/-- MODULE_WARM_START: MODULE_CMD 3. -/
def execModuleWarmStart (who : Requester) (s : State) : Out := ownWrite who 0x2002 1 0 1 3 s
/-- CONFIG_DEFAULTS. -/
def execConfigDefaults (who : Requester) (val : BitVec 8) (s : State) : Out := ownWrite who 0x2002 3 0 1 val.toNat s
/-- BEGIN: UPDATE_CMD 1. -/
def execUpdBegin (who : Requester) (s : State) : Out := ownWrite who 0x6010 1 0 1 1 s
/-- UPDATE_IMAGE. -/
def execUpdateImage (who : Requester) (off : BitVec 32) (len : Nat) (val : Nat) (s : State) : Out :=
  ownWrite who 0x6010 2 off.toNat len val s
/-- COMMIT: UPDATE_CMD 2. -/
def execUpdCommit (who : Requester) (s : State) : Out := ownWrite who 0x6010 1 0 1 2 s
/-- ABORT: UPDATE_CMD 3. -/
def execUpdAbort (who : Requester) (s : State) : Out := ownWrite who 0x6010 1 0 1 3 s
/-- THERMAL_RESTART. -/
def execThermalRestart (who : Requester) (val : BitVec 8) (s : State) : Out := ownWrite who 0x9030 3 0 1 val.toNat s
/-- PORT_ENABLE. -/
def execPortEnable (who : Requester) (p : Fin 8) (val : BitVec 8) (s : State) : Out := ownWrite who 0x8010 1 p.val 1 val.toNat s

/-! ## The handshake (R443, R445) -/

/-- DISCOVER: the reply carries SERIAL, PART_NUMBER, MODULE_ID, PLCA_NODE_ID and MODULE_STATE, in that order (log entry
34). -/
def execDiscover (d : Dgram) (s : State) : Out :=
  guarded (served s) <|
    if takesDgram s d true = false then s else
    let body := ofBytes (serialBytes ++ partBytes s ++
      [s.obj 0x8000 1 0 % 256, s.obj 0x8000 1 0 / 256, bits s.ctl.straps.toNat 4 5, s.moduleState])
    s.emit (.datagram 2 0 23 body (mgmtPort s))

/-- The first place of the session table that is free. -/
def freePlace (s : State) : Option (Fin 8) :=
  ((List.range 8).map (Fin.ofNat 8)).find? fun i => (sessionAt s i).isNone

/-- Whether any ADMIN key is enrolled (R465). -/
def adminEnrolled (s : State) : Bool := (List.range 16).any fun k => decide (keyRole s k = 2)

/-- Whether the firmware check of a start is still to come, so that there is no alias key (R516). -/
def aliasPending (s : State) : Bool :=
  match s.ctl.start with
  | some r => !r.done
  | none => false

/-- A session number that is not in use, other than 0: a free value, or the first free number where that one is taken. -/
def sessionNumber (s : State) (pick : Nat) : Nat :=
  let taken (n : Nat) : Bool := decide (n = 0) || s.mgmt.sessions.any fun x => decide (x.number = n)
  if taken pick then (((List.range 10).find? fun n => !taken n).getD 9) else pick

/-- The bytes of a signed text: six letters, then H. -/
def signedText (letters : List Nat) (h : Nat) : Nat := ofBytes letters + 2 ^ 48 * h

/-- HELLO: CHALLENGE opens a handshake; with no ADMIN key, with 8 sessions or before the alias key there is no reply. -/
def execHello (d : Dgram) (keySlot : BitVec 8) (nonce : BitVec 256) (key : BitVec 12544) (s : State) : Out :=
  guarded (served s) <|
    match freePlace s with
    | none => s
    | some place =>
      if takesDgram s d false = false ∨ adminEnrolled s = false ∨ aliasPending s then s
      else
        let fr (i : Nat) : Nat := (Config.freeBits (s.free + i)).toNat
        let number := sessionNumber s (fr 0 % 2 ^ 32)
        let mine := packElems (fun i => fr (1 + i)) 8 0 4
        let cipher := (Config.kemCipher key.toNat s.free).toNat
        let hello := keySlot.toNat + 2 ^ 256 * nonce.toNat + 2 ^ 512 * key.toNat
        let chal := number + 2 ^ 256 * mine + 2 ^ 512 * cipher
        let h := (Config.shake256 (hello + 2 ^ 13056 * chal) 3264).toNat
        let k := (Config.shake256 ((Config.kemSecret key.toNat s.free).toNat + 2 ^ 256 * h) 96).toNat % 2 ^ 256
        let sig := (Config.falconSign (aliasKey s) (signedText [109, 111, 100, 117, 108, 101] h)).toNat
        let x : Session :=
          { place := place
            number := number
            keySlot := keySlot.toNat
            open_ := false
            key := k
            hash := h
            highest := 0
            replies := []
            acctSel := 0
            logSel := 0 }
        let s := { s with
          free := s.free + 5
          mgmt := { s.mgmt with sessions := s.mgmt.sessions ++ [x] } }
        s.emit (.datagram 0x11 number 2912 (chal + 2 ^ 13056 * sig) (mgmtPort s))

/-- AUTH: the client's signature opens the session, or the session is discarded and the attempt logged. -/
def execAuth (d : Dgram) (session : BitVec 32) (sig : BitVec 10240) (s : State) : Out :=
  guarded (served s) <|
    match s.mgmt.sessions.find? fun x => takesDgram s d false && decide (x.number = session.toNat) && !x.open_ with
    | none => s
    | some x =>
      let e := s.obj 0x6020 1 x.keySlot
      let good := decide (x.keySlot < 16) && decide (keyRole s x.keySlot ≠ 0) &&
        Config.falconVerify (bits e 0 14344) (signedText [99, 108, 105, 101, 110, 116] x.hash) sig.toNat
      let record (cause severity : Nat) : LogRec := { LogRec.blank with
        kind := 6
        severity := severity
        cause := cause
        scope := 3
        block := x.keySlot }
      if good then (logRecord (putSession s { x with open_ := true }) (record 1 0)).emit (.datagram 0x13 x.number 0 0 (mgmtPort s))
      else
        logRecord { s with mgmt := { s.mgmt with sessions := s.mgmt.sessions.filter fun y => y.place != x.place } }
          (record 3 1)

/-- CLOSE: a datagram that the module does not take is discarded. -/
def execClose (i : Fin 8) (d : Dgram) (s : State) : Out :=
  guarded (served s) <|
    match sessionAt s i with
    | none => s
    | some x => if takesDgram s d false && x.open_ then closeSession s x else s

/-- SEGMENT_TIMEOUT: what has arrived of the message is discarded, without a reply (R440). -/
def execSegmentTimeout (session reqId : BitVec 32) (s : State) : Out :=
  .next { s with mgmt := { s.mgmt with segments := s.mgmt.segments.filter fun x =>
    !(decide (x.session = session.toNat) && decide (x.reqId = reqId.toNat)) } }

/-- SESSION_IDLE. -/
def execSessionIdle (i : Fin 8) (s : State) : Out :=
  match sessionAt s i with
  | none => cannot
  | some x => .next (closeSession s x)

end Sys2Proof.Machine
end

