-- ==== Sys2Proof/Machine/Host.lean ====
section
/-!
DEFINITION. What the host does through BAR2, the inbox channels, the event counters and the function-command block (R246,
R247, R312, R396, R407 to R415).
-/
namespace Sys2Proof.Machine

/-! ## BAR2 (R396) -/

/-- The size of the BAR2 window. -/
def bar2Size (s : State) : Nat := 2 ^ s.host.bar2Log2

/-- BAR2_WIN, used with its low bits below the window's size cleared. -/
def bar2Win (s : State) : Nat :=
  (bits (s.reg 0 0x20040) 28 4 * 2 ^ 28 + bits (s.reg 0 0x20044) 0 8 * 2 ^ 32) / bar2Size s * bar2Size s

/-- Reads the parts of a range of device memory at their homes for BAR2, from the host interface at BD0 (R26): the bytes, and
whether a marked sector was met; none where a transaction still holds a line BUSY. -/
def physRead : List (Nat × Nat) → Nat → State → Option ((Nat × Bool) × State)
  | [], _, s => some ((0, false), s)
  | (a, n) :: t, sh, s =>
    let l : Line := ⟨a / 512, false⟩
    let s := settle s l
    if lineBusy s l then none
    else
      let x := cohRead s agentHost 0 5 false l
      (physRead t (sh + 8 * n) x.2).map fun r =>
        (((lineBytes x.1.1 (a % 512) n <<< sh) + r.1.1, (touched (maskOf (a % 512) n) &&& x.1.2 != 0) || r.1.2), r.2)

/-- Writes the parts of a range of device memory at their homes with a hint, from the host interface at BD0 (R26). -/
def physWrite (ep : Bool) (hint : Nat) : List (Nat × Nat) → Nat → State → Option State
  | [], _, s => some s
  | (a, n) :: t, v, s =>
    let l : Line := ⟨a / 512, false⟩
    let s := settle s l
    if lineBusy s l then none
    else
      let m := maskOf (a % 512) n
      physWrite ep hint t (v / 2 ^ (8 * n))
        (cohWrite s agentHost 0 5 l (lineOf (a % 512) n v) m (if ep then touched m else 0) hint false)

/-- Whether a BAR2 access lies in the window. -/
def bar2Ok (s : State) (off len : Nat) : Bool := s.host.linkUp && decide (0 < len) && decide (off + len ≤ bar2Size s)

/-- BAR2_READ: at the lines' homes; a completion with any mark has EP set (R312). Before the PF is READY it is zero
(R423). -/
def execBar2Read (off : BitVec 40) (len : Fin 4097) (s : State) : Out :=
  if bar2Ok s off.toNat len.val = false then cannot
  else if fnActs s 0 = false then .next (s.emit (.completion 0 len.val 0 false))
  else
    match physRead (lineParts (bar2Win s + off.toNat) len.val) 0 s with
    | none => cannot
    | some r => .next (r.2.emit (.completion 0 len.val r.1.1 r.1.2))

/-- An entry of the host hint table (R247). -/
def hostHint (s : State) (i : Nat) : Nat := s.obj 0x2030 4 i

/-- The lowest-numbered hint entry whose range holds a BAR2 offset. -/
def hintEntry (s : State) (off : Nat) : Option Nat :=
  ((List.range 16).map (hostHint s)).find? fun e => decide (bits e 0 64 ≤ off) && decide (off < bits e 0 64 + bits e 64 64)

/-- The data of a write with hint 8000h + c reaches a core's local memory, or the deposit is dropped and counted (R246). -/
def hintDeposit (s : State) (fn c off len data : Nat) (bad : List Span) : State :=
  let k := s.core c
  match k.cmd with
  | none => dropDeposit s c
  | some x =>
    if inService s c ∧ x.fn.val = fn ∧ off + len ≤ x.window then
      s.setCore c (k.deposit { core := Fin.ofNat 256 c, off := off, len := len, data := data, bad := bad })
    else dropDeposit s c

/-- BAR2_WRITE: at the lines' homes with the hint of the host hint table; a TLP with EP set marks every sector it touches and
is reported (R247, R312). Before the PF is READY it is dropped (R423). -/
def execBar2Write (off : BitVec 40) (len : Fin 513) (val : LineData) (ep : Bool) (s : State) : Out :=
  if bar2Ok s off.toNat len.val = false then cannot
  else if fnActs s 0 = false then .next s
  else
    let e := hintEntry s off.toNat
    let hint := bits (e.getD 0) 128 16
    let pa := bar2Win s + off.toNat
    match physWrite ep hint (lineParts pa len.val) val.toNat s with
    | none => cannot
    | some s =>
      let at_ := bits (e.getD 0) 160 32 + (off.toNat - bits (e.getD 0) 0 64)
      let s := if 0x8000 ≤ hint then
          hintDeposit s (bits (e.getD 0) 144 8) (hint - 0x8000) at_ len.val (val.toNat % 2 ^ (8 * len.val))
            (if ep then [(at_, len.val)] else [])
        else s
      .next (if ep then poisonedTlp s 0 else s)

/-! ## Inbox channels (R407, R408) -/

/-- The registers of channel `c`. -/
def chanOff (c : Fin 8) : Nat := 0x3000 + 16 * c.val

/-- The packet of a sender that an inbox is locked to is abandoned (R139). -/
def abandonPacket (s : State) (core : Nat) (snd : Sender) : State :=
  if (s.core core).inbox.lock = some snd then abandonArriving s core else s

/-- IB_TARGET: a new core leaves the packet in progress to the old one abandoned there. -/
def execIbTarget (f : Fn) (chan : Fin 8) (val : Word) (be : BitVec 4) (s : State) : Out :=
  let old := bits (s.reg f.val (chanOff chan)) 0 8
  let v := bits (mergeBe old val be) 0 8
  fnWrite s f <|
    let s := if v = old then s else abandonPacket s old ⟨1, BitVec.ofNat 8 f.val, chan⟩
    s.setReg f.val (chanOff chan) v

/-- A refused word: IB_STAT notes and counts it, and the channel drops the rest of the packet. -/
def refuseWord (s : State) (f : Fn) (chan : Fin 8) (last : Bool) : State :=
  let o := chanOff chan + 12
  let s := sqcEvent s f.val o 16
  let v := s.reg f.val o
  let s := s.setReg f.val o (putBits v 20 12 (satAdd 12 (bits v 20 12) 1))
  { s with host := { s.host with chanDrop := sset (fun _ => false) s.host.chanDrop (8 * f.val + chan.val) (!last) } }

/-- A word that a channel offers. -/
def hostWord (s : State) (f : Fn) (chan : Fin 8) (val : Word) (last : Bool) : State :=
  if sget (fun _ => false) s.host.chanDrop (8 * f.val + chan.val) then refuseWord s f chan last
  else
    let r := offerWord s (bits (s.reg f.val (chanOff chan)) 0 8) ⟨1, BitVec.ofNat 8 f.val, chan⟩ f val last
    if r.1 then r.2 else refuseWord r.2 f chan last

/-- IB_WORD. -/
def execIbWord (f : Fn) (chan : Fin 8) (val : Word) (s : State) : Out := fnWrite s f (hostWord s f chan val false)

/-- IB_WORD_END. -/
def execIbWordEnd (f : Fn) (chan : Fin 8) (val : Word) (s : State) : Out := fnWrite s f (hostWord s f chan val true)

/-- EVENT_ADD (R409). -/
def execEventAdd (f : Fn) (e : Fin 4096) (val : Word) (s : State) : Out :=
  fnWrite s f (evAdd s f.val e.val val.toNat)

/-! ## Function commands (R410, R411) -/

/-- FCMD_STAT. -/
def fcmdStat : Nat := 0x20020
/-- An argument of a function command, 64 bits. -/
def fcmdArg (s : State) (i : Nat) : Nat := s.reg 0 (0x20008 + 8 * i) + 2 ^ 32 * s.reg 0 (0x2000C + 8 * i)
/-- FCMD_FUNC. -/
def fcmdFunc (s : State) : Fn := Fin.ofNat 256 (bits (s.reg 0 0x20000) 0 8)

/-- A command ends: SEQ advances, RESULT holds its code. -/
def fcmdEnd (s : State) (result : Nat) : State :=
  let v := s.reg 0 fcmdStat
  let s := s.setReg 0 fcmdStat (putBits (putBits (putBits v 0 16 (bits v 0 16 + 1)) 16 1 0) 24 8 result)
  { s with host := { s.host with fcmd := none } }

/-- A command starts; it has run in full but for the accesses that its end waits for. -/
def fcmdBegin (s : State) (op result : Nat) : State :=
  let s := s.setReg 0 fcmdStat (putBits (s.reg 0 fcmdStat) 16 1 1)
  ({ s with host := { s.host with fcmd := some ⟨op, fcmdFunc s, result, s.stamp⟩ } }).tickStamp

/-- A write of an operation code to FCMD_OP: dropped while a command runs; a function that is not enabled, a bad argument
and a state that does not allow the command are refused in that order. -/
def fcmd (s : State) (op : Nat) (argOk stateOk : Bool) (eff : State → Fn → Nat × State) : Out :=
  guarded s.host.linkUp <|
    if s.host.fcmd.isSome then s
    else if fnPresent s (fcmdFunc s) = false then fcmdBegin s op 2
    else if argOk = false then fcmdBegin s op 3
    else if stateOk = false then fcmdBegin s op 4
    else
      let r := eff s (fcmdFunc s)
      fcmdBegin r.2 op r.1

/-- The state of the command's function is READY, DRAINING or QUIESCED. -/
def fcmdActs (s : State) : Bool := fnActs s (fcmdFunc s)

/-- Drops the cached translations of pages `lo` to `hi - 1` of a function. -/
def dropTranslations (s : State) (f lo hi : Nat) : State :=
  { s with host := { s.host with tlb := sclear s.host.tlb (f * 2 ^ 32 + lo) (f * 2 ^ 32 + hi) } }

/-- SET_CTX. -/
def execSetCtx (s : State) : Out :=
  let base := fcmdArg s 0
  fcmd s 1 (decide (base % 2 ^ 19 = 0) && decide (base < 2 ^ 40)) (fcmdActs s) fun s f =>
    let s := { s with host := { s.host with
      ctxBase := sset (fun _ => 0) s.host.ctxBase f.val base
      ctxSet := sset (fun _ => false) s.host.ctxSet f.val true } }
    (0, dropTranslations s f.val 0 (2 ^ 32))

/-- INVAL; length 0 means the whole space. -/
def execInval (s : State) : Out :=
  let base := fcmdArg s 0
  let len := fcmdArg s 1
  fcmd s 2 (decide (base % 65536 = 0) && decide (len % 65536 = 0)) (fcmdActs s) fun s f =>
    (0, if len = 0 then dropTranslations s f.val 0 (2 ^ 32)
      else dropTranslations s f.val (min (2 ^ 32) (base / 65536)) (min (2 ^ 32) ((base + len) / 65536)))

/-- The drain limit that a QUIESCE names; 0 takes 7050h:02h. -/
def quiesceLimit (s : State) : Nat :=
  let l := fcmdArg s 0 % 65536
  if l = 0 then drainLimit s (fcmdFunc s).val else l

/-- QUIESCE, which ends at once (R417). -/
def execQuiesce (ns : Nat) (s : State) : Out :=
  if notBefore s ns then
    let s := s.at ns
    match fcmd s 3 (decide (fcmdArg s 0 % 65536 ≤ 4096)) (decide (s.fnState (fcmdFunc s).val = 2)) fun s f =>
        (0, beginDrain s f.val (quiesceLimit s)) with
    | .next t => .next (if s.host.fcmd.isNone then fcmdEnd t (match t.host.fcmd with
        | some c => c.result
        | none => 0) else t)
    | o => o
  else cannot

/-- RESUME. -/
def execResume (s : State) : Out :=
  fcmd s 4 true (decide (s.fnState (fcmdFunc s).val = 4)) fun s f => (0, resumeFn s f.val)

/-- DIRTY_START: logging starts and DIRTY_LOST is zero (R414, R421). -/
def execDirtyStart (s : State) : Out :=
  let log := fcmdArg s 0
  fcmd s 5 (decide (log % 512 = 0)) (fcmdActs s) fun s f =>
    (0, ({ s with host := { s.host with dirty := sset (fun _ => 0) s.host.dirty f.val (log + 1) } }).setObj 0x7050 5 f.val 0)

/-- DIRTY_STOP. -/
def execDirtyStop (s : State) : Out :=
  fcmd s 6 true (fcmdActs s) fun s f =>
    (0, { s with host := { s.host with dirty := sset (fun _ => 0) s.host.dirty f.val 0 } })

/-- How a collection ends. -/
inductive Collected where
  | ok | fault | busy
  deriving DecidableEq, Repr

/-- The accesses of a function command: the module's own, in the PF's context. -/
def fcmdAccess : Access := ownAccess 0

/-- Writes the parts of a run of bytes in the PF's context, with the marks of their data. -/
def putMarked (bad : Bool) : List (Nat × Nat) → Nat → State → Collected × State
  | [], _, s => (.ok, s)
  | (a, n) :: t, v, s =>
    let r := vline s fcmdAccess a true
    match r.1 with
    | .error .busy => (.busy, s)
    | .error _ => (.fault, r.2)
    | .ok l =>
      let m := maskOf (a % 512) n
      putMarked bad t (v / 2 ^ (8 * n))
        (writeLine r.2 fcmdAccess a l (lineOf (a % 512) n v) m (if bad then touched m else 0) 0)

/-- Collects the log words in the parts of a log range: each log line is read and cleared at its home, and its words go to
the destination (R415). A destination that cannot be written stops the collection before the line is cleared. -/
def collect : List (Nat × Nat) → Nat → State → Collected × State
  | [], _, s => (.ok, s)
  | (a, n) :: t, dst, s =>
    let r := vline s fcmdAccess a true
    match r.1 with
    | .error .busy => (.busy, s)
    | .error _ => (.fault, r.2)
    | .ok l =>
      let x := readLine r.2 fcmdAccess l
      let bad := touched (maskOf (a % 512) n) &&& x.1.2 != 0
      match putMarked bad (lineParts dst n) (lineBytes x.1.1 (a % 512) n) x.2 with
      | (.ok, s) => collect t (dst + n) (writeLine s fcmdAccess a l 0 (maskOf (a % 512) n) 0 0)
      | r => r

/-- DIRTY_COLLECT (R415). It needs a log, so that it is a wrong state where logging does not run. -/
def execDirtyCollect (s : State) : Out :=
  let va := fcmdArg s 0
  let n := fcmdArg s 1
  let log := sget (fun _ => 0) s.host.dirty (fcmdFunc s).val
  let argOk := decide (va % 65536 = 0) && decide (0 < n) && decide (n ≤ 2 ^ 20)
  let stateOk := fcmdActs s && decide (log ≠ 0)
  if s.host.linkUp && s.host.fcmd.isNone && fnPresent s (fcmdFunc s) && argOk && stateOk then
    match collect (lineParts (log - 1 + 2 * (va / 65536)) (2 * n)) (fcmdArg s 2) s with
    | (.busy, _) => cannot
    | (.ok, s) => .next (fcmdBegin s 7 0)
    | (.fault, s) => .next (fcmdBegin s 7 5)
  else fcmd s 7 argOk stateOk fun s _ => (0, s)

/-- Whether an access of a function that was made before a moment of the model's order is still outstanding. -/
def olderAccess (s : State) (f : Fn) (since : Nat) : Bool :=
  s.cores.any fun p =>
    p.2.loads.any (fun x => x.fn == f && decide (x.tag < since)) ||
    p.2.xfers.any (fun x => x.fn == f && decide (x.tag < since)) ||
    p.2.writes.any (fun x => x.msg.fn == f && decide (x.tag < since))

/-- FCMD_DONE: a running command ends. SET_CTX and INVAL end when every access that an old translation served is answered,
DIRTY_STOP when every logged write has set its bits. -/
def execFcmdDone (s : State) : Out :=
  match s.host.fcmd with
  | none => cannot
  | some c =>
    guarded (decide (c.op ≠ 1 ∧ c.op ≠ 2 ∧ c.op ≠ 6) || decide (c.result ≠ 0) || !olderAccess s c.fn c.since)
      (fcmdEnd s c.result)

end Sys2Proof.Machine
end

