-- ==== Sys2Proof/Machine/Regs.lean ====
section
/-!
DEFINITION. The register map: reserved locations, partial writes, sequence-number clearing, the error log, indirect access,
the mailbox and module status (R535 to R550).
-/
namespace Sys2Proof.Machine

/-! ## The index (R397, R549, R550) -/

/-- The access of an implemented location (R550). -/
inductive RegKind where
  | rw | ro | wo | sqc
  deriving DecidableEq, Repr

/-- A queue block: BASE_LO, BASE_HI, CTL, HEAD or TAIL, STATUS. -/
def queueKind (r : Nat) : Option RegKind :=
  if r < 12 then some .rw else if r = 12 then some .ro else if r = 16 then some .sqc else none

/-- An inbox channel: IB_TARGET, IB_WORD, IB_WORD_END, IB_STAT. -/
def chanKind (r : Nat) : Option RegKind := if r = 0 then some .rw else if r = 12 then some .sqc else some .wo

/-- A location of a function page at a multiple of 4. -/
def pageKind (vf : Bool) (off : Nat) : Option RegKind :=
  if off < 0x400 then (if off % 8 = 0 then some .wo else none)
  else if off < 0x1000 then none
  else if off < 0x2000 then queueKind (off % 32)
  else if off = 0x2000 ∨ off = 0x2010 then some .ro
  else if off = 0x2014 then some .wo
  else if off = 0x2018 then some .sqc
  else if off < 0x2010 then some .rw
  else if off < 0x3000 then none
  else if off < 0x3080 then chanKind (off % 16)
  else if off < 0x4000 then none
  else if off < 0x8001 then some .wo
  else if off = 0x8004 then some .sqc
  else if off = 0x8008 then some .rw
  else if off = 0x800C then some .ro
  else if off < 0x8100 then none
  else if off < 0xA000 then some .rw
  else if off < 0xC000 then some .ro
  else if off < 0xC100 then (if vf then some .rw else none)
  else if 0xD000 ≤ off ∧ off < 0xD008 then (if vf then some .ro else none)
  else none

/-- A location of BAR0 outside the PF's function page. -/
def blockKind (off : Nat) : Option RegKind :=
  if off < 0x18000 then some .rw
  else if off < 0x18100 then some .ro
  else if off = 0x20004 then some .wo
  else if off = 0x20020 ∨ off = 0x21000 ∨ off = 0x2102C then some .sqc
  else if 0x20000 ≤ off ∧ off < 0x20020 then some .rw
  else if off = 0x20040 ∨ off = 0x20044 ∨ off = 0x21020 ∨ off = 0x21024 ∨ off = 0x21028 ∨ off = 0x21040 ∨ off = 0x21044 then some .rw
  else if (0x21004 ≤ off ∧ off ≤ 0x21010) ∨ off = 0x21048 ∨ (0x21050 ≤ off ∧ off < 0x21060) ∨ off = 0x22000 ∨ off = 0x22004 then
    some .ro
  else none

/-- The register at a byte offset of a function's BAR; none where the location is reserved. -/
def regKind (f off : Nat) : Option RegKind :=
  if off % 4 ≠ 0 then none
  else if off < 0x10000 then pageKind (decide (f ≠ 0)) off
  else if f = 0 then blockKind off
  else none

/-- The bytes of a function's BAR0 (R395). -/
def barSize (f : Nat) : Nat := if f = 0 then 2 ^ 25 else 65536

/-- An area that accepts accesses of any length: the request and reply areas, the MSI-X table and the PBA (R535). -/
def longArea (f off n : Nat) : Bool :=
  let within (lo hi : Nat) : Bool := decide (lo ≤ off) && decide (off + n ≤ hi)
  within 0x8100 0xA000 || within 0xA000 0xC000 ||
    (if f = 0 then within 0x10000 0x18000 || within 0x18000 0x18100 else within 0xC000 0xC100 || within 0xD000 0xD008)

/-- Whether an access of `dws` registers is one to a reserved location, or treated as one (R535, R537). -/
def isReserved (f off dws : Nat) : Bool :=
  if dws = 1 then (regKind f off).isNone
  else if dws = 2 then decide (off % 8 ≠ 0) || (regKind f off).isNone || (regKind f (off + 4)).isNone
  else !longArea f off (4 * dws)

/-- The address that the error log shows: of the first reserved DW, or of the access where every DW is implemented. -/
def firstReserved (f off dws : Nat) : Nat :=
  (((List.range dws).map fun i => off + 4 * i).find? fun o => (regKind f o).isNone).getD off

/-- Whether a location acts before its function is READY (R423): everything but a function page's own registers. -/
def actsAt (s : State) (f : Fn) (off : Nat) : Bool :=
  fnActs s f || decide (0x10000 ≤ off) || (decide (0x8000 ≤ off) && decide (off < 0x10000)) || decide (off = 0x2000)

/-- An access that reaches a function's BAR. -/
def reaches (s : State) (f : Fn) (off len : Nat) : Bool :=
  s.host.linkUp && fnPresent s f && decide (off % 4 = 0) && decide (off + len ≤ barSize f.val)

/-! ## The error log (R538) -/

/-- A dropped register write is logged; it replaces the one before it. -/
def errLog (s : State) (cause addr f : Nat) (target : Option Nat) (be : BitVec 4) (val : Word) : State :=
  let v := s.reg 0 0x21000
  let lost := if bits v 24 8 = 0 then bits v 16 1 else 1
  let s := s.setReg 0 0x21000 (bits (bits v 0 16 + 1) 0 16 + 2 ^ 16 * lost + 2 ^ 24 * cause)
  let s := s.setReg 0 0x21004 addr
  let s := s.setReg 0 0x21008 (f + (match target with
    | some t => 2 ^ 8 + 2 ^ 16 * t
    | none => 0) + 2 ^ 24 * be.toNat)
  let s := s.setReg 0 0x2100C val.toNat
  s.setReg 0 0x21010 (satAdd 32 (s.reg 0 0x21010) 1)

/-- RESERVED_ACCESS (R537, R530): a read completes with Unsupported Request; a write is dropped and logged. -/
def execReservedAccess (write : Bool) (a : RegAccess) (dws : Fin 1025) (s : State) : Out :=
  let off := a.off.toNat
  guarded (s.host.linkUp && fnPresent s a.fn && decide (off % 4 = 0) && decide (0 < dws.val) &&
      decide (off < barSize a.fn.val) && isReserved a.fn.val off dws.val) <|
    let s := if write then errLog s 1 (firstReserved a.fn.val off dws.val) a.fn.val none a.be a.val else s.emit (.ur a.fn)
    aer s a.fn "Unsupported Request" 1 0

/-- PARTIAL (R535): a write with partial byte enables to a WO or SQC register is dropped and logged; before READY a
function page drops it without a log entry (R423). -/
def execPartialWrite (a : RegAccess) (s : State) : Out :=
  let off := a.off.toNat
  let k := regKind a.fn.val off
  guarded (reaches s a.fn off 4 && decide (a.be ≠ 15) && (k == some .wo || k == some .sqc)) <|
    if actsAt s a.fn off then aer (errLog s 2 off a.fn.val none a.be a.val) a.fn "Unsupported Request" 1 0 else s

/-! ## Sequence-number clearing (R539) -/

/-- What a clear leaves of an SQC register: SEQ, and BUSY where the register has it (log entry 36). -/
def sqcKept (off v : Nat) : Nat := bits v 0 16 + (if off = 0x20020 ∨ off = 0x8004 then 2 ^ 16 * bits v 16 1 else 0)

/-- SQC_CLEAR: a write whose bits [15:0] equal SEQ clears every event bit; any other clears nothing. -/
def execSqcClear (f : Fn) (off : BitVec 25) (val : Word) (s : State) : Out :=
  let o := off.toNat
  guarded (reaches s f o 4 && regKind f.val o == some .sqc) <|
    if actsAt s f o && decide (bits val.toNat 0 16 = bits (s.reg f.val o) 0 16) then
      s.setReg f.val o (sqcKept o (s.reg f.val o))
    else s

/-! ## Indirect access (R541 to R543) -/

/-- The power domain of a die target: CD0 to CD7, then BD0 to BD3 (R35). -/
def dieDomain (t : Nat) : Nat := if t < 8 then t else t + 2

/-- Whether a block marked unusable belongs to a die: compute dies 0 to 7, base dies 8 to 11 (log entry 36). -/
def blockOfDie (d : Nat) (b : Block) : Bool :=
  let n := b.no.toNat
  match b.kind.toNat with
  | 1 => decide (n / 36 = d)
  | 2 => decide (n / 36 = d)
  | 3 => decide (n / 8 = d)
  | 4 => decide (n / 16 = d)
  | 5 => decide (8 + (n - 128) / 24 = d)
  | 7 => decide (8 + n / 17 = d)
  | 9 => decide (8 + 2 * n = d)
  | _ => false

/-- The junction temperature sensors of a die (R449). -/
def dieSensors (d : Nat) : List Nat :=
  if d < 8 then (List.range 12).map fun i => 18 * d + i else (List.range 8).map fun i => 144 + 14 * (d - 8) + i

/-- A reading in sixteenths of a degree; none where it is no number, or lies between two of them. -/
def sixteenths (v : FVal) : Option Int :=
  match v with
  | .fin neg m e =>
    let n : Option Nat :=
      if -4 ≤ e then some (m <<< (e + 4).toNat)
      else if m % 2 ^ (-e - 4).toNat = 0 then some (m >>> (-e - 4).toNat)
      else none
    n.map fun k => if neg then -(k : Int) else (k : Int)
  | _ => none

/-- The greatest of a die's readings. -/
def hottest (s : State) (d : Nat) : FVal :=
  (dieSensors d).foldl (fun m i =>
    let v := Fmt.fp32.decode (s.obj 0x3000 1 i)
    match m with
    | .nan => v
    | m => if v.isNan || decide (v.cmp m < 0) then m else v) .nan

/-- DIE_TEMP; free where the spec gives the register no value (log entry 36). -/
def dieTemp (s : State) (d : Nat) : Nat × State :=
  match sixteenths (hottest s d) with
  | some i => ((i % 65536).toNat, s)
  | none => ((drawFree s).1.toNat % 65536, (drawFree s).2)

/-- DIE_STATUS. -/
def dieStatus (s : State) (d : Nat) : Nat :=
  1 + 2 * b2n s.power.pllLocked + 4 * bits (s.obj 0x9030 1 d) 0 2 + 16 * b2n (s.ctl.unusable.any (blockOfDie d))

/-- SITE_STATUS. -/
def siteStatus (s : State) (psn : Nat) : Nat :=
  let base := bits (s.obj 0x4010 2 psn) 0 8 + 2 ^ 8 * b2n (s.net.fenced.contains psn) + 2 ^ 10 * bits (s.obj 0x4060 4 psn) 0 1
  match coreOfSite s psn with
  | none => base + 2 ^ 9
  | some c => if (s.core c).hw.gated then base + 2 ^ 9 else base + 2 ^ 16 * bits (s.obj 0x9020 2 c) 0 16

/-- A register of a compute or base die; the cycle count and the CRC failures of the last millisecond are free (log entry
36). -/
def dieReg (s : State) (d off : Nat) : Option (Nat × State) :=
  if off = 0 then
    some ((if d < 8 then d else d - 8) + 16 * b2n (decide (8 ≤ d)) + 256 * (Config.dieStepping d).toNat, s)
  else if off = 4 then some (dieStatus s d, s)
  else if off = 8 then some (dieTemp s d)
  else if off = 12 then some ((drawFree s).1.toNat % 2 ^ 32, (drawFree s).2)
  else if d < 8 ∧ 0x100 ≤ off ∧ off < 0x190 then some (siteStatus s (36 * d + (off - 0x100) / 4), s)
  else if d < 8 ∧ 0x200 ≤ off ∧ off < 0x220 then
    some (b2n (decide (s.obj 0x4010 3 (8 * d + (off - 0x200) / 4) = 0)) + 2 ^ 16 * ((drawFree s).1.toNat % 2 ^ 16), (drawFree s).2)
  else none

/-- A register of the management domain. -/
def mgmtReg (s : State) (off : Nat) : Option (Nat × State) :=
  if off = 0 then some (bits (s.obj 0x4001 1 0) 0 2 + 4 * bits (s.obj 0x4001 1 1) 0 2 + 256 * bits s.moduleState 0 8, s)
  else if off = 4 then some ((s.now - s.mgmt.uptime) / 1000000 % 2 ^ 32, s)
  else none

/-- What an access to the indirect space meets: a register's value, or the failing event bit of IND_STAT. -/
def indRead (s : State) : Except Nat (Nat × State) :=
  let a := s.reg 0 0x21020
  let t := bits a 24 8
  let off := bits a 2 22 * 4
  let r := if t < 12 then dieReg s t off else if t = 32 then mgmtReg s off else none
  if t < 12 ∧ s.power.domains.getLsbD (dieDomain t) = false then .error 17
  else
    match r with
    | some x => .ok x
    | none => .error 16

/-- AUTOINC: OFFSET advances by 4 and wraps within its target. -/
def autoInc (s : State) : State :=
  let a := s.reg 0 0x21020
  if bit (s.reg 0 0x21028) 0 then s.setReg 0 0x21020 (putBits a 0 24 (bits a 0 24 + 4)) else s

/-- IND_DATA_READ: a failed read completes with zero. -/
def execIndDataRead (s : State) : Out :=
  guarded s.host.linkUp <|
    match indRead s with
    | .ok (v, s) => (autoInc s).emit (.completion 0 4 v false)
    | .error e => (autoInc (sqcEvent s 0 0x2102C e)).emit (.completion 0 4 0 false)

/-- A write of IND_DATA: no indirect register can be written, so it is dropped and logged. -/
def indWrite (s : State) (val : Word) (be : BitVec 4) : State :=
  let e := match indRead s with
    | .ok _ => 16
    | .error e => e
  let a := s.reg 0 0x21020
  autoInc (errLog (sqcEvent s 0 0x2102C e) 4 (bits a 0 24) 0 (some (bits a 24 8)) be val)

/-- IND_DATA_WRITE. -/
def execIndDataWrite (val : Word) (s : State) : Out := guarded s.host.linkUp (indWrite s val 15)

/-! ## The mailbox (R251, R544 to R546) -/

/-- A U64 object, or an ARRAY of them, that the PF may read. -/
def wideObj (key : Nat) : Option Obj :=
  match findObj (key / 256) (key % 256) with
  | some o => if (o.typ = 5 ∨ (o.typ = 10 ∧ o.etyp = 5)) ∧ o.acc ≠ 2 then some o else none
  | none => none

/-- The value of a selector with its argument; none where the selector is invalid. -/
def mbxValue (s : State) (sel arg : Nat) : Option Nat :=
  let low := bits sel 0 24
  match bits sel 24 8 with
  | 1 => if low = 0 then some (s.now % 2 ^ 64 + 2 ^ 64 * (s.tick % 2 ^ 64)) else none
  | 0x10 =>
    if bits low 8 3 ≤ 3 ∧ bits low 0 8 = 0 then
      some (sget (fun _ => 0) s.coh.cacheCtr
        (((bits low 16 8 * 4 + bits low 14 2) * 8 + bits low 11 3) * 4 + bits low 8 3) % 2 ^ 64)
    else none
  | 0x20 =>
    match wideObj low with
    | none => none
    | some o =>
      match view s (.window 0) o with
      | some (n, _, f) => if arg < n then some (f arg % 2 ^ 64) else none
      | none => none
  | _ => none

/-- MBX_STAT and the data registers. -/
def setMbx (s : State) (stat v : Nat) : State :=
  let s := s.setReg 0 0x21048 stat
  (List.range 4).foldl (fun s i => s.setReg 0 (0x21050 + 4 * i) (bits v (32 * i) 32)) s

/-- Whether a capture runs. -/
def mbxBusy (s : State) : Bool := bit (s.reg 0 0x21048) 1

/-- A write to MBX_SEL: dropped and logged while a capture runs, else a capture starts; that of an invalid selector ends at
once. -/
def mbxStart (s : State) (val : Word) (be : BitVec 4) : State :=
  if mbxBusy s then errLog s 3 0x21040 0 none be val
  else
    let v := mergeBe (s.reg 0 0x21040) val be
    let s := s.setReg 0 0x21040 v
    setMbx s (if (mbxValue s v (s.reg 0 0x21044)).isSome then 2 else 5) 0

/-- MBX_SEL. -/
def execMbxSel (val : Word) (s : State) : Out := guarded s.host.linkUp (mbxStart s val 15)

/-- MBX_CAPTURE_DONE. DEDUCED (log entry 36): the value is that of this moment. -/
def execMbxCaptureDone (s : State) : Out :=
  guarded (mbxBusy s) <|
    match mbxValue s (s.reg 0 0x21040) (s.reg 0 0x21044) with
    | some v => setMbx s 1 v
    | none => setMbx s 5 0

/-- MBX_DATA3_READ: releases the mailbox; while VALID is 0 it returns 0 and releases nothing. -/
def execMbxData3Read (s : State) : Out :=
  guarded s.host.linkUp <|
    let v := s.reg 0 0x2105C
    if bit (s.reg 0 0x21048) 0 then (setMbx s 0 0).emit (.completion 0 4 v false) else s.emit (.completion 0 4 0 false)

/-! ## Register writes without a row of their own (R540) -/

/-- The bits of an RW register that a write changes; the others read zero. -/
def regMask (f off : Nat) : Nat :=
  let all := 2 ^ 32 - 1
  let base := all - 0xFFF
  if off < 0x1000 then 0
  else if off < 0x2000 then (if off % 32 = 0 then base else if off % 32 = 4 then 0xFFFF else 0)
  else if off = 0x2004 then base
  else if off = 0x2008 then 0xFFFF
  else if off = 0x8008 then 0x1FFF
  else if 0x8100 ≤ off ∧ off < 0xA000 then all
  else if (f ≠ 0 ∧ 0xC000 ≤ off ∧ off < 0xC100) ∨ (f = 0 ∧ 0x10000 ≤ off ∧ off < 0x18000) then
    (if off % 16 = 0 then all - 3 else if off % 16 = 12 then 1 else all)
  else if off = 0x20000 ∨ off = 0x20044 then 0xFF
  else if off = 0x20040 then 0xF0000000
  else if off = 0x21028 then 1
  else if (0x20008 ≤ off ∧ off < 0x20020) ∨ off = 0x21020 ∨ off = 0x21044 then all
  else 0

/-- Whether a write of all bytes to an RW or WO register has a row of its own. -/
def ownRow (off : Nat) : Bool :=
  (decide (0x1000 ≤ off) && decide (off < 0x2000) && decide (off % 32 = 8)) || decide (off = 0x200C) ||
    (decide (0x3000 ≤ off) && decide (off < 0x3080))

/-- Whether a register's write is dropped while its block is BUSY (R410, R446). -/
def heldReg (s : State) (f : Fn) (off : Nat) : Bool :=
  ((decide (off = 0x8008) || (decide (0x8100 ≤ off) && decide (off < 0xA000))) && bit (s.reg f.val dwStat) 16) ||
    ((decide (off = 0x20000) || (decide (0x20008 ≤ off) && decide (off < 0x20020))) && s.host.fcmd.isSome)

/-- The effect of a write on an RW or RO register; a write to a read-only one is ignored. -/
def regWrite (s : State) (a : RegAccess) : State :=
  let off := a.off.toNat
  let f := a.fn.val
  if regKind f off = some .ro then s
  else if off = 0x21024 then indWrite s a.val a.be
  else if off = 0x21040 then mbxStart s a.val a.be
  else if off = 0x21044 ∧ mbxBusy s then errLog s 3 off f none a.be a.val
  else if heldReg s a.fn off then s
  else s.setReg f off (mergeBe (s.reg f off) a.val a.be &&& regMask f off)

/-- A write of an operation code that no command has to FCMD_OP (R410). -/
def badOp (s : State) (val : Word) : State := if s.host.fcmd.isSome then s else fcmdBegin s (bits val.toNat 0 8) 1

/-- Whether a write to FCMD_OP names no command. -/
def noSuchOp (val : Word) : Bool := decide (bits val.toNat 0 8 = 0) || decide (7 < bits val.toNat 0 8)

/-- REGISTER_WRITE: a write to an RW or RO register without a row of its own, and one of a code that is no command to
FCMD_OP. Before READY a function page drops it (R423). -/
def execRegisterWrite (a : RegAccess) (s : State) : Out :=
  let off := a.off.toNat
  let k := regKind a.fn.val off
  if reaches s a.fn off 4 && decide (off = 0x20004) && decide (a.be = 15) && noSuchOp a.val then .next (badOp s a.val)
  else
    guarded (reaches s a.fn off 4 && (k == some .rw || k == some .ro) && !ownRow off)
      (if actsAt s a.fn off then regWrite s a else s)

/-! ## Reads (R397, R422, R423, R547) -/

/-- FN_STATUS. -/
def fnStatus (s : State) (f : Fn) : Nat :=
  let st := s.fnState f.val
  b2n (fnActs s f) + 2 * b2n (ctxSet s f.val) + 4 * b2n (decide (st = 3)) + 8 * b2n (decide (st = 4)) +
    16 * b2n (decide (st = 1)) + 256 * f.val

/-- MOD_STATUS. -/
def modStatus (s : State) : Nat :=
  bits s.moduleState 0 8 + 2 ^ 8 * bits (s.obj 0x4080 1 0) 0 2 + 2 ^ 10 * bits (s.obj 0x4000 1 0) 0 1 +
    2 ^ 11 * bits (s.obj 0x4070 4 0) 0 1 + 2 ^ 16 * bits (s.obj 0x5010 2 0) 0 8

/-- REG_MAP_ID. -/
def regMapId : Nat := 0x00019200

/-- What a read of one implemented register returns; IND_DATA and MBX_DATA3 have rows of their own. -/
def regRead (s : State) (f : Fn) (off : Nat) : Nat :=
  match regKind f.val off with
  | some .wo => 0
  | _ =>
    if off = 0x2000 then fnStatus s f
    else if off = 0x22000 then modStatus s
    else if off = 0x22004 then regMapId
    else if actsAt s f off then s.reg f.val off
    else 0

end Sys2Proof.Machine
end

