-- ==== Sys2Proof/Machine/Mgmt.lean ====
section
/-!
DEFINITION. The two management processors, the sensors, the log's flash writes and the ageing monitors (R424 to R428, R449 to
R455, R484).
-/
namespace Sys2Proof.Machine

/-! ## Heartbeats (R425) -/

/-- Whether Iluon's domain is up. -/
def iluonUp (s : State) : Bool := s.power.domains.getLsbD 19

/-- HEARTBEAT: it carries a copy of every write that waits; one that follows before the acknowledgement carries no further
copy (log entry 37). -/
def execHeartbeat (s : State) : Out :=
  guarded (iluonUp s && standbyServes s) <|
    if s.mgmt.hbOut then s.emit (.hb 0)
    else
      let n := s.mgmt.held.length
      let s := { s with mgmt := { s.mgmt with
        hbOut := true
        held := s.mgmt.held.map fun (h : HeldWrite) => { h with sent := true } } }
      s.emit (.hb n)

/-- Applies and answers held writes in their order. -/
def applyHeld (s : State) (l : List HeldWrite) : State := l.foldl (fun s h => answer s h.who h.req) s

/-- HEARTBEAT_ACK: the writes whose copies the standby has are applied and answered. -/
def execHeartbeatAck (s : State) : Out :=
  guarded (s.mgmt.hbOut && standbyServes s) <|
    let known := s.mgmt.held.filter fun h => h.sent
    let s := { s with mgmt := { s.mgmt with
      hbOut := false
      hbAcked := true
      held := s.mgmt.held.filter fun h => !h.sent } }
    applyHeld s known

/-- A held write that neither processor keeps: a session may send it again under its REQ_ID (R426, R444). -/
def forgetHeld (s : State) (h : HeldWrite) : State :=
  match h.who with
  | .window _ => s
  | .session i reqId _ =>
    match sessionAt s i with
    | none => s
    | some x => putSession s { x with highest := min x.highest (reqId.toNat - 1) }

/-- MGMT_TAKEOVER (R426): the standby becomes primary; sessions survive, an update in progress is ABORTED, and the writes that
were held are known to neither. -/
def execMgmtTakeover (s : State) : Out :=
  let old := s.mgmt.primary
  let new : Fin 2 := 1 - old
  guarded (iluonUp s && decide (s.obj 0x4001 1 new.val = 1)) <|
    let s := s.mgmt.held.foldl forgetHeld s
    let s := { s with mgmt := { s.mgmt with
      primary := new
      held := []
      hbOut := false
      updOwner := none
      ringDriven := true
      uptime := s.now } }
    let s := ((s.setObj 0x4001 1 old.val 2).setObj 0x4001 1 new.val 0).bump32 0x4001 2 0 1
    let s := if updating s then setUpd s 6 else s
    takeoverNow (flagReplace s 6) 0x58 3 (blockOf 9 old.val) 0

/-- MGMT_LOST (R427): the standby is marked failed, and writes no longer wait for it. -/
def execMgmtLost (s : State) : Out :=
  let other : Fin 2 := 1 - s.mgmt.primary
  guarded (iluonUp s && decide (s.obj 0x4001 1 other.val = 1)) <|
    let l := s.mgmt.held
    let s := { s with mgmt := { s.mgmt with
      held := []
      hbOut := false } }
    let s := takeoverRecord (flagReplace (s.setObj 0x4001 1 other.val 2) 6) 0x59 3 (blockOf 9 other.val) 0xFFFF 0 0
    applyHeld s l

/-! ## Sensors (R449, R450) -/

/-- The lesser or the greater of two F32 codes; the first reading replaces NaN. -/
def pick32 (least : Bool) (old new : Nat) : Nat :=
  match Fmt.fp32.decode old with
  | .nan => new
  | o =>
    let v := Fmt.fp32.decode new
    if (least && decide (v.cmp o < 0)) || (!least && decide (o.cmp v < 0)) then new else old

/-- The record of a sensor that has failed, once for each failure (log entry 24). -/
def sensorFailed (s : State) (i : Nat) : State :=
  if sget (fun _ => 0) s.mgmt.lastSample (512 + i) = 1 then s
  else
    let s := { s with mgmt := { s.mgmt with lastSample := sset (fun _ => 0) s.mgmt.lastSample (512 + i) 1 } }
    let s := logRecord s { LogRec.blank with
      kind := 2
      severity := 1
      scope := 2
      detail := i }
    s.setObj 0x4070 2 0 (newestRecord s)

/-- One reading: the value, its extremes and its monitors. -/
def sensorValue (s : State) (i code : Nat) : State :=
  let s := s.setObj 0x3000 1 i code
  let v := Fmt.fp32.decode code
  if v.isNan then sensorFailed s i
  else
    let s := { s with mgmt := { s.mgmt with lastSample := sset (fun _ => 0) s.mgmt.lastSample (512 + i) 0 } }
    let s := s.setObj 0x3000 2 i (pick32 true (s.obj 0x3000 2 i) code)
    let s := s.setObj 0x3000 3 i (pick32 false (s.obj 0x3000 3 i) code)
    monitor s 5 i v

/-- The flits that each link resent since the last sample (R451). -/
def sampleLinks (s : State) : State :=
  let s := (List.range 104).foldl (fun s k => monitorNat s 6 k (sget (fun _ => 0) s.mgmt.lastSample (256 + k))) s
  { s with mgmt := { s.mgmt with lastSample := sclear s.mgmt.lastSample 256 360 } }

/-- Whether the inlet reads 20 °C to 45 °C (R490). -/
def inletInRange (s : State) : Bool :=
  let v := Fmt.fp32.decode (s.obj 0x3000 1 404)
  !v.isNan && decide (0 ≤ v.cmp (FVal.ofInt 20)) && decide (v.cmp (FVal.ofInt 45) ≤ 0)

/-- Whether the outlet reads at most 25 K above the inlet (R490). -/
def riseInRange (s : State) : Bool :=
  let v := Fmt.fp32.decode (s.obj 0x3000 1 404)
  let w := Fmt.fp32.decode (s.obj 0x3000 1 405)
  !v.isNan && !w.isNan && decide (w.cmp (v.add (FVal.ofInt 25)) ≤ 0)

/-- COOLANT_STATE is normal again once the readings are back in range (log entry 24). -/
def coolantBack (s : State) : State :=
  let c := s.obj 0x9030 4 0
  if (c = 1 ∧ inletInRange s) ∨ (c = 2 ∧ riseInRange s) then s.setObj 0x9030 4 0 0 else s

/-- SENSOR_SAMPLE. -/
def execSensorSample (vals : List (Fin 412 × Word)) (s : State) : Out :=
  guarded (iluonUp s) (coolantBack (sampleLinks (vals.foldl (fun s p => sensorValue s p.1.val p.2.toNat) s)))

/-! ## The log in flash (R454, R455) -/

/-- The records that the log's region of the flash holds. -/
def logRing : Nat := 425984

/-- Writes the oldest record that waits, with its line on UART_TX; the oldest record of a full ring is overwritten (R454, R455,
R562). -/
def writeLog (s : State) : State :=
  match s.mgmt.logPend with
  | [] => s
  | r :: t =>
    let full := decide (logRing ≤ s.mgmt.log.length)
    let log := (if full then s.mgmt.log.tail else s.mgmt.log) ++ [r]
    let s := { s with mgmt := { s.mgmt with
      logPend := t
      log := log } }
    let s := uartLine s r.index r.kind r.cause
    if full then s.setObj 0x5000 1 0 ((log.head?.map LogRec.index).getD 0) else s

/-- LOG_RECORD_WRITE. -/
def execLogRecordWrite (s : State) : Out := guarded (iluonUp s && !s.mgmt.logPend.isEmpty) (writeLog s)

/-! ## Ageing (R484) -/

/-- A site whose margin is below the minimum: its ceiling falls by 25 MHz; a serving core of less than 2,700 MHz for which no
spare is left flags the module. -/
def ageSite (s : State) (psn : Nat) : State :=
  let c := siteCeiling s psn - 25
  let s := { s with ctl := { s.ctl with ceilings := sset (fun _ => recordCeiling) s.ctl.ceilings psn c } }
  match coreOfSite s psn with
  | none => s
  | some core =>
    let s := s.setObj 0x9020 1 core c
    if c < 2700 ∧ !(freeSpares s (psn / 36)).any fun p => decide (2700 ≤ siteCeiling s p) then flagReplace s 0 else s

/-- The sites, serving or spare, whose margin reads below the minimum of the calibration data (R5, R484). -/
def lowSites (s : State) (margins : List (Psn × Word)) : List Psn :=
  ((margins.filter fun m => decide (s.obj 0x4010 2 m.1.val ≤ 1) && decide (m.2 < Config.minMargin m.1.val)).map Prod.fst).eraseDups

/-- AGEING_CHECK: what the monitors read at each site. -/
def execAgeingCheck (margins : List (Psn × Word)) (s : State) : Out :=
  guarded (iluonUp s) (updateSetPoints ((lowSites s margins).foldl (fun s p => ageSite s p.val) s))

end Sys2Proof.Machine
end

