-- ==== Sys2Proof/Machine/PowerRows.lean ====
section
/-!
DEFINITION. Feeds, phases, the power cap, heat, droop, the reference clock, clock switching, and the pins of the host
interface (R466 to R493, R497, R498, R515, R567).
-/
namespace Sys2Proof.Machine

/-! ## Feeds (R466 to R468, R472) -/

/-- A feed: A, or B. -/
def feedOf (s : State) (b : Bool) : Feed := if b then s.power.feedB else s.power.feedA

/-- Sets a feed. -/
def setFeed (s : State) (b : Bool) (f : Feed) : State :=
  if b then { s with power := { s.power with feedB := f } } else { s with power := { s.power with feedA := f } }

/-- Whether any feed in use carries the module. -/
def anyFeed (s : State) : Bool := feedInUse s false || feedInUse s true

/-- The straps are read at a cold start (R466); FEED_MODE shows theirs. -/
def readStraps (s : State) : State :=
  ({ s with ctl := { s.ctl with straps := s.ctl.strapPins } }).setObj 0x9000 9 0 (bits s.ctl.strapPins.toNat 3 1)

/-- FEED_VALID: the first feed begins a cold start of cause 01h, with nothing running before it; another joins the sharing. In
single-feed mode feed B is ignored. -/
def execFeedValid (b : Bool) (s : State) : Out :=
  let f := feedOf s b
  guarded (!f.valid && !f.switchOpen) <|
    let first := !anyFeed s
    let s := if first then readStraps s else s
    let s := setFeed s b { f with valid := true }
    if first && anyFeed s then beginCold s 1 else s

/-- Every domain goes down: what ran and what memory held are gone; which of the records not yet in flash are lost is free
(R455, R472, R498). -/
def powerDown (s : State) : State :=
  let r := drawFree s
  let s := r.2
  let kept := s.mgmt.logPend.take (r.1.toNat % (s.mgmt.logPend.length + 1))
  let s := { s with mgmt := { s.mgmt with logPend := kept } }
  let s := kept.foldl (fun s _ => writeLog s) s
  let s := s.setObj 0x5000 2 0 ((s.mgmt.log.getLast?.map LogRec.index).getD 0)
  let s := s.setObj 0x5000 1 0 ((s.mgmt.log.head?.map LogRec.index).getD 0)
  let s := logicReset (resetHost s)
  let s := { s with
    mem := emptyMemory s.mem
    mgmt := { s.mgmt with
      identity := false
      ringDriven := false }
    power := { s.power with
      domains := 0
      counting := false
      stopCause := false
      pllLocked := false
      selfRefresh := false
      lasersDark := true
      railsRaised := 0 }
    ctl := { s.ctl with
      start := none
      drainLater := false } }
  s.setModule 5

/-- FEED_LOST: the other feed carries the whole load; the loss is logged. -/
def execFeedLost (b : Bool) (s : State) : Out :=
  let f := feedOf s b
  let used := feedInUse s b
  let s' := setFeed s b { f with valid := false }
  guarded (f.valid && (!used || anyFeed s')) (if used then takeoverNow s' 0x5B 2 (blockOf 0 0) 0 else s')

/-- FEED_OVERVOLTAGE: the feed's switch opens; where no other feed is in use the module loses its power. -/
def execFeedOvervoltage (b : Bool) (s : State) : Out :=
  let f := feedOf s b
  let t := setFeed s b { f with switchOpen := true }
  guarded (f.valid && !f.switchOpen)
    (if feedInUse s b && !anyFeed t then powerDown (setFeed s b { valid := false, switchOpen := true }) else t)

/-- FEED_SWITCH_CLOSE. -/
def execFeedSwitchClose (b : Bool) (s : State) : Out :=
  guarded (feedOf s b).switchOpen (setFeed s b { feedOf s b with switchOpen := false })

/-- A record of something outside rated conditions: a warning with no cause of R528 (log entry 24). -/
def ratedRecord (s : State) (detail : Nat) : State :=
  let s := logRecord s { LogRec.blank with
    kind := 2
    severity := 1
    scope := 3
    detail := detail }
  s.setObj 0x4070 2 0 (newestRecord s)

/-- FEED_VOLTAGE_LOG; the record's DETAIL holds the feed's voltage sensor. -/
def execFeedVoltageLog (b : Bool) (s : State) : Out :=
  guarded (feedInUse s b && iluonUp s) (ratedRecord s (if b then 306 else 304))

/-- BOTH_FEEDS_LOST: the feeds in use are lost. -/
def execBothFeedsLost (s : State) : Out :=
  guarded (anyFeed s) <|
    let s := setFeed s false { s.power.feedA with valid := false }
    powerDown (if dualFeed s then setFeed s true { s.power.feedB with valid := false } else s)

/-! ## Phases (R470) -/

/-- The phases that a rail needs: 14 of the 16 of the first stage, two fewer than it has on a die (log entry 19). -/
def neededPhases (rail : Nat) : Nat := if rail = 0 then 14 else 6

/-- PHASE_LOST. -/
def execPhaseLost (rail : Fin 13) (s : State) : Out :=
  let n := s.obj 0x9000 0xD rail.val
  guarded (decide (0 < n) && iluonUp s) <|
    let s := s.setObj 0x9000 0xD rail.val (n - 1)
    let short := decide (n - 1 < neededPhases rail.val)
    let s := if short then flagReplace s 7 else s
    let b := if rail.val = 0 then blockOf 0 0 else blockOf 12 (dieDomain (rail.val - 1))
    takeoverNow s 0x5A (if short then 3 else 1) b (n - 1 - neededPhases rail.val)

/-! ## The power cap (R469, R478) -/

/-- POWER_STEP of a category. -/
def powerStep (s : State) (cat : Nat) : Nat := s.obj 0x9000 0xC cat

/-- Sets it. -/
def setPowerStep (s : State) (cat v : Nat) : State := s.setObj 0x9000 0xC cat v

/-- The class of the step whose work a core runs. -/
def coreClass (s : State) (c : Nat) : Option Nat :=
  match (s.core c).cmd with
  | none => none
  | some x => (findStep s x.step).map Step.cls

/-- Lowers by 25 MHz the set points of the cores that run class-0 work, or of those that run other work. -/
def cutCores (s : State) (class0 : Bool) : State :=
  let s := (List.range (coreTotal s.grade)).foldl (fun s c =>
    match coreClass s c with
    | none => s
    | some k =>
      if (k == 0) = class0 then
        let p := s.power.powerCut
        { s with power := { s.power with powerCut := sset (fun _ => 0) p c (sget (fun _ => 0) p c + 25) } }
      else s) s
  updateSetPoints s

/-- Takes the next step that applies to a category: compute 1 and 2 hold slices, 3 and 4 lower set points, 4 only below the
class-0 power floor; memory and links have one. -/
def takeStep (s : State) (cat : Nat) : State :=
  let n := powerStep s cat
  if cat ≠ 2 then setPowerStep s cat 1
  else if n < 2 then setPowerStep s 2 (n + 1)
  else if n = 2 then cutCores (setPowerStep s 2 3) false
  else if n = 3 ∧ aboveFloor s then cutCores s false
  else cutCores (setPowerStep s 2 4) true

/-- Releases the deepest step of a category; with step 4 the reductions of class-0 work end, with step 3 every other (log entry
38). -/
def releaseStep (s : State) (cat : Nat) : State :=
  let n := powerStep s cat
  let p := s.power.powerCut
  let left := if n = 4 then p.filter fun x => coreClass s x.1 ≠ some 0 else if n = 3 then [] else p
  updateSetPoints (setPowerStep { s with power := { s.power with powerCut := left } } cat (n - 1))

/-- POWER_SAMPLE: above the effective cap plus 2 % the next step is taken once the step before it has taken effect; a step is
released once the mean has stayed 5 % below the limit for 1 ms. -/
def execPowerSample (meanMw : Nat) (below5 settled : Bool) (cat : Fin 3) (s : State) : Out :=
  guarded (iluonUp s) <|
    let s := s.setObj 0x9000 8 0 (f32Ratio meanMw 1000)
    if effectiveCap s * 102 < meanMw * 100 then (if settled then takeStep s cat.val else s)
    else if below5 then releaseStep s cat.val
    else s

/-! ## Heat (R490 to R492) -/

/-- THERMAL_STATE of a die. -/
def thermalState (s : State) (d : Nat) : Nat := s.obj 0x9030 1 d

/-- The class-0 steps that the current tick's plan holds or that run, in the store's order. -/
def boundSteps (s : State) : List Nat :=
  (s.sage.steps.filter fun t => decide (t.cls = 0) && t.phase != .ended &&
    (t.phase == .running || s.sage.loaded.any fun i => decide (i.step = t.key))).map Step.key

/-- THERMAL_LIMIT_START: an entry into limiting, which voids the bound of the tick's class-0 steps (R69). -/
def execThermalLimitStart (die : Fin 12) (s : State) : Out :=
  guarded (iluonUp s && decide (thermalState s die.val = 0)) <|
    let s := (s.setObj 0x9030 1 die.val 1).bump32 0x9030 2 die.val 1
    (boundSteps s).foldl (fun s k => boundVoid s k 4) s

/-- The reduction of a die's set points. -/
def dieCut (s : State) (d : Nat) : Nat := sget (fun _ => 0) s.power.dieLimit d

/-- Sets it. -/
def setDieCut (s : State) (d v : Nat) : State :=
  updateSetPoints { s with power := { s.power with dieLimit := sset (fun _ => 0) s.power.dieLimit d v } }

/-- THERMAL_LIMIT_STEP: while the die is limiting its set points fall, until all its junctions read below 103 °C; after that
they climb back. A base die limits the links, its own category (log entry 38). -/
def execThermalLimitStep (die : Fin 12) (below103 : Bool) (s : State) : Out :=
  let d := die.val
  guarded (iluonUp s && (decide (thermalState s d = 1) || decide (0 < dieCut s d))) <|
    if thermalState s d = 1 then
      if below103 then s
      else if d < 8 then setDieCut s d (dieCut s d + 25)
      else setPowerStep s 0 1
    else setDieCut s d (dieCut s d - 25)

/-- THERMAL_LIMIT_END. -/
def execThermalLimitEnd (die : Fin 12) (s : State) : Out :=
  guarded (decide (thermalState s die.val = 1)) (s.setObj 0x9030 1 die.val 0)

/-- THERMAL_SHUTDOWN: PD00 to PD17 go down and the module is in service hold. -/
def execThermalShutdown (die : Fin 12) (s : State) : Out :=
  guarded (iluonUp s && decide (s.moduleState ≠ 4)) <|
    let s := (enterHold s).setObj 0x9030 1 die.val 2
    { s with ctl := { s.ctl with thermalHold := true } }

/-- COOLANT_ALARM: 1 the inlet is out of range, 2 low flow; the record's DETAIL holds the sensor. -/
def execCoolantAlarm (flow : Bool) (s : State) : Out :=
  guarded (iluonUp s) (ratedRecord (s.setObj 0x9030 4 0 (if flow then 2 else 1)) (if flow then 405 else 404))

/-! ## Droop (R481) -/

/-- DROOP: the core's clock is halved; the event is counted and its depth sampled. -/
def execDroop (core : CoreNo) (depthMv : Nat) (s : State) : Out :=
  let k := s.core core.val
  guarded (coreLive s core.val && !k.hw.halved && decide (s.obj 0x9010 1 0 < depthMv)) <|
    let s := s.setCore core.val { k with hw := { k.hw with halved := true } }
    monitorNat (s.bump 0x9010 2 core.val 1) 4 (dieOfCore s core.val) depthMv

/-- DROOP_RESTORE. -/
def execDroopRestore (core : CoreNo) (s : State) : Out :=
  let k := s.core core.val
  guarded k.hw.halved (s.setCore core.val { k with hw := { k.hw with halved := false } })

/-! ## The reference clock (R485 to R487, R498) -/

/-- Whether a start is at work or waits for its release. -/
def starting (s : State) : Bool := s.ctl.start.isSome

/-- REFCLK_STOP: in service every PLL holds its frequency; a start after PLL lock stops; a count before it stops. -/
def execRefclkStop (s : State) : Out :=
  guarded (anyFeed s && s.power.refclk) <|
    let p := { s.power with
      refclk := false
      counting := false }
    if starting s && s.power.pllLocked then
      { s with power := { p with
        stopCause := true
        pllLocked := false } }
    else { s with power := p }

/-- REFCLK_HOLD_EXPIRY: cores stop, both tiers enter self-refresh, and the link drops with no completion entries. -/
def execRefclkHoldExpiry (s : State) : Out :=
  guarded (s.released && !s.power.refclk && s.power.pllLocked) <|
    let s := gateAll (stopSilent s) true
    { s with power := { s.power with
      stopCause := true
      pllLocked := false
      selfRefresh := true } }

/-- REFCLK_RETURN: after a stop, or before PLL lock, the strap delay is counted anew; within the hold the service goes on and a
record is written. -/
def execRefclkReturn (s : State) : Out :=
  guarded (!s.power.refclk) <|
    let s := { s with power := { s.power with refclk := true } }
    if s.power.stopCause then { s with power := { s.power with counting := true } }
    else if starting s then
      let s := { s with power := { s.power with
        counting := !s.power.pllLocked
        restarts := s.power.restarts + 1 } }
      changeRecord s fun r => { r with refclkRestarts := s.power.restarts }
    else if s.released then takeoverRecord s 0x61 1 (blockOf 0 0) 0xFFFF 0 0
    else s

/-- REFCLK_COUNT_END: the PLLs lock and the domains are up. After a stop in service a warm start of cause 08h begins, after one
in a start the same start again. -/
def execRefclkCountEnd (s : State) : Out :=
  guarded (s.power.counting && s.power.refclk) <|
    let again := s.power.stopCause
    let s := { s with power := { s.power with
      counting := false
      stopCause := false
      pllLocked := true
      domains := BitVec.allOnes 20 } }
    if again then
      match s.ctl.start with
      | none => beginWarm s 8
      | some r =>
        if r.failed then s
        else
          let t := if r.cold then beginCold s r.cause else beginWarm s r.cause
          { t with power := { t.power with
            counting := false
            pllLocked := true } }
    else s

/-! ## Clock switching (R488) -/

/-- CLOCK_MUX: the watchdog resets the core's clock domain, and the core has failed; a site that passes self-test rejoins. -/
def execClockMux (core : CoreNo) (passed : Bool) (ns : Nat) (s : State) : Out :=
  guarded (notBefore s ns && coreLive s core.val) <|
    let psn := siteOfCore s core.val
    let s := failCore ((s.at ns).bump32 0x9020 5 0 1) core.val 0x60
    { s with ctl := { s.ctl with rejoin := if passed then s.ctl.rejoin ++ [psn] else s.ctl.rejoin } }

/-! ## The host interface's pins (R497, R498, R515) -/

/-- PERST_N falls: after release a warm start of cause 05h begins; at other times only the host interface is reset. -/
def execPerstN (s : State) : Out :=
  guarded s.host.perst <|
    let s := { s with host := { s.host with perst := false } }
    if s.released then beginWarm s 5 else resetHost s

/-- PERST_N_HIGH. -/
def execPerstNHigh (s : State) : Out := guarded (!s.host.perst) { s with host := { s.host with perst := true } }

/-- LINK_UP: link training completes, with PERST_N high and the PLLs locked, or in service hold (R512). -/
def execLinkUp (s : State) : Out :=
  guarded (s.host.perst && !s.host.linkUp && s.power.domains.getLsbD 18 &&
      (s.power.pllLocked || decide (s.moduleState = 4)))
    { s with host := { s.host with linkUp := true } }

/-! ## The status ring (R567, R568) -/

/-- The ring's pattern: the first condition that holds. -/
def ringPattern (s : State) : String :=
  if iluonUp s = false then "off"
  else if s.mgmt.ringDriven = false then "red and amber"
  else if s.moduleState = 4 ∧ s.ctl.thermalHold then "blue, red flash 0.5 s"
  else if s.moduleState = 4 then "blue, red flash 2 s"
  else if serviceState s = 3 then "blue"
  else if serviceState s = 1 ∨ serviceState s = 2 then "blue 2 Hz"
  else if starting s then "green 1 Hz"
  else if (List.range 12).any fun d => decide (thermalState s d = 1) then "amber 2 Hz"
  else if s.obj 0x4000 1 0 = 1 then "green, amber flash 1 s"
  else "green"

/-- RING_NOT_DRIVEN: the controller in PD19 shows that no management processor drives the ring. -/
def execRingNotDriven (s : State) : Out :=
  guarded (iluonUp s && s.mgmt.ringDriven) <|
    let s := { s with mgmt := { s.mgmt with ringDriven := false } }
    s.emit (.ring (ringPattern s))

end Sys2Proof.Machine
end

