-- ==== Sys2Proof/Machine/Pred.lean ====
section
/-!
DEFINITION. Predicate rows (R190), scalar rows (R191) and moves (R192).
-/
namespace Sys2Proof.Machine

/-! ## Predicates -/

/-- A compare: bit t of DST for each thread in the effective mask, every other bit unchanged. -/
def cmpRun (s : State) (g : GroupRef) (f : RFields) (used : Nat) (reserved : Bool) (op : Word → Word → Bool) : Out :=
  let illegal := !isP f.dst || !isVUZ f.sa || !isVUZ f.sb || modBad f.mod used || reserved
  issue s g (firstFault illegal false) [f.sa, f.sb] fun s k gr =>
    let m := maskWith (gr.pred (regNo f.dst)) (effMask gr f.guard) fun t =>
      op (k.src gr g.slot f.sa t) (k.src gr g.slot f.sb t)
    .go s k (gr.setPred (regNo f.dst) m).advance

/-- fsetp. -/
def execFsetp (g : GroupRef) (f : RFields) (s : State) : Out :=
  cmpRun s g f 7 false fun a b => fpCompare (bits f.mod.toNat 0 3) (Fmt.fp32.decode a.toNat) (Fmt.fp32.decode b.toNat)

/-- isetp; condition codes 6 and 7 are reserved. -/
def execIsetp (g : GroupRef) (f : RFields) (s : State) : Out :=
  cmpRun s g f 15 (decide (6 ≤ bits f.mod.toNat 0 3)) fun a b => intCompare (bits f.mod.toNat 0 3) (f.mod.getLsbD 3) a b

/-- The operations of plop. -/
def predOp (op : Nat) (a b : Word) : Word :=
  match op with
  | 0 => a &&& b
  | 1 => a ||| b
  | 2 => a ^^^ b
  | _ => a &&& ~~~b

/-- plop: GUARD is zero. -/
def execPlop (g : GroupRef) (f : RFields) (s : State) : Out :=
  let illegal := !isP f.dst || !isP f.sa || !isP f.sb || modBad f.mod 3 || f.guard != 0
  issue s g (firstFault illegal false) [] fun s k gr =>
    .go s k (gr.setPred (regNo f.dst) (predOp (bits f.mod.toNat 0 2) (gr.pred (regNo f.sa)) (gr.pred (regNo f.sb)))).advance

/-- pmov: between a predicate and a u register. -/
def execPmov (g : GroupRef) (f : RFields) (s : State) : Out :=
  let illegal := !((isP f.dst && isU f.sa) || (isU f.dst && isP f.sa)) || modBad f.mod 0 || f.guard != 0
  issue s g (firstFault illegal false) [f.sa, f.dst] fun s k gr =>
    if isP f.dst then .go s k (gr.setPred (regNo f.dst) (k.u g.slot (regNo f.sa))).advance
    else .go s (k.setU g.slot (regNo f.dst) (gr.pred (regNo f.sa))) gr.advance

/-- vote: DST = predicate SA AND MASK. -/
def execVote (g : GroupRef) (f : RFields) (s : State) : Out :=
  let illegal := !isU f.dst || !isP f.sa || modBad f.mod 0 || f.guard != 0
  issue s g (firstFault illegal false) [f.dst] fun s k gr =>
    .go s (k.setU g.slot (regNo f.dst) (gr.pred (regNo f.sa) &&& gr.mask)) gr.advance

/-! ## Scalar -/

/-- The operands of a scalar row (R191): u registers, ZERO or IMM32; GUARD and MOD are zero (R181). -/
def scArgs (f : RIForm) (useC : Bool) : VArgs :=
  match f with
  | .r f =>
    { guard := 0, dst := f.dst, a := .reg f.sa, b := .reg f.sb, c := if useC then .reg f.sc else .imm 0, mod := 0,
      illegal := !isU f.dst || !isUZ f.sa || !isUZ f.sb || (useC && !isUZ f.sc) || modBad f.mod 0 || f.guard != 0 }
  | .i f =>
    { guard := 0, dst := f.dst, a := .reg f.sa, b := .imm f.imm, c := if useC then .reg f.dst else .imm 0, mod := 0,
      illegal := !isU f.dst || !isUZ f.sa || f.guard != 0 }

/-- A scalar instruction runs once for the group: DST = op (A, B, C). -/
def scRun (s : State) (g : GroupRef) (f : RIForm) (useC : Bool) (op : Word → Word → Word → Word) : Out :=
  let v := scArgs f useC
  issue s g (firstFault v.illegal false) v.regs fun s k gr =>
    .go s (k.setU g.slot (regNo v.dst) (op (v.a.val k gr g.slot 0) (v.b.val k gr g.slot 0) (v.c.val k gr g.slot 0)))
      gr.advance

/-- add. -/
def execScAdd (g : GroupRef) (f : RIForm) (s : State) : Out := scRun s g f false fun a b _ => a + b
/-- sub. -/
def execScSub (g : GroupRef) (f : RIForm) (s : State) : Out := scRun s g f false fun a b _ => a - b
/-- mul, low 32 bits. -/
def execScMul (g : GroupRef) (f : RIForm) (s : State) : Out := scRun s g f false fun a b _ => a * b
/-- and. -/
def execScAnd (g : GroupRef) (f : RIForm) (s : State) : Out := scRun s g f false fun a b _ => a &&& b
/-- or. -/
def execScOr (g : GroupRef) (f : RIForm) (s : State) : Out := scRun s g f false fun a b _ => a ||| b
/-- xor. -/
def execScXor (g : GroupRef) (f : RIForm) (s : State) : Out := scRun s g f false fun a b _ => a ^^^ b
/-- shl, by the low five bits as the vector row does (DEDUCED, log entry 20). -/
def execScShl (g : GroupRef) (f : RIForm) (s : State) : Out := scRun s g f false fun a b _ => a <<< (b.toNat % 32)
/-- shr. -/
def execScShr (g : GroupRef) (f : RIForm) (s : State) : Out := scRun s g f false fun a b _ => a >>> (b.toNat % 32)
/-- sar. -/
def execScSar (g : GroupRef) (f : RIForm) (s : State) : Out :=
  scRun s g f false fun a b _ => a.sshiftRight (b.toNat % 32)
/-- min, signed. -/
def execScMin (g : GroupRef) (f : RIForm) (s : State) : Out :=
  scRun s g f false fun a b _ => if intCompare 3 true a b then a else b
/-- max, signed. -/
def execScMax (g : GroupRef) (f : RIForm) (s : State) : Out :=
  scRun s g f false fun a b _ => if intCompare 3 true a b then b else a
/-- fadd: RNE, subnormals kept. -/
def execScFadd (g : GroupRef) (f : RIForm) (s : State) : Out :=
  scRun s g f false fun a b _ => BitVec.ofNat 32 (fpAdd .fp32 .rne a.toNat b.toNat)
/-- fmul. -/
def execScFmul (g : GroupRef) (f : RIForm) (s : State) : Out :=
  scRun s g f false fun a b _ => BitVec.ofNat 32 (fpMul .fp32 .rne a.toNat b.toNat)
/-- ffma. -/
def execScFfma (g : GroupRef) (f : RIForm) (s : State) : Out :=
  scRun s g f true fun a b c => BitVec.ofNat 32 (fpFma .fp32 .rne a.toNat b.toNat c.toNat)

/-! ## Moves -/

/-- mov: DST is a v register for any source, or a u register when SA is a u register or ZERO. -/
def execMov (g : GroupRef) (f : RFields) (s : State) : Out :=
  let illegal := (regOf f.sa).isNone || !(isV f.dst || (isU f.dst && isUZ f.sa)) || modBad f.mod 0
  issue s g (firstFault illegal false) [f.sa, f.dst] fun s k gr =>
    let m := effMask gr f.guard
    if isV f.dst then .go s (k.setVs g.slot (regNo f.dst) m fun t => k.src gr g.slot f.sa t) gr.advance
    else if m = 0 then .go s k gr.advance
    else .go s (k.setU g.slot (regNo f.dst) (k.usrc gr g.slot f.sa)) gr.advance

/-- shfl: thread t reads SA of thread (SB of thread t) mod 32, which may be inactive. -/
def execShfl (g : GroupRef) (f : RFields) (s : State) : Out :=
  let v := vArgsR f true false 0
  issue s g (firstFault v.illegal false) v.regs fun s k gr =>
    .go s (k.setVs g.slot (regNo v.dst) (effMask gr v.guard) fun t =>
      v.a.val k gr g.slot ((v.b.val k gr g.slot t).toNat % 32)) gr.advance

/-- rdlane: u register DST = v register SA of thread SB[4:0], SB a u register. -/
def execRdlane (g : GroupRef) (f : RFields) (s : State) : Out :=
  let illegal := !isU f.dst || !isV f.sa || !isU f.sb || modBad f.mod 0
  issue s g (firstFault illegal false) [f.sa, f.sb, f.dst] fun s k gr =>
    if effMask gr f.guard = 0 then .go s k gr.advance
    else .go s (k.setU g.slot (regNo f.dst) (k.v g.slot (regNo f.sa) ((k.u g.slot (regNo f.sb)).toNat % 32))) gr.advance

end Sys2Proof.Machine
end

