-- ==== Sys2Proof/Machine/VecInt.lean ====
section
/-!
DEFINITION. Vector INT32 and logic rows (R185 to R187).
-/
namespace Sys2Proof.Machine

/-- Runs a VI or VII row without MOD. -/
def viRun (s : State) (g : GroupRef) (f : RIForm) (op : Word → Word → Word) : Out :=
  vecRun s g (vArgs f false 0) false fun a b _ => op a b

/-- iadd. -/
def execIadd (g : GroupRef) (f : RIForm) (s : State) : Out := viRun s g f fun a b => a + b

/-- isub. -/
def execIsub (g : GroupRef) (f : RFields) (s : State) : Out := viRun s g (.r f) fun a b => a - b

/-- imul: the low 32 bits. -/
def execImul (g : GroupRef) (f : RIForm) (s : State) : Out := viRun s g f fun a b => a * b

/-- The high 32 bits of a product. -/
def mulHi (signed : Bool) (a b : Word) : Word :=
  if signed then BitVec.ofInt 32 (a.toInt * b.toInt / 2 ^ 32) else BitVec.ofNat 32 (a.toNat * b.toNat / 2 ^ 32)

/-- imulhi; MOD[0] signed. -/
def execImulhi (g : GroupRef) (f : RFields) (s : State) : Out :=
  vecRun s g (vArgsR f true false 1) false fun a b _ => mulHi (f.mod.getLsbD 0) a b

/-- imad. -/
def execImad (g : GroupRef) (f : RFields) (s : State) : Out :=
  vecRun s g (vArgsR f true true 0) false fun a b c => a * b + c

/-- and. -/
def execVand (g : GroupRef) (f : RIForm) (s : State) : Out := viRun s g f fun a b => a &&& b

/-- or. -/
def execVor (g : GroupRef) (f : RIForm) (s : State) : Out := viRun s g f fun a b => a ||| b

/-- xor. -/
def execVxor (g : GroupRef) (f : RIForm) (s : State) : Out := viRun s g f fun a b => a ^^^ b

/-- shl by SB[4:0]. -/
def execShl (g : GroupRef) (f : RIForm) (s : State) : Out := viRun s g f fun a b => a <<< (b.toNat % 32)

/-- shr by SB[4:0]. -/
def execShr (g : GroupRef) (f : RIForm) (s : State) : Out := viRun s g f fun a b => a >>> (b.toNat % 32)

/-- sar by SB[4:0]. -/
def execSar (g : GroupRef) (f : RIForm) (s : State) : Out := viRun s g f fun a b => a.sshiftRight (b.toNat % 32)

/-- Whether a min or max compares signed: MOD[0] of the R form; the I form compares signed (R187). -/
def riSigned (f : RIForm) : Bool :=
  match f with
  | .r f => f.mod.getLsbD 0
  | .i _ => true

/-- The lesser of two integers. -/
def intMin (signed : Bool) (a b : Word) : Word := if intCompare 3 signed a b then a else b

/-- The greater of two integers. -/
def intMax (signed : Bool) (a b : Word) : Word := if intCompare 3 signed a b then b else a

/-- imin. -/
def execImin (g : GroupRef) (f : RIForm) (s : State) : Out :=
  vecRun s g (vArgs f false 1) false fun a b _ => intMin (riSigned f) a b

/-- imax. -/
def execImax (g : GroupRef) (f : RIForm) (s : State) : Out :=
  vecRun s g (vArgs f false 1) false fun a b _ => intMax (riSigned f) a b

/-- The count of set bits. -/
def popCount (a : Word) : Nat := (lanes.filter fun i => a.getLsbD i).length

/-- Leading zeros, 32 for 0. -/
def leadZeros (a : Word) : Nat := if a = 0 then 32 else 31 - Nat.log2 a.toNat

/-- popc. -/
def execPopc (g : GroupRef) (f : RFields) (s : State) : Out :=
  vecRun s g (vArgsR f false false 0) false fun a _ _ => BitVec.ofNat 32 (popCount a)

/-- clz. -/
def execClz (g : GroupRef) (f : RFields) (s : State) : Out :=
  vecRun s g (vArgsR f false false 0) false fun a _ _ => BitVec.ofNat 32 (leadZeros a)

/-- pos of MOD[4:0]. -/
def fieldPos (mod : BitVec 16) : Nat := bits mod.toNat 0 5

/-- len of MOD[10:5]. -/
def fieldLen (mod : BitVec 16) : Nat := bits mod.toNat 5 6

/-- A field that faults with cause ILLEGAL (R186). -/
def fieldBad (mod : BitVec 16) : Bool := decide (fieldLen mod = 0) || decide (32 < fieldPos mod + fieldLen mod)

/-- bfe's result: a field, zero- or sign-extended. -/
def bitField (mod : BitVec 16) (a : Word) : Word :=
  let v := bits a.toNat (fieldPos mod) (fieldLen mod)
  if mod.getLsbD 11 && v.testBit (fieldLen mod - 1) then BitVec.ofNat 32 (v + 2 ^ 32 - 2 ^ fieldLen mod)
  else BitVec.ofNat 32 v

/-- bfe. -/
def execBfe (g : GroupRef) (f : RFields) (s : State) : Out :=
  let v := vArgsR f false false 0xFFF
  vecRun s g { v with illegal := v.illegal || fieldBad f.mod } false fun a _ _ => bitField f.mod a

/-- bfi: SB with the field replaced by the low bits of SA. -/
def execBfi (g : GroupRef) (f : RFields) (s : State) : Out :=
  let v := vArgsR f true false 0x7FF
  vecRun s g { v with illegal := v.illegal || fieldBad f.mod } false fun a b _ =>
    BitVec.ofNat 32 (putBits b.toNat (fieldPos f.mod) (fieldLen f.mod) a.toNat)

/-- sel: SA where p(MOD[2:0]) bit t is set, otherwise SB. -/
def execSel (g : GroupRef) (f : RFields) (s : State) : Out :=
  let v := vArgsR f true false 7
  issue s g (firstFault v.illegal false) v.regs fun s k gr =>
    let p := gr.pred (bits f.mod.toNat 0 3)
    .go s (k.setVs g.slot (regNo v.dst) (effMask gr v.guard) fun t =>
      if p.getLsbD t then v.a.val k gr g.slot t else v.b.val k gr g.slot t) gr.advance

end Sys2Proof.Machine
end

