-- ==== Sys2Proof/Machine/Dispatch.lean ====
section
/-!
DEFINITION. One arm per command: the direct call of its meaning.
-/
namespace Sys2Proof.Machine

/-- The effect of a command on everything but the queue. -/
def exec (i : Instr) (s : State) : Host.Outcome State Fault Refusal :=
  match i with
  | .tickBoundary meas => Sys2Proof.Machine.execTickBoundary meas s
  | .planningCutoff linksW memW place => Sys2Proof.Machine.execPlanningCutoff linksW memW place s
  | .sliceEnd c ns usedUs spill => Sys2Proof.Machine.execSliceEnd c ns usedUs spill s
  | .sliceStart c ns cores work => Sys2Proof.Machine.execSliceStart c ns cores work s
  | .overrun step ns usedUs => Sys2Proof.Machine.execOverrun step ns usedUs s
  | .slowCoreFlag core => Sys2Proof.Machine.execSlowCoreFlag core s
  | .coreSwap core => Sys2Proof.Machine.execCoreSwap core s
  | .stepCompletion step ns => Sys2Proof.Machine.execStepCompletion step ns s
  | .sqTail f q val ns => Sys2Proof.Machine.execSqTail f q val ns s
  | .descriptorRead f q => Sys2Proof.Machine.execDescriptorRead f q s
  | .nop c => Sys2Proof.Machine.execNop c s
  | .kernel c ranges => Sys2Proof.Machine.execKernel c ranges s
  | .copy c work => Sys2Proof.Machine.execCopy c work s
  | .collectiveReduce c cores => Sys2Proof.Machine.execCollectiveReduce c cores s
  | .collectiveBroadcast c => Sys2Proof.Machine.execCollectiveBroadcast c s
  | .waitEvent c => Sys2Proof.Machine.execWaitEvent c s
  | .waitEventRelease c => Sys2Proof.Machine.execWaitEventRelease c s
  | .eventTimeout c => Sys2Proof.Machine.execEventTimeout c s
  | .signalEvent c => Sys2Proof.Machine.execSignalEvent c s
  | .pin c work => Sys2Proof.Machine.execPin c work s
  | .unpin c work => Sys2Proof.Machine.execUnpin c work s
  | .prefetch c work => Sys2Proof.Machine.execPrefetch c work s
  | .writeBack c work => Sys2Proof.Machine.execWriteBack c work s
  | .discard c work => Sys2Proof.Machine.execDiscard c work s
  | .scrub c startNs cancelled work => Sys2Proof.Machine.execScrub c startNs cancelled work s
  | .hint c ns => Sys2Proof.Machine.execHint c ns s
  | .hintPhaseLead c => Sys2Proof.Machine.execHintPhaseLead c s
  | .hintPhaseEnd c => Sys2Proof.Machine.execHintPhaseEnd c s
  | .groupStart g => Sys2Proof.Machine.execGroupStart g s
  | .groupPromote core quarter => Sys2Proof.Machine.execGroupPromote core quarter s
  | .loadDataReturn g => Sys2Proof.Machine.execLoadDataReturn g s
  | .roMissFill core reg sectors => Sys2Proof.Machine.execRoMissFill core reg sectors s
  | .matrixOpRetire core array => Sys2Proof.Machine.execMatrixOpRetire core array s
  | .watchdog g => Sys2Proof.Machine.execWatchdog g s
  | .yieldTimeout g => Sys2Proof.Machine.execYieldTimeout g s
  | .groupFault g cause addr => Sys2Proof.Machine.execGroupFault g cause addr s
  | .fadd g f => Sys2Proof.Machine.execFadd g f s
  | .fsub g f => Sys2Proof.Machine.execFsub g f s
  | .fmul g f => Sys2Proof.Machine.execFmul g f s
  | .ffma g f => Sys2Proof.Machine.execFfma g f s
  | .fmin g f => Sys2Proof.Machine.execFmin g f s
  | .fmax g f => Sys2Proof.Machine.execFmax g f s
  | .fabs g f => Sys2Proof.Machine.execFabs g f s
  | .hadd2 g f => Sys2Proof.Machine.execHadd2 g f s
  | .hsub2 g f => Sys2Proof.Machine.execHsub2 g f s
  | .hmul2 g f => Sys2Proof.Machine.execHmul2 g f s
  | .hfma2 g f => Sys2Proof.Machine.execHfma2 g f s
  | .hmin2 g f => Sys2Proof.Machine.execHmin2 g f s
  | .hmax2 g f => Sys2Proof.Machine.execHmax2 g f s
  | .iadd g f => Sys2Proof.Machine.execIadd g f s
  | .isub g f => Sys2Proof.Machine.execIsub g f s
  | .imul g f => Sys2Proof.Machine.execImul g f s
  | .imulhi g f => Sys2Proof.Machine.execImulhi g f s
  | .imad g f => Sys2Proof.Machine.execImad g f s
  | .vand g f => Sys2Proof.Machine.execVand g f s
  | .vor g f => Sys2Proof.Machine.execVor g f s
  | .vxor g f => Sys2Proof.Machine.execVxor g f s
  | .shl g f => Sys2Proof.Machine.execShl g f s
  | .shr g f => Sys2Proof.Machine.execShr g f s
  | .sar g f => Sys2Proof.Machine.execSar g f s
  | .imin g f => Sys2Proof.Machine.execImin g f s
  | .imax g f => Sys2Proof.Machine.execImax g f s
  | .popc g f => Sys2Proof.Machine.execPopc g f s
  | .clz g f => Sys2Proof.Machine.execClz g f s
  | .bfe g f => Sys2Proof.Machine.execBfe g f s
  | .bfi g f => Sys2Proof.Machine.execBfi g f s
  | .sel g f => Sys2Proof.Machine.execSel g f s
  | .exp2 g f => Sys2Proof.Machine.execExp2 g f s
  | .log2 g f => Sys2Proof.Machine.execLog2 g f s
  | .rcp g f => Sys2Proof.Machine.execRcp g f s
  | .rsqrt g f => Sys2Proof.Machine.execRsqrt g f s
  | .cvt g f => Sys2Proof.Machine.execCvt g f s
  | .cvtw g f => Sys2Proof.Machine.execCvtw g f s
  | .cvtp g f => Sys2Proof.Machine.execCvtp g f s
  | .cvtu g f => Sys2Proof.Machine.execCvtu g f s
  | .cvti g f => Sys2Proof.Machine.execCvti g f s
  | .fsetp g f => Sys2Proof.Machine.execFsetp g f s
  | .isetp g f => Sys2Proof.Machine.execIsetp g f s
  | .plop g f => Sys2Proof.Machine.execPlop g f s
  | .pmov g f => Sys2Proof.Machine.execPmov g f s
  | .vote g f => Sys2Proof.Machine.execVote g f s
  | .scAdd g f => Sys2Proof.Machine.execScAdd g f s
  | .scSub g f => Sys2Proof.Machine.execScSub g f s
  | .scMul g f => Sys2Proof.Machine.execScMul g f s
  | .scAnd g f => Sys2Proof.Machine.execScAnd g f s
  | .scOr g f => Sys2Proof.Machine.execScOr g f s
  | .scXor g f => Sys2Proof.Machine.execScXor g f s
  | .scShl g f => Sys2Proof.Machine.execScShl g f s
  | .scShr g f => Sys2Proof.Machine.execScShr g f s
  | .scSar g f => Sys2Proof.Machine.execScSar g f s
  | .scMin g f => Sys2Proof.Machine.execScMin g f s
  | .scMax g f => Sys2Proof.Machine.execScMax g f s
  | .scFadd g f => Sys2Proof.Machine.execScFadd g f s
  | .scFmul g f => Sys2Proof.Machine.execScFmul g f s
  | .scFfma g f => Sys2Proof.Machine.execScFfma g f s
  | .mov g f => Sys2Proof.Machine.execMov g f s
  | .shfl g f => Sys2Proof.Machine.execShfl g f s
  | .rdlane g f => Sys2Proof.Machine.execRdlane g f s
  | .ldlLoad g f => Sys2Proof.Machine.execLdlLoad g f s
  | .ldlStore g f => Sys2Proof.Machine.execLdlStore g f s
  | .ldgLoad g f => Sys2Proof.Machine.execLdgLoad g f s
  | .ldgStore g f => Sys2Proof.Machine.execLdgStore g f s
  | .xferIn g f => Sys2Proof.Machine.execXferIn g f s
  | .xferOut g f => Sys2Proof.Machine.execXferOut g f s
  | .atomAddU32 g f => Sys2Proof.Machine.execAtomAddU32 g f s
  | .atomAddU64 g f => Sys2Proof.Machine.execAtomAddU64 g f s
  | .atomAddF32 g f => Sys2Proof.Machine.execAtomAddF32 g f s
  | .atomAddBf16x2 g f => Sys2Proof.Machine.execAtomAddBf16x2 g f s
  | .atomMinS32 g f => Sys2Proof.Machine.execAtomMinS32 g f s
  | .atomMaxS32 g f => Sys2Proof.Machine.execAtomMaxS32 g f s
  | .atomMinU32 g f => Sys2Proof.Machine.execAtomMinU32 g f s
  | .atomMaxU32 g f => Sys2Proof.Machine.execAtomMaxU32 g f s
  | .atomAnd g f => Sys2Proof.Machine.execAtomAnd g f s
  | .atomOr g f => Sys2Proof.Machine.execAtomOr g f s
  | .atomXor g f => Sys2Proof.Machine.execAtomXor g f s
  | .atomSwapU32 g f => Sys2Proof.Machine.execAtomSwapU32 g f s
  | .atomSwapU64 g f => Sys2Proof.Machine.execAtomSwapU64 g f s
  | .atomCasU64 g f => Sys2Proof.Machine.execAtomCasU64 g f s
  | .atomCasU128 g f => Sys2Proof.Machine.execAtomCasU128 g f s
  | .acq g f => Sys2Proof.Machine.execAcq g f s
  | .mma g f => Sys2Proof.Machine.execMma g f s
  | .mmaz g f => Sys2Proof.Machine.execMmaz g f s
  | .tzero g f => Sys2Proof.Machine.execTzero g f s
  | .tld g f => Sys2Proof.Machine.execTld g f s
  | .tst g f => Sys2Proof.Machine.execTst g f s
  | .twait g f => Sys2Proof.Machine.execTwait g f s
  | .ttest g f => Sys2Proof.Machine.execTtest g f s
  | .dwr g f => Sys2Proof.Machine.execDwr g f s
  | .bra g f => Sys2Proof.Machine.execBra g f s
  | .split g f => Sys2Proof.Machine.execSplit g f s
  | .join g f => Sys2Proof.Machine.execJoin g f s
  | .exit g f => Sys2Proof.Machine.execExit g f s
  | .bany g f => Sys2Proof.Machine.execBany g f s
  | .bnone g f => Sys2Proof.Machine.execBnone g f s
  | .ball g f => Sys2Proof.Machine.execBall g f s
  | .ctlNop g f => Sys2Proof.Machine.execCtlNop g f s
  | .jr g f => Sys2Proof.Machine.execJr g f s
  | .bar g f => Sys2Proof.Machine.execBar g f s
  | .rdtime g f => Sys2Proof.Machine.execRdtime g f s
  | .rdtick g f => Sys2Proof.Machine.execRdtick g f s
  | .rdcyc g f cycles => Sys2Proof.Machine.execRdcyc g f cycles s
  | .inrd g f => Sys2Proof.Machine.execInrd g f s
  | .instat g f => Sys2Proof.Machine.execInstat g f s
  | .snd g f => Sys2Proof.Machine.execSnd g f s
  | .sndv g f => Sys2Proof.Machine.execSndv g f s
  | .inflush g f => Sys2Proof.Machine.execInflush g f s
  | .inboxWordArrival core kind src chan fn word last => Sys2Proof.Machine.execInboxWordArrival core kind src chan fn word last s
  | .inboxPacketTimeout core => Sys2Proof.Machine.execInboxPacketTimeout core s
  | .flushEffect core management => Sys2Proof.Machine.execFlushEffect core management s
  | .rd m => Sys2Proof.Machine.execRd m s
  | .rdo m => Sys2Proof.Machine.execRdo m s
  | .wr m => Sys2Proof.Machine.execWr m s
  | .atom m => Sys2Proof.Machine.execAtom m s
  | .pres m => Sys2Proof.Machine.execPres m s
  | .dwn m => Sys2Proof.Machine.execDwn m s
  | .wb m => Sys2Proof.Machine.execWb m s
  | .inv m => Sys2Proof.Machine.execInv m s
  | .fwdRd m => Sys2Proof.Machine.execFwdRd m s
  | .fwdOwn m => Sys2Proof.Machine.execFwdOwn m s
  | .recall m => Sys2Proof.Machine.execRecall m s
  | .data m => Sys2Proof.Machine.execData m s
  | .grant m => Sys2Proof.Machine.execGrant m s
  | .ack m => Sys2Proof.Machine.execAck m s
  | .invAck m => Sys2Proof.Machine.execInvAck m s
  | .presAck m => Sys2Proof.Machine.execPresAck m s
  | .wbAck m => Sys2Proof.Machine.execWbAck m s
  | .ownData m => Sys2Proof.Machine.execOwnData m s
  | .ownDone m => Sys2Proof.Machine.execOwnDone m s
  | .retry m => Sys2Proof.Machine.execRetry m s
  | .creditedResend port line => Sys2Proof.Machine.execCreditedResend port line s
  | .radd unit p => Sys2Proof.Machine.execRadd unit p s
  | .chiveHoldExpiry unit fn tag line ns => Sys2Proof.Machine.execChiveHoldExpiry unit fn tag line ns s
  | .tagDone port fn tag => Sys2Proof.Machine.execTagDone port fn tag s
  | .collPeerTimeout c => Sys2Proof.Machine.execCollPeerTimeout c s
  | .e2eTimeout src dst seq ns lost => Sys2Proof.Machine.execE2eTimeout src dst seq ns lost s
  | .flitReceive l f corrected uncorrected => Sys2Proof.Machine.execFlitReceive l f corrected uncorrected s
  | .nak l lastSeq => Sys2Proof.Machine.execNak l lastSeq s
  | .linkAckTimeout l => Sys2Proof.Machine.execLinkAckTimeout l s
  | .laneFlag b lane margin lockLost => Sys2Proof.Machine.execLaneFlag b lane margin lockLost s
  | .laneTest b resends bad => Sys2Proof.Machine.execLaneTest b resends bad s
  | .laneSwap b => Sys2Proof.Machine.execLaneSwap b s
  | .laneSwapDone b => Sys2Proof.Machine.execLaneSwapDone b s
  | .bundleRetired b lastSeq => Sys2Proof.Machine.execBundleRetired b lastSeq s
  | .slotDrainDone pair slot => Sys2Proof.Machine.execSlotDrainDone pair slot s
  | .linkLost dir => Sys2Proof.Machine.execLinkLost dir s
  | .meshSilence psn => Sys2Proof.Machine.execMeshSilence psn s
  | .routerFault psn alsoSites ns => Sys2Proof.Machine.execRouterFault psn alsoSites ns s
  | .elevatorFault e failures => Sys2Proof.Machine.execElevatorFault e failures s
  | .coreFault core ns => Sys2Proof.Machine.execCoreFault core ns s
  | .spareTakeover core => Sys2Proof.Machine.execSpareTakeover core s
  | .takeoverQueued b => Sys2Proof.Machine.execTakeoverQueued b s
  | .bankFault slice bank unreadable => Sys2Proof.Machine.execBankFault slice bank unreadable s
  | .bankSpareReady slice => Sys2Proof.Machine.execBankSpareReady slice s
  | .agentFenced agent => Sys2Proof.Machine.execAgentFenced agent s
  | .controllerGrant chan => Sys2Proof.Machine.execControllerGrant chan s
  | .lineRead m err => Sys2Proof.Machine.execLineRead m err s
  | .lineWrite m err => Sys2Proof.Machine.execLineWrite m err s
  | .markOnlyUpdate line => Sys2Proof.Machine.execMarkOnlyUpdate line s
  | .mirrorCopyDone entry => Sys2Proof.Machine.execMirrorCopyDone entry s
  | .slowChannelLost chan => Sys2Proof.Machine.execSlowChannelLost chan s
  | .fastChannelLost chan => Sys2Proof.Machine.execFastChannelLost chan s
  | .hostReadFailed line fn how => Sys2Proof.Machine.execHostReadFailed line fn how s
  | .bar2Read off len => Sys2Proof.Machine.execBar2Read off len s
  | .bar2Write off len val ep => Sys2Proof.Machine.execBar2Write off len val ep s
  | .cqHead f q val => Sys2Proof.Machine.execCqHead f q val s
  | .evqHead f val => Sys2Proof.Machine.execEvqHead f val s
  | .sqCtl f q val be => Sys2Proof.Machine.execSqCtl f q val be s
  | .cqCtl f q val be => Sys2Proof.Machine.execCqCtl f q val be s
  | .evqCtl f val be => Sys2Proof.Machine.execEvqCtl f val be s
  | .eventPost f => Sys2Proof.Machine.execEventPost f s
  | .msixSend f vector => Sys2Proof.Machine.execMsixSend f vector s
  | .ibTarget f chan val be => Sys2Proof.Machine.execIbTarget f chan val be s
  | .ibWord f chan val => Sys2Proof.Machine.execIbWord f chan val s
  | .ibWordEnd f chan val => Sys2Proof.Machine.execIbWordEnd f chan val s
  | .eventAdd f e val => Sys2Proof.Machine.execEventAdd f e val s
  | .setCtx => Sys2Proof.Machine.execSetCtx s
  | .inval => Sys2Proof.Machine.execInval s
  | .quiesce ns => Sys2Proof.Machine.execQuiesce ns s
  | .resume => Sys2Proof.Machine.execResume s
  | .dirtyStart => Sys2Proof.Machine.execDirtyStart s
  | .dirtyStop => Sys2Proof.Machine.execDirtyStop s
  | .dirtyCollect => Sys2Proof.Machine.execDirtyCollect s
  | .fcmdDone => Sys2Proof.Machine.execFcmdDone s
  | .drainEnd f => Sys2Proof.Machine.execDrainEnd f s
  | .functionQuiesced f => Sys2Proof.Machine.execFunctionQuiesced f s
  | .flr f => Sys2Proof.Machine.execFlr f s
  | .vfEnableClear => Sys2Proof.Machine.execVfEnableClear s
  | .vfEnableSet num => Sys2Proof.Machine.execVfEnableSet num s
  | .vfReady f => Sys2Proof.Machine.execVfReady f s
  | .zeroingDone f => Sys2Proof.Machine.execZeroingDone f s
  | .perstN => Sys2Proof.Machine.execPerstN s
  | .perstNHigh => Sys2Proof.Machine.execPerstNHigh s
  | .sqcClear f off val => Sys2Proof.Machine.execSqcClear f off val s
  | .reservedAccess write a dws => Sys2Proof.Machine.execReservedAccess write a dws s
  | .partialWrite a => Sys2Proof.Machine.execPartialWrite a s
  | .registerWrite a => Sys2Proof.Machine.execRegisterWrite a s
  | .indDataRead => Sys2Proof.Machine.execIndDataRead s
  | .indDataWrite val => Sys2Proof.Machine.execIndDataWrite val s
  | .mbxSel val => Sys2Proof.Machine.execMbxSel val s
  | .mbxCaptureDone => Sys2Proof.Machine.execMbxCaptureDone s
  | .mbxData3Read => Sys2Proof.Machine.execMbxData3Read s
  | .go f val => Sys2Proof.Machine.execGo f val s
  | .discover d => Sys2Proof.Machine.execDiscover d s
  | .hello d keySlot nonce key => Sys2Proof.Machine.execHello d keySlot nonce key s
  | .auth d session sig => Sys2Proof.Machine.execAuth d session sig s
  | .close k d => Sys2Proof.Machine.execClose k d s
  | .segmentTimeout session reqId => Sys2Proof.Machine.execSegmentTimeout session reqId s
  | .sessionIdle k => Sys2Proof.Machine.execSessionIdle k s
  | .read who r => Sys2Proof.Machine.execRead who r s
  | .write who r => Sys2Proof.Machine.execWrite who r s
  | .info who r => Sys2Proof.Machine.execInfo who r s
  | .attest who r => Sys2Proof.Machine.execAttest who r s
  | .acctClear who val => Sys2Proof.Machine.execAcctClear who val s
  | .convClear who val => Sys2Proof.Machine.execConvClear who val s
  | .coreCtrClear who val => Sys2Proof.Machine.execCoreCtrClear who val s
  | .matrixCtrClear who val => Sys2Proof.Machine.execMatrixCtrClear who val s
  | .roCtrClear who val => Sys2Proof.Machine.execRoCtrClear who val s
  | .cacheCtrClear who val => Sys2Proof.Machine.execCacheCtrClear who val s
  | .coherenceCtrClear who val => Sys2Proof.Machine.execCoherenceCtrClear who val s
  | .memCtrClear who val => Sys2Proof.Machine.execMemCtrClear who val s
  | .ceTableClear who val => Sys2Proof.Machine.execCeTableClear who val s
  | .netCtrClear who val => Sys2Proof.Machine.execNetCtrClear who val s
  | .peerCtrClear who val => Sys2Proof.Machine.execPeerCtrClear who val s
  | .sensorClear who val => Sys2Proof.Machine.execSensorClear who val s
  | .monitorClear who val => Sys2Proof.Machine.execMonitorClear who val s
  | .monitorConfig who k val => Sys2Proof.Machine.execMonitorConfig who k val s
  | .lineProbeAddr who val => Sys2Proof.Machine.execLineProbeAddr who val s
  | .pinWays who val => Sys2Proof.Machine.execPinWays who val s
  | .replicaTable who k val => Sys2Proof.Machine.execReplicaTable who k val s
  | .scrubStart who val => Sys2Proof.Machine.execScrubStart who val s
  | .scrubPassDone endNs errs => Sys2Proof.Machine.execScrubPassDone endNs errs s
  | .retirePage who val errs => Sys2Proof.Machine.execRetirePage who val errs s
  | .clientKeys who k val => Sys2Proof.Machine.execClientKeys who k val s
  | .evcValues who off len val => Sys2Proof.Machine.execEvcValues who off len val s
  | .fnQuiesce who val ns => Sys2Proof.Machine.execFnQuiesce who val ns s
  | .fnResume who val => Sys2Proof.Machine.execFnResume who val s
  | .moduleQuiesce who ns => Sys2Proof.Machine.execModuleQuiesce who ns s
  | .moduleResume who => Sys2Proof.Machine.execModuleResume who s
  | .moduleWarmStart who => Sys2Proof.Machine.execModuleWarmStart who s
  | .moduleQuiesced => Sys2Proof.Machine.execModuleQuiesced s
  | .configDefaults who val => Sys2Proof.Machine.execConfigDefaults who val s
  | .updBegin who => Sys2Proof.Machine.execUpdBegin who s
  | .eraseDone => Sys2Proof.Machine.execEraseDone s
  | .updateImage who off len val => Sys2Proof.Machine.execUpdateImage who off len val s
  | .updCommit who => Sys2Proof.Machine.execUpdCommit who s
  | .verifyDone => Sys2Proof.Machine.execVerifyDone s
  | .updAbort who => Sys2Proof.Machine.execUpdAbort who s
  | .slotConfirm => Sys2Proof.Machine.execSlotConfirm s
  | .confirmTimeout => Sys2Proof.Machine.execConfirmTimeout s
  | .heartbeat => Sys2Proof.Machine.execHeartbeat s
  | .heartbeatAck => Sys2Proof.Machine.execHeartbeatAck s
  | .mgmtTakeover => Sys2Proof.Machine.execMgmtTakeover s
  | .mgmtLost => Sys2Proof.Machine.execMgmtLost s
  | .sensorSample vals => Sys2Proof.Machine.execSensorSample vals s
  | .logRecordWrite => Sys2Proof.Machine.execLogRecordWrite s
  | .ageingCheck margins => Sys2Proof.Machine.execAgeingCheck margins s
  | .feedValid b => Sys2Proof.Machine.execFeedValid b s
  | .feedLost b => Sys2Proof.Machine.execFeedLost b s
  | .feedOvervoltage b => Sys2Proof.Machine.execFeedOvervoltage b s
  | .feedSwitchClose b => Sys2Proof.Machine.execFeedSwitchClose b s
  | .feedVoltageLog b => Sys2Proof.Machine.execFeedVoltageLog b s
  | .bothFeedsLost => Sys2Proof.Machine.execBothFeedsLost s
  | .phaseLost rail => Sys2Proof.Machine.execPhaseLost rail s
  | .powerSample meanMw below5 settled cat => Sys2Proof.Machine.execPowerSample meanMw below5 settled cat s
  | .thermalLimitStart die => Sys2Proof.Machine.execThermalLimitStart die s
  | .thermalLimitStep die below103 => Sys2Proof.Machine.execThermalLimitStep die below103 s
  | .thermalLimitEnd die => Sys2Proof.Machine.execThermalLimitEnd die s
  | .thermalShutdown die => Sys2Proof.Machine.execThermalShutdown die s
  | .thermalRestart who val => Sys2Proof.Machine.execThermalRestart who val s
  | .coolantAlarm flow => Sys2Proof.Machine.execCoolantAlarm flow s
  | .droop core depthMv => Sys2Proof.Machine.execDroop core depthMv s
  | .droopRestore core => Sys2Proof.Machine.execDroopRestore core s
  | .refclkStop => Sys2Proof.Machine.execRefclkStop s
  | .refclkHoldExpiry => Sys2Proof.Machine.execRefclkHoldExpiry s
  | .refclkReturn => Sys2Proof.Machine.execRefclkReturn s
  | .refclkCountEnd => Sys2Proof.Machine.execRefclkCountEnd s
  | .clockMux core passed ns => Sys2Proof.Machine.execClockMux core passed ns s
  | .coldStart cause failed lanes stepEndUs => Sys2Proof.Machine.execColdStart cause failed lanes stepEndUs s
  | .warmStart cause errs stepEndUs => Sys2Proof.Machine.execWarmStart cause errs stepEndUs s
  | .startStepTimeout step b detail => Sys2Proof.Machine.execStartStepTimeout step b detail s
  | .startFailed => Sys2Proof.Machine.execStartFailed s
  | .release => Sys2Proof.Machine.execRelease s
  | .serviceHold recordBad => Sys2Proof.Machine.execServiceHold recordBad s
  | .servicePress ns => Sys2Proof.Machine.execServicePress ns s
  | .serviceCancel => Sys2Proof.Machine.execServiceCancel s
  | .drainSafe => Sys2Proof.Machine.execDrainSafe s
  | .latchOpen ns => Sys2Proof.Machine.execLatchOpen ns s
  | .latchClose => Sys2Proof.Machine.execLatchClose s
  | .lossOfLight p => Sys2Proof.Machine.execLossOfLight p s
  | .powerReduce p => Sys2Proof.Machine.execPowerReduce p s
  | .probe p => Sys2Proof.Machine.execProbe p s
  | .lightDetect p => Sys2Proof.Machine.execLightDetect p s
  | .trainingTimeout p => Sys2Proof.Machine.execTrainingTimeout p s
  | .ident p partner partnerPort periodUs tx rx => Sys2Proof.Machine.execIdent p partner partnerPort periodUs tx rx s
  | .fibreRemoved p rx fibre symbols failed => Sys2Proof.Machine.execFibreRemoved p rx fibre symbols failed s
  | .fibreRetest p rx fibre clean => Sys2Proof.Machine.execFibreRetest p rx fibre clean s
  | .peerArrival pk => Sys2Proof.Machine.execPeerArrival pk s
  | .peerE2eTimeout p seq ns => Sys2Proof.Machine.execPeerE2eTimeout p seq ns s
  | .portEnable who p val => Sys2Proof.Machine.execPortEnable who p val s
  | .timeStampExchange p t1 t2 t3 t4 srcLocked srcPeriodUs => Sys2Proof.Machine.execTimeStampExchange p t1 t2 t3 t4 srcLocked srcPeriodUs s
  | .holdover => Sys2Proof.Machine.execHoldover s
  | .occupancyEnd core array => Sys2Proof.Machine.execOccupancyEnd core array s
  | .xferSpanWritten core k => Sys2Proof.Machine.execXferSpanWritten core k s
  | .hostReadCompletion line fn data ep => Sys2Proof.Machine.execHostReadCompletion line fn data ep s
  | .linkUp => Sys2Proof.Machine.execLinkUp s
  | .opticalEngineFailed p => Sys2Proof.Machine.execOpticalEngineFailed p s
  | .ringNotDriven => Sys2Proof.Machine.execRingNotDriven s

end Sys2Proof.Machine
end

