-- ==== Sys2Proof/Safety.lean ====
section
/-!
DEFINITION. What claims call a safe state and a safe run of the module: the byte memories keep their one canonical form, and a
run stops only by naming an event that cannot occur.
-/
namespace Sys2Proof.Machine

/-- The byte memories, of the module and of the host, are in canonical form. -/
def State.memWf (s : State) : Bool := Memory.wf s.mem.dev && Memory.wf s.mem.host

/-- An outcome is safe: a next state, or a command that names an event which cannot occur (log entry 2). -/
def safeOutcome (o : Out) : Bool :=
  match o with
  | .next _ => true
  | .fault .cannotOccur => true
  | .refused _ => false

end Sys2Proof.Machine
end

