-- ==== Sys2Proof/WellFormed.lean ====
section
/-!
DEFINITION. Well-formed commands: what a command's operands must satisfy beyond their types for the command to describe one
event. The meanings do not rest on it.
-/
namespace Sys2Proof

/-- No element stands twice in a list. -/
def distinct {α : Type} [DecidableEq α] (l : List α) : Bool := decide l.Nodup

/-- A register's offset is that of a 4 B register (R535). -/
def aligned (o : BitVec 25) : Bool := decide (o.toNat % 4 = 0)

/-- A coherence message names a thread once among its operations (R259). -/
def msgOk (m : Msg) : Bool := distinct (m.ops.map LaneOp.lane)

/-- The work of a slice names each code page once. -/
def workOk (w : SliceWork) : Bool := distinct (w.errs.map Prod.fst)

/-- A reduction packet counts at least one contribution (R343). -/
def redOk (p : RedPacket) : Bool := decide (0 < p.cnt)

/-- Only a port has codewords (R368). -/
def fecOk (l : LinkId) (corrected uncorrected : Nat) : Bool :=
  match l with
  | .bundle _ => decide (corrected = 0) && decide (uncorrected = 0)
  | .port _ => true

/-- The body of a dictionary request fits the length of its message (R441). -/
def reqOk (r : DictReq) : Bool := decide (r.body < 2 ^ (8 * (r.raw - 16)))

/-- Whether a command is well formed. -/
def Instr.wf : Instr → Bool
  | .tickBoundary m => distinct (m.map CoreMeas.core)
  | .planningCutoff _ _ p => p.all fun x => distinct x.cores
  | .sliceEnd _ _ _ _ => true
  | .sliceStart _ _ l w => distinct l && workOk w
  | .overrun _ _ _ => true
  | .slowCoreFlag _ => true
  | .coreSwap _ => true
  | .stepCompletion _ _ => true
  | .sqTail _ _ _ _ => true
  | .descriptorRead _ _ => true
  | .nop _ => true
  | .kernel _ l => distinct (l.map CoreRange.core)
  | .copy _ w => workOk w
  | .collectiveReduce _ l => distinct l
  | .collectiveBroadcast _ => true
  | .waitEvent _ => true
  | .waitEventRelease _ => true
  | .eventTimeout _ => true
  | .signalEvent _ => true
  | .pin _ w => workOk w
  | .unpin _ w => workOk w
  | .prefetch _ w => workOk w
  | .writeBack _ w => workOk w
  | .discard _ w => workOk w
  | .scrub _ _ _ w => workOk w
  | .hint _ _ => true
  | .hintPhaseLead _ => true
  | .hintPhaseEnd _ => true
  | .groupStart _ => true
  | .groupPromote _ _ => true
  | .loadDataReturn _ => true
  | .roMissFill _ _ _ => true
  | .matrixOpRetire _ _ => true
  | .watchdog _ => true
  | .yieldTimeout _ => true
  | .groupFault _ _ _ => true
  | .fadd _ _ => true
  | .fsub _ _ => true
  | .fmul _ _ => true
  | .ffma _ _ => true
  | .fmin _ _ => true
  | .fmax _ _ => true
  | .fabs _ _ => true
  | .hadd2 _ _ => true
  | .hsub2 _ _ => true
  | .hmul2 _ _ => true
  | .hfma2 _ _ => true
  | .hmin2 _ _ => true
  | .hmax2 _ _ => true
  | .iadd _ _ => true
  | .isub _ _ => true
  | .imul _ _ => true
  | .imulhi _ _ => true
  | .imad _ _ => true
  | .vand _ _ => true
  | .vor _ _ => true
  | .vxor _ _ => true
  | .shl _ _ => true
  | .shr _ _ => true
  | .sar _ _ => true
  | .imin _ _ => true
  | .imax _ _ => true
  | .popc _ _ => true
  | .clz _ _ => true
  | .bfe _ _ => true
  | .bfi _ _ => true
  | .sel _ _ => true
  | .exp2 _ _ => true
  | .log2 _ _ => true
  | .rcp _ _ => true
  | .rsqrt _ _ => true
  | .cvt _ _ => true
  | .cvtw _ _ => true
  | .cvtp _ _ => true
  | .cvtu _ _ => true
  | .cvti _ _ => true
  | .fsetp _ _ => true
  | .isetp _ _ => true
  | .plop _ _ => true
  | .pmov _ _ => true
  | .vote _ _ => true
  | .scAdd _ _ => true
  | .scSub _ _ => true
  | .scMul _ _ => true
  | .scAnd _ _ => true
  | .scOr _ _ => true
  | .scXor _ _ => true
  | .scShl _ _ => true
  | .scShr _ _ => true
  | .scSar _ _ => true
  | .scMin _ _ => true
  | .scMax _ _ => true
  | .scFadd _ _ => true
  | .scFmul _ _ => true
  | .scFfma _ _ => true
  | .mov _ _ => true
  | .shfl _ _ => true
  | .rdlane _ _ => true
  | .ldlLoad _ _ => true
  | .ldlStore _ _ => true
  | .ldgLoad _ _ => true
  | .ldgStore _ _ => true
  | .xferIn _ _ => true
  | .xferOut _ _ => true
  | .atomAddU32 _ _ => true
  | .atomAddU64 _ _ => true
  | .atomAddF32 _ _ => true
  | .atomAddBf16x2 _ _ => true
  | .atomMinS32 _ _ => true
  | .atomMaxS32 _ _ => true
  | .atomMinU32 _ _ => true
  | .atomMaxU32 _ _ => true
  | .atomAnd _ _ => true
  | .atomOr _ _ => true
  | .atomXor _ _ => true
  | .atomSwapU32 _ _ => true
  | .atomSwapU64 _ _ => true
  | .atomCasU64 _ _ => true
  | .atomCasU128 _ _ => true
  | .acq _ _ => true
  | .mma _ _ => true
  | .mmaz _ _ => true
  | .tzero _ _ => true
  | .tld _ _ => true
  | .tst _ _ => true
  | .twait _ _ => true
  | .ttest _ _ => true
  | .dwr _ _ => true
  | .bra _ _ => true
  | .split _ _ => true
  | .join _ _ => true
  | .exit _ _ => true
  | .bany _ _ => true
  | .bnone _ _ => true
  | .ball _ _ => true
  | .ctlNop _ _ => true
  | .jr _ _ => true
  | .bar _ _ => true
  | .rdtime _ _ => true
  | .rdtick _ _ => true
  | .rdcyc _ _ _ => true
  | .inrd _ _ => true
  | .instat _ _ => true
  | .snd _ _ => true
  | .sndv _ _ => true
  | .inflush _ _ => true
  | .inboxWordArrival _ _ _ _ _ _ _ => true
  | .inboxPacketTimeout _ => true
  | .flushEffect _ _ => true
  | .rd m => msgOk m
  | .rdo m => msgOk m
  | .wr m => msgOk m
  | .atom m => msgOk m
  | .pres m => msgOk m
  | .dwn m => msgOk m
  | .wb m => msgOk m
  | .inv m => msgOk m
  | .fwdRd m => msgOk m
  | .fwdOwn m => msgOk m
  | .recall m => msgOk m
  | .data m => msgOk m
  | .grant m => msgOk m
  | .ack m => msgOk m
  | .invAck m => msgOk m
  | .presAck m => msgOk m
  | .wbAck m => msgOk m
  | .ownData m => msgOk m
  | .ownDone m => msgOk m
  | .retry m => msgOk m
  | .creditedResend _ _ => true
  | .radd _ p => redOk p
  | .chiveHoldExpiry _ _ _ _ _ => true
  | .tagDone _ _ _ => true
  | .collPeerTimeout _ => true
  | .e2eTimeout _ _ _ _ _ => true
  | .flitReceive l _ c u => fecOk l c u
  | .nak _ _ => true
  | .linkAckTimeout _ => true
  | .laneFlag _ _ _ _ => true
  | .laneTest _ _ l => distinct l
  | .laneSwap _ => true
  | .laneSwapDone _ => true
  | .bundleRetired _ _ => true
  | .slotDrainDone _ _ => true
  | .linkLost _ => true
  | .meshSilence _ => true
  | .routerFault p l _ => !l.contains p && distinct l
  | .elevatorFault _ _ => true
  | .coreFault _ _ => true
  | .spareTakeover _ => true
  | .takeoverQueued _ => true
  | .bankFault _ _ l => distinct l
  | .bankSpareReady _ => true
  | .agentFenced _ => true
  | .controllerGrant _ => true
  | .lineRead m _ => msgOk m
  | .lineWrite m _ => msgOk m
  | .markOnlyUpdate _ => true
  | .mirrorCopyDone _ => true
  | .slowChannelLost _ => true
  | .fastChannelLost _ => true
  | .hostReadFailed _ _ _ => true
  | .bar2Read _ n => decide (0 < n.val)
  | .bar2Write _ n _ _ => decide (0 < n.val)
  | .cqHead _ _ _ => true
  | .evqHead _ _ => true
  | .sqCtl _ _ _ _ => true
  | .cqCtl _ _ _ _ => true
  | .evqCtl _ _ _ => true
  | .eventPost _ => true
  | .msixSend _ _ => true
  | .ibTarget _ _ _ _ => true
  | .ibWord _ _ _ => true
  | .ibWordEnd _ _ _ => true
  | .eventAdd _ _ _ => true
  | .setCtx => true
  | .inval => true
  | .quiesce _ => true
  | .resume => true
  | .dirtyStart => true
  | .dirtyStop => true
  | .dirtyCollect => true
  | .fcmdDone => true
  | .drainEnd _ => true
  | .functionQuiesced _ => true
  | .flr _ => true
  | .vfEnableClear => true
  | .vfEnableSet _ => true
  | .vfReady _ => true
  | .zeroingDone _ => true
  | .perstN => true
  | .perstNHigh => true
  | .sqcClear _ o _ => aligned o
  | .reservedAccess _ a n => aligned a.off && decide (0 < n.val)
  | .partialWrite a => aligned a.off && decide (a.be ≠ 15)
  | .registerWrite a => aligned a.off
  | .indDataRead => true
  | .indDataWrite _ => true
  | .mbxSel _ => true
  | .mbxCaptureDone => true
  | .mbxData3Read => true
  | .go _ _ => true
  | .discover _ => true
  | .hello _ _ _ _ => true
  | .auth _ _ _ => true
  | .close _ _ => true
  | .segmentTimeout _ _ => true
  | .sessionIdle _ => true
  | .read _ r => reqOk r
  | .write _ r => reqOk r
  | .info _ r => reqOk r
  | .attest _ r => reqOk r
  | .acctClear _ _ => true
  | .convClear _ _ => true
  | .coreCtrClear _ _ => true
  | .matrixCtrClear _ _ => true
  | .roCtrClear _ _ => true
  | .cacheCtrClear _ _ => true
  | .coherenceCtrClear _ _ => true
  | .memCtrClear _ _ => true
  | .ceTableClear _ _ => true
  | .netCtrClear _ _ => true
  | .peerCtrClear _ _ => true
  | .sensorClear _ _ => true
  | .monitorClear _ _ => true
  | .monitorConfig _ _ _ => true
  | .lineProbeAddr _ _ => true
  | .pinWays _ _ => true
  | .replicaTable _ _ _ => true
  | .scrubStart _ _ => true
  | .scrubPassDone _ e => distinct (e.map Prod.fst)
  | .retirePage _ _ e => distinct (e.map Prod.fst)
  | .clientKeys _ _ _ => true
  | .evcValues _ o n v => decide (o.val + n ≤ 32768) && decide (v < 2 ^ (8 * n))
  | .fnQuiesce _ _ _ => true
  | .fnResume _ _ => true
  | .moduleQuiesce _ _ => true
  | .moduleResume _ => true
  | .moduleWarmStart _ => true
  | .moduleQuiesced => true
  | .configDefaults _ _ => true
  | .updBegin _ => true
  | .eraseDone => true
  | .updateImage _ _ n v => decide (n ≤ 7920) && decide (v < 2 ^ (8 * n))
  | .updCommit _ => true
  | .verifyDone => true
  | .updAbort _ => true
  | .slotConfirm => true
  | .confirmTimeout => true
  | .heartbeat => true
  | .heartbeatAck => true
  | .mgmtTakeover => true
  | .mgmtLost => true
  | .sensorSample l => distinct (l.map Prod.fst)
  | .logRecordWrite => true
  | .ageingCheck l => distinct (l.map Prod.fst)
  | .feedValid _ => true
  | .feedLost _ => true
  | .feedOvervoltage _ => true
  | .feedSwitchClose _ => true
  | .feedVoltageLog _ => true
  | .bothFeedsLost => true
  | .phaseLost _ => true
  | .powerSample _ _ _ _ => true
  | .thermalLimitStart _ => true
  | .thermalLimitStep _ _ => true
  | .thermalLimitEnd _ => true
  | .thermalShutdown _ => true
  | .thermalRestart _ _ => true
  | .coolantAlarm _ => true
  | .droop _ _ => true
  | .droopRestore _ => true
  | .refclkStop => true
  | .refclkHoldExpiry => true
  | .refclkReturn => true
  | .refclkCountEnd => true
  | .clockMux _ _ _ => true
  | .coldStart _ _ _ l => decide (l.length ≤ 11)
  | .warmStart _ e l => distinct (e.map Prod.fst) && decide (l.length ≤ 11)
  | .startStepTimeout n _ _ => decide (1 ≤ n.val) && decide (n.val ≤ 10)
  | .startFailed => true
  | .release => true
  | .serviceHold _ => true
  | .servicePress _ => true
  | .serviceCancel => true
  | .drainSafe => true
  | .latchOpen _ => true
  | .latchClose => true
  | .lossOfLight _ => true
  | .powerReduce _ => true
  | .probe _ => true
  | .lightDetect _ => true
  | .trainingTimeout _ => true
  | .ident _ _ _ _ _ _ => true
  | .fibreRemoved _ _ _ _ _ => true
  | .fibreRetest _ _ _ _ => true
  | .peerArrival p => !(p.isAtom && p.isRed)
  | .peerE2eTimeout _ _ _ => true
  | .portEnable _ _ _ => true
  | .timeStampExchange _ _ _ _ _ _ _ => true
  | .holdover => true
  | .occupancyEnd _ _ => true
  | .xferSpanWritten _ _ => true
  | .hostReadCompletion _ _ _ _ => true
  | .linkUp => true
  | .opticalEngineFailed _ => true
  | .ringNotDriven => true

end Sys2Proof
end

