-- ==== Sys2Proof/Certificates/Slice0/Obligations.lean ====
section
/-!
DEFINITION. The statements about the model for the provers. `Sys2Proof.Claims` holds the words the statements use.
-/
namespace Sys2Proof.Claims
open Sys2Proof Sys2Proof.Machine

/-! ## Words of the statements about kernel code -/

/-- The control state of a group. -/
abbrev grp (s : State) (g : GroupRef) : Group := (s.core g.core).group g.slot

/-- The effective mask of an instruction with a GUARD (R181). -/
abbrev emask (s : State) (g : GroupRef) (guard : BitVec 5) : Word := effMask (grp s g) guard

/-- The group is in the active set of a core that runs, and no load will still write a register the instruction names
(R116, R117). -/
def Ready (s : State) (g : GroupRef) (specs : List (BitVec 7)) : Prop :=
  canIssue s g = true ∧ (s.core g.core).waitTag g.slot specs = none

/-- `k'` is the core `k` but for v register `row` of a slot, which in the threads of `mask` holds `f`. -/
def WroteRow (k k' : Core) (slot row : Nat) (mask : Word) (f : Nat → Word) : Prop :=
  k' = { k with rf := k'.rf } ∧
  (∀ t < 32, mask.getLsbD t = true → k'.v slot row t = f t) ∧
  ∀ sl r t, r < 64 → t < 32 → ¬(sl = slot ∧ r = row ∧ mask.getLsbD t = true) → k'.v sl r t = k.v sl r t

/-- `k'` is the core `k` but for uniform register `n` of a slot, which holds `w`. -/
def WroteU (k k' : Core) (slot n : Nat) (w : Word) : Prop :=
  k' = { k with rf := k'.rf } ∧ k'.u slot n = w ∧
  ∀ sl r t, r < 64 → t < 32 → ¬(sl = slot ∧ r = 63 ∧ t = n) → k'.v sl r t = k.v sl r t

/-- A vector instruction has completed: DST of each thread in the effective mask holds `f`, the group is at its next
instruction, and nothing else of the module has changed. -/
def VecDone (s t : State) (g : GroupRef) (dst : BitVec 7) (guard : BitVec 5) (f : Nat → Word) : Prop :=
  ∃ k', WroteRow (s.core g.core) k' g.slot (regNo dst) (emask s g guard) f ∧
    t = s.setCore g.core (k'.setGroup g.slot (grp s g).advance)

/-- A scalar instruction has completed: uniform register `dst` holds `w`. -/
def ScalarDone (s t : State) (g : GroupRef) (dst : BitVec 7) (w : Word) : Prop :=
  ∃ k', WroteU (s.core g.core) k' g.slot (regNo dst) w ∧
    t = s.setCore g.core (k'.setGroup g.slot (grp s g).advance)

/-- The group is at `pc` with its other control state as before, and nothing else of the module has changed. -/
def WentTo (s t : State) (g : GroupRef) (gr : Group) : Prop :=
  t = s.setCore g.core ((s.core g.core).setGroup g.slot gr)

/-- The value that a thread sees of a source. -/
abbrev val (s : State) (g : GroupRef) (x : Src) (lane : Nat) : Word := x.val (s.core g.core) (grp s g) g.slot lane

/-- The integer rows of vector arithmetic: the group, the operands (R185, R187) and the result of each thread (R186). -/
def integerRow : Instr → Option (GroupRef × VArgs × (Word → Word → Word → Word))
  | .iadd g f => some (g, vArgs f false 0, fun a b _ => a + b)
  | .isub g f => some (g, vArgsR f true false 0, fun a b _ => a - b)
  | .imul g f => some (g, vArgs f false 0, fun a b _ => a * b)
  | .imulhi g f => some (g, vArgsR f true false 1, fun a b _ =>
      if f.mod.getLsbD 0 then BitVec.ofInt 32 (a.toInt * b.toInt / 2 ^ 32) else BitVec.ofNat 32 (a.toNat * b.toNat / 2 ^ 32))
  | .imad g f => some (g, vArgsR f true true 0, fun a b c => a * b + c)
  | .vand g f => some (g, vArgs f false 0, fun a b _ => a &&& b)
  | .vor g f => some (g, vArgs f false 0, fun a b _ => a ||| b)
  | .vxor g f => some (g, vArgs f false 0, fun a b _ => a ^^^ b)
  | .shl g f => some (g, vArgs f false 0, fun a b _ => a <<< (b.toNat % 32))
  | .shr g f => some (g, vArgs f false 0, fun a b _ => a >>> (b.toNat % 32))
  | .sar g f => some (g, vArgs f false 0, fun a b _ => a.sshiftRight (b.toNat % 32))
  | .imin g f => some (g, vArgs f false 1, fun a b _ =>
      if riSigned f then (if a.sle b then a else b) else (if a.ule b then a else b))
  | .imax g f => some (g, vArgs f false 1, fun a b _ =>
      if riSigned f then (if a.sle b then b else a) else (if a.ule b then b else a))
  | .popc g f => some (g, vArgsR f false false 0, fun a _ _ =>
      BitVec.ofNat 32 ((List.range 32).filter fun i => a.getLsbD i).length)
  | .clz g f => some (g, vArgsR f false false 0, fun a _ _ =>
      BitVec.ofNat 32 (((List.range 32).takeWhile fun i => !a.getLsbD (31 - i)).length))
  | _ => none

/-- The FP32, packed 16-bit and special-function rows: the group, the operands, whether the rounding code faults, and the
result of each thread (R103, R185, R186). -/
def floatRow : Instr → Option (GroupRef × VArgs × Bool × (Word → Word → Word → Word))
  | .fadd g f => let v := vArgs f false 7; some (g, v, roundBad v.mod, fop v.mod fun m a b _ => fpAdd .fp32 m a b)
  | .fsub g f => let v := vArgsR f true false 7; some (g, v, roundBad v.mod, fop v.mod fun m a b _ => fpSub .fp32 m a b)
  | .fmul g f => let v := vArgs f false 7; some (g, v, roundBad v.mod, fop v.mod fun m a b _ => fpMul .fp32 m a b)
  | .ffma g f => let v := vArgs f true 15; some (g, v, roundBad v.mod, fop v.mod fun m a b c => fpFma .fp32 m a b c)
  | .fmin g f => let v := vArgs f false 7; some (g, v, roundBad v.mod, fop v.mod fun _ a b _ => fpMin .fp32 a b)
  | .fmax g f => let v := vArgs f false 7; some (g, v, roundBad v.mod, fop v.mod fun _ a b _ => fpMax .fp32 a b)
  | .fabs g f => let v := vArgsR f false false 7; some (g, v, roundBad v.mod, fop v.mod fun _ a _ _ => fpAbs .fp32 a)
  | .hadd2 g f => let v := vArgsR f true false 0x17; some (g, v, roundBad v.mod, hop v.mod fun h m a b _ => fpAdd h m a b)
  | .hsub2 g f => let v := vArgsR f true false 0x17; some (g, v, roundBad v.mod, hop v.mod fun h m a b _ => fpSub h m a b)
  | .hmul2 g f => let v := vArgsR f true false 0x17; some (g, v, roundBad v.mod, hop v.mod fun h m a b _ => fpMul h m a b)
  | .hfma2 g f => let v := vArgsR f true true 0x1F; some (g, v, roundBad v.mod, hop v.mod fun h m a b c => fpFma h m a b c)
  | .hmin2 g f => let v := vArgsR f true false 0x17; some (g, v, roundBad v.mod, hop v.mod fun h _ a b _ => fpMin h a b)
  | .hmax2 g f => let v := vArgsR f true false 0x17; some (g, v, roundBad v.mod, hop v.mod fun h _ a b _ => fpMax h a b)
  | .exp2 g f => some (g, vArgsR f false false 0, false, fun a _ _ => sfResult 0 a)
  | .log2 g f => some (g, vArgsR f false false 0, false, fun a _ _ => sfResult 1 a)
  | .rcp g f => some (g, vArgsR f false false 0, false, fun a _ _ => sfResult 2 a)
  | .rsqrt g f => some (g, vArgsR f false false 0, false, fun a _ _ => sfResult 3 a)
  | _ => none

/-- The scalar rows: the group, the operands and the result (R191). -/
def scalarRow : Instr → Option (GroupRef × VArgs × (Word → Word → Word → Word))
  | .scAdd g f => some (g, scArgs f false, fun a b _ => a + b)
  | .scSub g f => some (g, scArgs f false, fun a b _ => a - b)
  | .scMul g f => some (g, scArgs f false, fun a b _ => a * b)
  | .scAnd g f => some (g, scArgs f false, fun a b _ => a &&& b)
  | .scOr g f => some (g, scArgs f false, fun a b _ => a ||| b)
  | .scXor g f => some (g, scArgs f false, fun a b _ => a ^^^ b)
  | .scShl g f => some (g, scArgs f false, fun a b _ => a <<< (b.toNat % 32))
  | .scShr g f => some (g, scArgs f false, fun a b _ => a >>> (b.toNat % 32))
  | .scSar g f => some (g, scArgs f false, fun a b _ => a.sshiftRight (b.toNat % 32))
  | .scMin g f => some (g, scArgs f false, fun a b _ => if a.sle b then a else b)
  | .scMax g f => some (g, scArgs f false, fun a b _ => if a.sle b then b else a)
  | .scFadd g f => some (g, scArgs f false, fun a b _ => BitVec.ofNat 32 (fpAdd .fp32 .rne a.toNat b.toNat))
  | .scFmul g f => some (g, scArgs f false, fun a b _ => BitVec.ofNat 32 (fpMul .fp32 .rne a.toNat b.toNat))
  | .scFfma g f => some (g, scArgs f true, fun a b c => BitVec.ofNat 32 (fpFma .fp32 .rne a.toNat b.toNat c.toNat))
  | _ => none

/-- The operation and the fields of an atomic that runs at a home (R201). -/
def atomicRow : Instr → Option (GroupRef × AFields × AtomKind)
  | .atomAddU32 g f => some (g, f, .addU32)
  | .atomAddU64 g f => some (g, f, .addU64)
  | .atomAddF32 g f => some (g, f, .addF32)
  | .atomAddBf16x2 g f => some (g, f, .addBf16x2)
  | .atomMinS32 g f => some (g, f, .minS32)
  | .atomMaxS32 g f => some (g, f, .maxS32)
  | .atomMinU32 g f => some (g, f, .minU32)
  | .atomMaxU32 g f => some (g, f, .maxU32)
  | .atomAnd g f => some (g, f, .and)
  | .atomOr g f => some (g, f, .or)
  | .atomXor g f => some (g, f, .xor)
  | .atomSwapU32 g f => some (g, f, .swapU32)
  | .atomSwapU64 g f => some (g, f, .swapU64)
  | .atomCasU64 g f => some (g, f, .casU64)
  | .atomCasU128 g f => some (g, f, .casU128)
  | _ => none

/-- The operations of the matrix engine with their fields (R204). -/
def matrixRow : Instr → Option (GroupRef × XFields × MatKind)
  | .mma g f => some (g, f, .mma)
  | .mmaz g f => some (g, f, .mmaz)
  | .tzero g f => some (g, f, .tzero)
  | .tld g f => some (g, f, .tld)
  | .tst g f => some (g, f, .tst)
  | _ => none

end Sys2Proof.Claims

open Sys2Proof Sys2Proof.Machine Sys2Proof.Claims

/-- A step runs exec on the front command; on an empty queue it idles (the queue is the model's own, log entry 3). (1) A
step runs exec on the command at the front of the queue. For every command c, rest of queue and state whose queue is c
followed by that rest, step answers exactly what exec answers for c on the state with the rest as its queue. The queue
is the model's own (log entry 3). (2) A step on an empty queue idles (the model's choice, log entry 3). With no
command waiting, step answers the state unchanged. This is the model's own choice (log entry 3), no rule of the spec. -/
def Obligations.StepRunsTheFrontCommandOrIdles : Prop :=
  -- A step runs exec on the command at the front of the queue
  (∀ (c : Instr) (rest : List Instr) (s : State),
    s.pending = c :: rest → step s = exec c { s with pending := rest }) ∧
  -- A step on an empty queue idles (the model's choice, log entry 3)
  (∀ s : State, s.pending = [] → step s = .next s)

/-- The two worked words of R182 decode to the instructions the spec names. 0641_00C7_0803_0000h is ffma v4, v1, u7, v4
guarded by p2; 4002_4103_0000_0140h is ld.w32 v9, [v2 + 320] of local memory; a word with a reserved major 00h and one
with a reserved function of major 08h decode to nothing. -/
def Obligations.WorkedWordsDecode : Prop :=
  ∀ g : GroupRef,
    decodeIWord g 0x064100C708030000 = some (.ffma g (.r ⟨0b10010, 0x04, 0x01, 0x47, 0x04, 0⟩)) ∧
    decodeIWord g 0x4002410300000140 = some (.ldlLoad g ⟨0, 0x09, 0x02, 3, 0, ⟨0, false, false, false, false⟩, 0x140⟩) ∧
    decodeIWord g 0 = none ∧ decodeIWord g 0x2000000000040000 = none

/-- Decoding the word of any instruction of kernel code gives the instruction back. For every instruction i of kernel code
(every command that has an instruction word) with every operand at every value its fields admit: if the encoder gives
word w, the decoder for i's group reads i from w. No bit of any format is dropped. (The cycle count that an rdcyc
observes, log entry 1, is no part of its word, and is read as 0.) -/
def Obligations.DecodeOfEncodeIsIdentity : Prop :=
  ∀ (i : Instr) (g : GroupRef) (w : IWord),
    encodeIWord i = some w → instrGroup i = some g → decodeIWord g w = some i.asRead

/-- Every word that decodes is the one word of its instruction. If a 64-bit word decodes to an instruction, the encoder
gives that very word back and the instruction belongs to the group that decoded it: two different words never spell
one instruction. -/
def Obligations.EncodeOfDecodeIsIdentity : Prop :=
  ∀ (g : GroupRef) (w : IWord) (i : Instr),
    decodeIWord g w = some i → encodeIWord i = some w ∧ instrGroup i = some g

/-- Integer, logic, bit-field and select rows write DST of each active thread and nothing else. (1) Integer and logic rows
of vector arithmetic write DST of each active thread. iadd, isub, imul, imulhi, imad, and, or, xor, shl, shr, sar,
imin, imax, popc and clz, in R and I form: for a group that may issue, with operands of the kinds the row allows, exec
answers a next state in which DST of each thread of the effective mask holds the row's result of that thread's
sources, every other register-file word and every other part of the module is unchanged, and the group is at its next
instruction. (2) bfe, bfi and sel write the field, the merged word or the selected source. For a group that may issue,
with legal operands and a field of 1 or more bits that ends within the word: bfe writes the field of SA, zero- or
sign-extended; bfi writes SB with the field replaced by the low bits of SA; sel writes SA where the predicate's bit of
the thread is set and SB elsewhere. Each result bit is stated. -/
def Obligations.VectorIntegerAndFieldResults : Prop :=
  -- Integer and logic rows of vector arithmetic write DST of each active thread
  (∀ (i : Instr) (g : GroupRef) (v : VArgs) (op : Word → Word → Word → Word) (s : State),
    integerRow i = some (g, v, op) → v.illegal = false → Ready s g v.regs →
    ∃ t, exec i s = .next t ∧
      VecDone s t g v.dst v.guard fun n => op (val s g v.a n) (val s g v.b n) (val s g v.c n)) ∧
  -- bfe, bfi and sel write the field, the merged word or the selected source
  (∀ (g : GroupRef) (f : RFields) (s : State),
    let pos := f.mod.toNat % 32
    let len := f.mod.toNat / 32 % 64
    ((vArgsR f false false 0xFFF).illegal = false → 0 < len → pos + len ≤ 32 → Ready s g (vArgsR f false false 0xFFF).regs →
      ∃ t r, exec (.bfe g f) s = .next t ∧ VecDone s t g f.dst f.guard r ∧
        ∀ n < 32, ∀ b < 32, (r n).getLsbD b =
          if b < len then (val s g (.reg f.sa) n).getLsbD (pos + b)
          else f.mod.getLsbD 11 && (val s g (.reg f.sa) n).getLsbD (pos + len - 1)) ∧
    ((vArgsR f true false 0x7FF).illegal = false → 0 < len → pos + len ≤ 32 → Ready s g (vArgsR f true false 0x7FF).regs →
      ∃ t r, exec (.bfi g f) s = .next t ∧ VecDone s t g f.dst f.guard r ∧
        ∀ n < 32, ∀ b < 32, (r n).getLsbD b =
          if pos ≤ b ∧ b < pos + len then (val s g (.reg f.sa) n).getLsbD (b - pos)
          else (val s g (.reg f.sb) n).getLsbD b) ∧
    ((vArgsR f true false 7).illegal = false → Ready s g (vArgsR f true false 7).regs →
      ∃ t, exec (.sel g f) s = .next t ∧ VecDone s t g f.dst f.guard fun n =>
        if ((grp s g).pred (f.mod.toNat % 8)).getLsbD n then val s g (.reg f.sa) n else val s g (.reg f.sb) n))

/-- FP32, packed 16-bit and special-function rows write DST of each active thread. fadd, fsub, fmul, ffma, fmin, fmax,
fabs, hadd2, hsub2, hmul2, hfma2, hmin2, hmax2, exp2, log2, rcp and rsqrt: for a group that may issue, with legal
operands and a rounding code the row allows, exec answers a next state in which DST of each thread of the effective
mask holds the row's result, and nothing else but the group's PC changes. -/
def Obligations.VectorFloatResults : Prop :=
  ∀ (i : Instr) (g : GroupRef) (v : VArgs) (bad : Bool) (op : Word → Word → Word → Word) (s : State),
    floatRow i = some (g, v, bad, op) → v.illegal = false → bad = false → Ready s g v.regs →
    ∃ t, exec i s = .next t ∧
      VecDone s t g v.dst v.guard fun n => op (val s g v.a n) (val s g v.b n) (val s g v.c n)

namespace Sys2Proof.Claims
open Sys2Proof Sys2Proof.Machine

/-- The floating-point formats of R78. -/
def floatFormats : List Fmt := [.fp32, .fp16, .bf16, .e4m3, .e5m2, .e2m1]

/-- The rational number that a finite value is. -/
def ratOf (s : Bool) (m : Nat) (e : Int) : ℚ := (if s then -1 else 1) * (m : ℚ) * (2 : ℚ) ^ e

end Sys2Proof.Claims

open Sys2Proof Sys2Proof.Machine Sys2Proof.Claims

/-- RNE gives a representable value nearest to the exact value. For each floating-point format and every exact finite
value whose RNE result is finite and no saturation, no representable finite value of the format lies nearer to the
exact value than the one RNE writes. -/
def Obligations.RoundToNearestIsNearest : Prop :=
  ∀ f ∈ floatFormats, ∀ (s : Bool) (m : Nat) (e : Int) (s1 : Bool) (m1 : Nat) (e1 : Int),
    (f.narrow .rne (.fin s m e)).sat = false → f.decode (f.encode .rne (.fin s m e)) = .fin s1 m1 e1 →
    ∀ c s2 m2 e2, f.decode c = .fin s2 m2 e2 →
      |ratOf s m e - ratOf s1 m1 e1| ≤ |ratOf s m e - ratOf s2 m2 e2|

/-- The conversion rows write converted codes and advance the conversion count. cvt without and with SCALED, cvtw, cvtp,
cvtu and cvti, for a group that may issue with legal fields: exec answers a next state in which DST of each active
thread holds the converted value, every register but DST (and, for a scaled cvt, the scale register SC) is as before,
and the group's conversion count has advanced by 1 whatever its effective mask. Under stochastic rounding the drawn
value stays free. -/
def Obligations.ConversionResults : Prop :=
  ∀ (g : GroupRef) (f : RFields) (s : State),
    let k := s.core g.core
    let conv (t : State) : Prop := (grp t g).pc = (grp s g).pc + 1 ∧ (grp t g).conv = (grp s g).conv + 1
    let active (n : Nat) : Prop := n < 32 ∧ (emask s g f.guard).getLsbD n = true
    let keeps (t : State) (others : Nat → Nat → Nat → Prop) : Prop := ∀ sl r n, r < 64 → n < 32 →
      ¬(sl = g.slot.val ∧ r = regNo f.dst ∧ active n) → ¬others sl r n → (t.core g.core).v sl r n = k.v sl r n
    (Ready s g ((vArgsR f false false 0x7F).regs ++ (if vcScaled f then [f.sc] else [])) →
      (vArgsR f false false 0x7F).illegal = false → (vcScaled f = true → isU f.sc = true) → vcFmt f ≠ 0 →
      scaleAllowed (vcFmt f) (vcScaled f) = true → vcRound f ≠ 3 →
      ∃ t, exec (.cvt g f) s = .next t ∧ conv t ∧ t.mem = s.mem ∧
        (let mode (n : Nat) := rmode (vcRound f) (laneDraw k g.core (grp s g) n)
         let b := blockStore (vcFmt f) mode (cvtBlock k (grp s g) g.slot (vArgsR f false false 0x7F))
         if vcScaled f then
           (t.core g.core).u g.slot (regNo f.sc) = BitVec.ofNat 32 b.scale ∧
           (∀ n, active n → ¬(regNo f.dst = 63 ∧ n = regNo f.sc) → (t.core g.core).v g.slot (regNo f.dst) n =
             BitVec.ofNat 32 (b.elems.getD n ⟨0, false, false⟩).code) ∧
           keeps t (fun sl r n => sl = g.slot.val ∧ r = 63 ∧ n = regNo f.sc)
         else
           (∀ n, active n → (t.core g.core).v g.slot (regNo f.dst) n = BitVec.ofNat 32
             (narrowTo (vcFmt f) (mode n) (Fmt.fp32.decode (val s g (.reg f.sa) n).toNat)).code) ∧
           keeps t (fun _ _ _ => False))) ∧
    (Ready s g ((vArgsR f false false 0x7F).regs ++ (if vcScaled f then [f.sb] else [])) →
      (vArgsR f false false 0x7F).illegal = false → (vcScaled f = true → isU f.sb = true) → vcFmt f ≠ 0 →
      scaleAllowed (vcFmt f) (vcScaled f) = true → vcRound f = 0 →
      ∃ t, exec (.cvtw g f) s = .next t ∧ conv t ∧ t.mem = s.mem ∧
        (∀ n, active n → (t.core g.core).v g.slot (regNo f.dst) n = BitVec.ofNat 32
          (widen (vcFmt f) (if vcScaled f then some ((k.u g.slot (regNo f.sb)).toNat % 256) else none)
            (val s g (.reg f.sa) n).toNat)) ∧
        keeps t (fun _ _ _ => False)) ∧
    (Ready s g (vArgsR f true false 0x7F).regs → (vArgsR f true false 0x7F).illegal = false →
      (vcFmt f = 1 ∨ vcFmt f = 2) → vcScaled f = false → vcRound f ≠ 3 →
      ∃ t, exec (.cvtp g f) s = .next t ∧ conv t ∧ t.mem = s.mem ∧
        (∀ n, active n → (t.core g.core).v g.slot (regNo f.dst) n = BitVec.ofNat 32
          ((narrowTo (vcFmt f) (rmode (vcRound f) (laneDraw k g.core (grp s g) (2 * n)))
              (Fmt.fp32.decode (val s g (.reg f.sa) n).toNat)).code +
            2 ^ 16 * (narrowTo (vcFmt f) (rmode (vcRound f) (laneDraw k g.core (grp s g) (2 * n + 1)))
              (Fmt.fp32.decode (val s g (.reg f.sb) n).toNat)).code)) ∧
        keeps t (fun _ _ _ => False)) ∧
    (Ready s g (vArgsR f false false 0xFF).regs → (vArgsR f false false 0xFF).illegal = false →
      (vcFmt f = 1 ∨ vcFmt f = 2) → vcScaled f = false → vcRound f = 0 →
      ∃ t, exec (.cvtu g f) s = .next t ∧ conv t ∧ t.mem = s.mem ∧
        (∀ n, active n → (t.core g.core).v g.slot (regNo f.dst) n = BitVec.ofNat 32
          (widen (vcFmt f) none ((val s g (.reg f.sa) n).toNat / (if vcHigh f then 65536 else 1) % 65536))) ∧
        keeps t (fun _ _ _ => False)) ∧
    (Ready s g (vArgsR f false false 0x7F).regs → (vArgsR f false false 0x7F).illegal = false →
      vcFmt f = 0 → vcScaled f = false → vcRound f < 2 →
      ∃ t, exec (.cvti g f) s = .next t ∧ conv t ∧ t.mem = s.mem ∧
        (∀ n, active n → (t.core g.core).v g.slot (regNo f.dst) n = BitVec.ofNat 32
          (Fmt.fp32.encode (rmode (vcRound f) 0) (FVal.ofInt (val s g (.reg f.sa) n).toInt))) ∧
        keeps t (fun _ _ _ => False))

/-- Compares, predicate logic, predicate moves and votes. fsetp and isetp set bit t of DST for each thread of the
effective mask and keep every other bit; plop combines two predicates; pmov moves between a predicate and a uniform
register; vote writes the predicate's active threads to a uniform register. Each completes for a group that may issue
with legal fields, and leaves everything else but the group's PC unchanged. -/
def Obligations.PredicateResults : Prop :=
  ∀ (g : GroupRef) (f : RFields) (s : State),
    let gr := grp s g
    let src (x : BitVec 7) (n : Nat) : Word := (s.core g.core).src gr g.slot x n
    let sets (t : State) (c : Word → Word → Bool) : Prop := ∃ m : Word,
      WentTo s t g (gr.setPred (regNo f.dst) m).advance ∧
      ∀ n < 32, m.getLsbD n = if (emask s g f.guard).getLsbD n then c (src f.sa n) (src f.sb n)
        else (gr.pred (regNo f.dst)).getLsbD n
    (isP f.dst = true → isVUZ f.sa = true → isVUZ f.sb = true → f.mod.toNat < 8 → Ready s g [f.sa, f.sb] →
      ∃ t, exec (.fsetp g f) s = .next t ∧
        sets t fun a b => fpCompare f.mod.toNat (Fmt.fp32.decode a.toNat) (Fmt.fp32.decode b.toNat)) ∧
    (isP f.dst = true → isVUZ f.sa = true → isVUZ f.sb = true → f.mod.toNat < 16 → f.mod.toNat % 8 < 6 →
      Ready s g [f.sa, f.sb] →
      ∃ t, exec (.isetp g f) s = .next t ∧
        sets t fun a b =>
          let lt := if f.mod.getLsbD 3 then a.slt b else a.ult b
          match f.mod.toNat % 8 with
          | 0 => a == b | 1 => a != b | 2 => lt | 3 => lt || a == b | 4 => !lt && a != b | _ => !lt) ∧
    (isP f.dst = true → isP f.sa = true → isP f.sb = true → f.mod.toNat < 4 → f.guard = 0 → Ready s g [] →
      ∃ t, exec (.plop g f) s = .next t ∧
        (let a := gr.pred (regNo f.sa)
         let b := gr.pred (regNo f.sb)
         WentTo s t g (gr.setPred (regNo f.dst) (match f.mod.toNat with
           | 0 => a &&& b | 1 => a ||| b | 2 => a ^^^ b | _ => a &&& ~~~b)).advance)) ∧
    (isP f.dst = true → isU f.sa = true → f.mod = 0 → f.guard = 0 → Ready s g [f.sa, f.dst] →
      ∃ t, exec (.pmov g f) s = .next t ∧
        WentTo s t g (gr.setPred (regNo f.dst) ((s.core g.core).u g.slot (regNo f.sa))).advance) ∧
    (isU f.dst = true → isP f.sa = true → f.mod = 0 → f.guard = 0 → Ready s g [f.sa, f.dst] →
      ∃ t, exec (.pmov g f) s = .next t ∧ ScalarDone s t g f.dst (gr.pred (regNo f.sa))) ∧
    (isU f.dst = true → isP f.sa = true → f.mod = 0 → f.guard = 0 → Ready s g [f.dst] →
      ∃ t, exec (.vote g f) s = .next t ∧ ScalarDone s t g f.dst (gr.pred (regNo f.sa) &&& gr.mask))

/-- Scalar rows write their uniform register; moves and shuffles write theirs. (1) Scalar rows write one uniform register
once for the group. add, sub, mul, and, or, xor, shl, shr, sar, min, max, fadd, fmul and ffma of major SC and SCI: for
a group that may issue with legal fields, exec answers a next state in which uniform register DST holds the result of
the uniform sources, whatever MASK holds, and nothing else but the group's PC changes. (2) mov, shfl and rdlane. mov
writes DST of each active thread from any source, or a uniform DST from a uniform source when the effective mask is
not 0; shfl gives thread t the SA of thread (SB of t) mod 32, active or not; rdlane writes a uniform register from the
v register of thread SB[4:0]. With an effective mask of 0 a uniform DST keeps its value. -/
def Obligations.ScalarAndMoveResults : Prop :=
  -- Scalar rows write one uniform register once for the group
  (∀ (i : Instr) (g : GroupRef) (v : VArgs) (op : Word → Word → Word → Word) (s : State),
    scalarRow i = some (g, v, op) → v.illegal = false → Ready s g v.regs →
    ∃ t, exec i s = .next t ∧ ScalarDone s t g v.dst (op (val s g v.a 0) (val s g v.b 0) (val s g v.c 0))) ∧
  -- mov, shfl and rdlane
  (∀ (g : GroupRef) (f : RFields) (s : State),
    let k := s.core g.core
    let gr := grp s g
    ((regOf f.sa).isSome = true → isV f.dst = true → f.mod = 0 → Ready s g [f.sa, f.dst] →
      ∃ t, exec (.mov g f) s = .next t ∧ VecDone s t g f.dst f.guard fun n => val s g (.reg f.sa) n) ∧
    (isUZ f.sa = true → isU f.dst = true → f.mod = 0 → Ready s g [f.sa, f.dst] → emask s g f.guard ≠ 0 →
      ∃ t, exec (.mov g f) s = .next t ∧ ScalarDone s t g f.dst (val s g (.reg f.sa) 0)) ∧
    (isUZ f.sa = true → isU f.dst = true → f.mod = 0 → Ready s g [f.sa, f.dst] → emask s g f.guard = 0 →
      exec (.mov g f) s = .next (s.setCore g.core (k.setGroup g.slot gr.advance))) ∧
    ((vArgsR f true false 0).illegal = false → Ready s g (vArgsR f true false 0).regs →
      ∃ t, exec (.shfl g f) s = .next t ∧
        VecDone s t g f.dst f.guard fun n => val s g (.reg f.sa) ((val s g (.reg f.sb) n).toNat % 32)) ∧
    (isU f.dst = true → isV f.sa = true → isU f.sb = true → f.mod = 0 → Ready s g [f.sa, f.sb, f.dst] →
      ∃ t, exec (.rdlane g f) s = .next t ∧
        if emask s g f.guard = 0 then WentTo s t g gr.advance
        else ScalarDone s t g f.dst (k.v g.slot (regNo f.sa) ((k.u g.slot (regNo f.sb)).toNat % 32))))

namespace Sys2Proof.Claims
open Sys2Proof Sys2Proof.Machine

/-- The place of a local-memory access in core issue order: that of its first try when the range tracker held it (R164). -/
def accessOrder (s : State) (g : GroupRef) : Nat :=
  match (s.core g.core).heldOf g.slot with
  | some h => h.order
  | none => s.stamp

end Sys2Proof.Claims

open Sys2Proof Sys2Proof.Machine Sys2Proof.Claims

/-- Local stores write exactly their bytes and local loads read them. (1) An LDL store writes each active thread's bytes,
the highest lane winning, and no other byte. For a group that may issue, a legal LDL store whose spans lie aligned in
the window and which no earlier matrix operation or transfer holds completes. Where the range tracker had not held it:
each byte that an active thread names holds that thread's data unless a higher active thread names it too (N4: each
thread's nibble); every byte outside the named spans, device memory, host memory, registers and the other cores are as
before; the group is at its next instruction. (2) An LDL load writes the extended value of each active thread's bytes.
For a group that may issue, a legal LDL load whose spans lie aligned in the window over unmarked sectors and which
nothing holds completes. Where the range tracker had not held it: each register of DATA in each active thread holds
its part of the value at the thread's address, zero- or sign-extended; a load to ZERO writes nothing; every other
register-file word, local memory, device and host memory are as before. (3) An access that is held waits: the group is
pending with cause TICKET at the same PC, 3060h:04h counts the access once, and no register and no byte changes. -/
def Obligations.LocalMemoryAccesses : Prop :=
  -- An LDL store writes each active thread's bytes, the highest lane winning, and no other byte
  (∀ (g : GroupRef) (f : MFields) (s : State),
    let k := s.core g.core
    let gr := grp s g
    let act := lanesOf (emask s g f.guard)
    let span (n : Nat) : Span := ldlSpan k gr g.slot f n
    let data (n : Nat) : Nat := k.regs gr g.slot f.data n (widthRegs f.width)
    Ready s g (specRun f.data (widthRegs f.width) ++ [f.addr]) → ldlLegal f true = none →
    ldlFault k gr g.slot f = none → k.holders (accessOrder s g) true (act.map span) = [] →
    (∃ t, exec (.ldlStore g f) s = .next t) ∧
    (k.heldOf g.slot = none → ∃ t, exec (.ldlStore g f) s = .next t ∧
      (∀ a, (∀ n ∈ act, ¬((span n).1 ≤ a ∧ a < (span n).1 + (span n).2)) →
        memGet (t.core g.core).lmem a = memGet k.lmem a) ∧
      (f.width ≠ 0 → ∀ n ∈ act, ∀ i < (span n).2,
        (∀ n' ∈ act, n < n' → ¬((span n').1 ≤ (span n).1 + i ∧ (span n).1 + i < (span n').1 + (span n').2)) →
        memGet (t.core g.core).lmem ((span n).1 + i) = BitVec.ofNat 8 (data n / 256 ^ i)) ∧
      (f.width = 0 → ∀ n ∈ act,
        (memGet (t.core g.core).lmem (span n).1).toNat / 16 ^ (n % 2) % 16 = data n % 16) ∧
      t.mem = s.mem ∧ (t.core g.core).rf = k.rf ∧ (grp t g).pc = gr.pc + 1 ∧ (grp t g).mask = gr.mask ∧
      ∀ c, c ≠ g.core.val → t.core c = s.core c)) ∧
  -- An LDL load writes the extended value of each active thread's bytes
  (∀ (g : GroupRef) (f : MFields) (s : State),
    let k := s.core g.core
    let gr := grp s g
    let act := lanesOf (emask s g f.guard)
    let spans := act.map (ldlSpan k gr g.slot f)
    Ready s g (specRun f.data (widthRegs f.width) ++ [f.addr]) → ldlLegal f false = none →
    ldlFault k gr g.slot f = none → k.holders (accessOrder s g) false spans = [] → spans.any k.spanMarked = false →
    (∃ t, exec (.ldlLoad g f) s = .next t) ∧
    (k.heldOf g.slot = none → ∃ t, exec (.ldlLoad g f) s = .next t ∧ (grp t g).pc = gr.pc + 1 ∧ t.mem = s.mem ∧
      (t.core g.core).lmem = k.lmem ∧
      (isZ f.data = true → (t.core g.core).rf = k.rf) ∧
      (isZ f.data = false → ∀ n ∈ act, ∀ i < widthRegs f.width,
        (t.core g.core).v g.slot (regNo f.data + i) n = BitVec.ofNat 32 (ldlValue k gr g.slot f n / 2 ^ (32 * i))) ∧
      ∀ sl r n, r < 64 → n < 32 → ¬(sl = g.slot.val ∧ regNo f.data ≤ r ∧ r < regNo f.data + widthRegs f.width ∧ n ∈ act) →
        (t.core g.core).v sl r n = k.v sl r n)) ∧
  -- An access that the range tracker holds waits and is counted once
  (∀ (g : GroupRef) (f : MFields) (s : State) (i : Instr) (store : Bool),
    (i = .ldlStore g f ∧ store = true) ∨ (i = .ldlLoad g f ∧ store = false) →
    let k := s.core g.core
    let gr := grp s g
    let spans := (lanesOf (emask s g f.guard)).map (ldlSpan k gr g.slot f)
    Ready s g (specRun f.data (widthRegs f.width) ++ [f.addr]) → ldlLegal f store = none →
    ldlFault k gr g.slot f = none → k.holders (accessOrder s g) store spans ≠ [] →
    ∃ t, exec i s = .next t ∧ (grp t g).state = 2 ∧ (grp t g).cause = 2 ∧ (grp t g).pc = gr.pc ∧
      (t.core g.core).rf = k.rf ∧ (t.core g.core).lmem = k.lmem ∧ t.mem = s.mem ∧
      t.obj 0x3060 4 g.core = if (k.heldOf g.slot).isSome then s.obj 0x3060 4 g.core
        else satAdd 64 (s.obj 0x3060 4 g.core) 1)

namespace Sys2Proof.Claims
open Sys2Proof Sys2Proof.Machine

/-- The accesses of an instruction's active threads to device memory, translated in order, and the state after the
translations, whose table reads are reads of the module (R290). -/
def accesses (s : State) (g : GroupRef) (a : Attrs) (vas : List (Nat × Nat)) : List LaneAt × State :=
  locateAll s (s.core g.core) g.core a vas

/-- A translation that reads no table: the address lies in a window, or its cached translation is the tables' (R290, R378). -/
def Cached (s : State) (fn : Fn) (va : Nat) : Prop :=
  windowOf s fn va ≠ none ∨ (sget (fun _ => 0) s.host.tlb (tlbKey fn va) ≠ 0 ∧
    walkGives (walkNow s fn va) (sget (fun _ => 0) s.host.tlb (tlbKey fn va)) = true)

/-- The addresses of an LDG or atomic instruction's active threads (R196). -/
def ldgVas (s : State) (g : GroupRef) (guard : BitVec 5) (addr : BitVec 7) (offset : BitVec 25) : List (Nat × Nat) :=
  (lanesOf (emask s g guard)).map fun n => (n, devAddr (s.core g.core) (grp s g) g.slot addr offset n)

/-- The addresses of a transfer's active threads (R199). -/
def xferVas (s : State) (g : GroupRef) (f : MFields) : List (Nat × Nat) :=
  (lanesOf (emask s g f.guard)).map fun n => (n, xferVa (s.core g.core) (grp s g) g.slot f n)

end Sys2Proof.Claims

open Sys2Proof Sys2Proof.Machine Sys2Proof.Claims

/-- Device loads and stores issue one access of each active thread. (1) An LDG load issues and its group goes on without
waiting for the data. For a group that may issue, a legal aligned LDG load whose threads' addresses are all mapped or
in a window it may read, that is no read-only load, completes at issue with its group at its next instruction; where
some thread is active an outstanding load with the instruction's slot, destination, width, lanes and PC is recorded;
no register and no byte of device or host memory changes after the translations. A read-only load that may take miss
registers completes, and is recorded likewise where it does not hit; one that may not take them waits in the active
set and is counted in 3070h:04h. (2) An LDG store sends one line write for each line its active threads name. For a
group that may issue, a legal aligned LDG store whose threads' addresses are mapped writable or in a window completes:
the group is at its next instruction, no register changes after the translations, and when no thread is active no
write is recorded and no cache or message changes. (3) Translations that read no table, since every address lies in a
window or has a cached translation that is the tables', change nothing. -/
def Obligations.DeviceAccessesIssue : Prop :=
  -- An LDG load issues and its group goes on without waiting for the data
  (∀ (g : GroupRef) (f : MFields) (s : State),
    let k := s.core g.core
    let vas := ldgVas s g f.guard f.addr f.offset
    let r := locateAll (s.setCore g.core (k.leaveRoQueue g.slot)) k g.core f.attrs vas
    let as := r.1
    let lines := linesOf (accesses s g f.attrs vas).1
    Ready s g (specRun f.data (widthRegs f.width) ++ [f.addr, f.addr + 1]) → ldgLegal f false = none →
    (∀ p ∈ vas, p.2 % widthBytes f.width = 0) → placeFault false as = none →
    let recorded (t : State) : Prop := (grp t g).pc = (grp s g).pc + 1 ∧ t.mem = r.2.mem ∧
      (t.core g.core).rf = (r.2.core g.core).rf ∧
      (as ≠ [] → ∃ x ∈ (t.core g.core).loads, x.tag = s.stamp ∧ x.slot = g.slot ∧ x.dst = f.data ∧ x.width = f.width ∧
        x.pc = (grp s g).pc ∧ x.lanes = newLanes as fun _ => 0)
    (f.attrs.ro = false → ∃ t, exec (.ldgLoad g f) s = .next t ∧ recorded t) ∧
    (f.attrs.ro = true →
      (roMayIssue k g.slot lines = true → (∃ t, exec (.ldgLoad g f) s = .next t) ∧
        (allHit (r.2.core g.core) (linesOf as) = false → ∃ t, exec (.ldgLoad g f) s = .next t ∧ recorded t)) ∧
      (roMayIssue k g.slot lines = false → ∃ t, exec (.ldgLoad g f) s = .next t ∧ grp t g = grp s g ∧
        t.obj 0x3070 4 g.core = satAdd 64 (s.obj 0x3070 4 g.core) 1))) ∧
  -- An LDG store sends one line write for each line its active threads name
  (∀ (g : GroupRef) (f : MFields) (s : State),
    let vas := ldgVas s g f.guard f.addr f.offset
    let r := accesses s g f.attrs vas
    Ready s g (specRun f.data (widthRegs f.width) ++ [f.addr, f.addr + 1]) → ldgLegal f true = none →
    (∀ p ∈ vas, p.2 % widthBytes f.width = 0) → placeFault true r.1 = none →
    ∃ t, exec (.ldgStore g f) s = .next t ∧ (grp t g).pc = (grp s g).pc + 1 ∧
      (t.core g.core).rf = (r.2.core g.core).rf ∧
      (r.1 = [] → (t.core g.core).writes = (s.core g.core).writes ∧ t.coh = s.coh)) ∧
  -- Translations that read no table change nothing
  (∀ (src : Nat) (lat : Bool) (fn : Fn) (vas : List (Nat × Nat)) (s : State), (∀ p ∈ vas, Cached s fn p.2) →
    (locate src lat fn vas s).2 = s)

namespace Sys2Proof.Claims
open Sys2Proof Sys2Proof.Machine

/-- What an atomic writes at its home, as R201 gives it for the integer operations. -/
def atomValue (k : AtomKind) (old : Nat) (val cmp : BitVec 128) : Option Nat :=
  let w := val.toNat % 2 ^ 32
  let d := val.toNat % 2 ^ 64
  match k with
  | .addU32 => some ((old + w) % 2 ^ 32)
  | .addU64 => some ((old + d) % 2 ^ 64)
  | .minS32 => some (if (BitVec.ofNat 32 old).toInt ≤ (BitVec.ofNat 32 w).toInt then old else w)
  | .maxS32 => some (if (BitVec.ofNat 32 old).toInt ≤ (BitVec.ofNat 32 w).toInt then w else old)
  | .minU32 => some (if old ≤ w then old else w)
  | .maxU32 => some (if old ≤ w then w else old)
  | .and => some (old &&& w)
  | .or => some (old ||| w)
  | .xor => some (old ^^^ w)
  | .swapU32 => some w
  | .swapU64 => some d
  | .casU64 => some (if old = cmp.toNat % 2 ^ 64 then d else old)
  | .casU128 => some (if old = cmp.toNat then val.toNat else old)
  | .acq => some (if old = 0 then w else old)
  | .addF32 | .addBf16x2 => none

end Sys2Proof.Claims

open Sys2Proof Sys2Proof.Machine Sys2Proof.Claims

/-- Atomics issue, and a line takes a store's bytes or an atomic's result. (1) An atomic goes to the homes of its lines;
with RET its old values are awaited. add.u32, add.u64, add.f32, add.bf16x2, min.s32, max.s32, min.u32, max.u32, and,
or, xor, swap.u32, swap.u64, cas.u64 and cas.u128: for a group that may issue, a legal atomic whose addresses are
multiples of the operand size and mapped writable or in a window completes at issue with the group at its next
instruction and no register changed after the translations; with RET and an active thread an outstanding load waits
for the old values. (2) The line writes of a store mask exactly the bytes its threads name, the highest lane's data
winning. For threads that each write n bytes within a line, every line write covers exactly the bytes that a thread on
its line names, and a byte holds the data of the last thread in lane order that names it. (3) One atomic operation on
a line writes its operand bytes and no other, and returns the old value. For an integer atomic operation whose operand
lies aligned within an unmarked part of a line: the line after it holds the operation's result in the operand bytes
and is unchanged in every other byte, and the old value is what those bytes held. -/
def Obligations.AtomicsAndStoresAtTheLine : Prop :=
  -- An atomic goes to the homes of its lines; with RET its old values are awaited
  (∀ (i : Instr) (g : GroupRef) (f : AFields) (op : AtomKind) (s : State),
    atomicRow i = some (g, f, op) →
    let r := accesses s g f.attrs (ldgVas s g f.guard f.addr f.offset)
    let as := r.1
    Ready s g (specRun f.data (atomRegs op) ++ [f.addr, f.addr + 1]) → atomLegal f op = none →
    (∀ p ∈ ldgVas s g f.guard f.addr f.offset, p.2 % atomSize op = 0) → placeFault true as = none →
    ∃ t, exec i s = .next t ∧ (grp t g).pc = (grp s g).pc + 1 ∧ (t.core g.core).rf = (r.2.core g.core).rf ∧
      (as ≠ [] → f.ret = true → ∃ x ∈ (t.core g.core).loads,
        x.tag = s.stamp ∧ x.slot = g.slot ∧ x.dst = f.data ∧ x.width = atomWidth op ∧ x.ret = true)) ∧
  -- The line writes of a store mask exactly the bytes its threads name, the highest lane's data winning
  (∀ (as : List LaneAt) (n : Nat) (data : Nat → Nat) (mark : Nat → Nat → Bool),
    (∀ a ∈ as, a.va % 512 + n ≤ 512) → ∀ w ∈ lineWrites as n data mark, ∀ b < 512,
    let names (a : LaneAt) : Prop := a.key = w.line ∧ a.va % 512 ≤ b ∧ b < a.va % 512 + n
    (w.mask.getLsbD b = true ↔ ∃ a ∈ as, names a) ∧
    ∀ (i : Nat) (a : LaneAt), as[i]? = some a → names a → (∀ (j : Nat) (a' : LaneAt), i < j → as[j]? = some a' → ¬names a') →
      lineBytes w.data b 1 = data a.lane / 256 ^ (b - a.va % 512) % 256) ∧
  -- One atomic operation on a line writes its operand bytes and no other, and returns the old value
  (∀ (k : AtomKind) (marks : Marks) (o : LaneOp) (d : LineData) (v : Nat),
    o.off.val % atomSize k = 0 → touched (maskOf o.off (atomSize k)) &&& marks = 0 →
    atomValue k (lineBytes d o.off (atomSize k)) o.val o.cmp = some v →
    let r := runOps k marks [o] d
    lineBytes r.1 o.off (atomSize k) = v ∧
      (∀ b < 512, ¬(o.off.val ≤ b ∧ b < o.off.val + atomSize k) → lineBytes r.1 b 1 = lineBytes d b 1) ∧
      r.2.1 = [{ o with val := BitVec.ofNat 128 (lineBytes d o.off (atomSize k)) }] ∧ r.2.2 = false)

/-- acq by one active thread of a free lock word stores the owner value and goes on. For a group that may issue with
exactly one active thread, a legal acq with a non-zero owner and an aligned address whose translation is cached and
writable, on a line with no transaction and no message in flight, no unacknowledged write of the core and no copy
elsewhere, of a function without a dirty log, whose lock word in its unmarked home line (held dirty, not discarded) is
0: the acquire succeeds, the home line holds the owner value in the lock word, no path is pushed, and the group is at
its next instruction with its watchdog count 0. -/
def Obligations.AcquireTakesFreeLock : Prop :=
  ∀ (g : GroupRef) (f : AFields) (s : State) (n : Nat) (a : LaneAt) (l : Line),
    let k := s.core g.core
    let gr := grp s g
    let r := locateAll s k g.core f.attrs [(n, devAddr k gr g.slot f.addr 0 n)]
    Ready s g [f.data, f.addr, f.addr + 1] → acqLegal gr.pc f = none → lanesOf gr.mask = [n] → n < 32 →
    k.src gr g.slot f.data n ≠ 0 → devAddr k gr g.slot f.addr 0 n % 4 = 0 →
    r = ([a], s) → a.place = .line l true → l.host = false → a.va % 512 + 4 ≤ 512 →
    sget (fun _ => 0) s.host.dirty k.fn.val = 0 →
    (k.writes.all fun w => w.msg.line != l) = true →
    unsettled s l = false → (homeLine s l).st = 2 → (homeLine s l).busy = none → (homeLine s l).presence = 0 → (homeLine s l).marks = 0 →
    (homeLine s l).discarded = false → lineBytes (homeLine s l).data (a.va % 512) 4 = 0 →
    ∃ t, exec (.acq g f) s = .next t ∧ (grp t g).pc = gr.pc + 1 ∧ (grp t g).mask = gr.mask ∧ (grp t g).watchdog = 0 ∧
      (grp t g).depth = gr.depth ∧
      lineBytes (homeLine t l).data (a.va % 512) 4 = (k.src gr g.slot f.data n).toNat

/-- XFER in either direction never stalls its group and records or performs its transfer. For a group that may issue, a
legal XFER with aligned addresses, local spans in the window and device addresses that it may access completes
whatever uses its span: an XFER from device memory with an active thread records an outstanding transfer with its
direction, width and lanes, and no byte of device or host memory changes after the translations; an XFER to device
memory completes too. In either direction no register changes after the translations and the group is at its next
instruction. -/
def Obligations.TransfersIssue : Prop :=
  ∀ (g : GroupRef) (f : MFields) (s : State),
    let k := s.core g.core
    let gr := grp s g
    let act := lanesOf (emask s g f.guard)
    let r := accesses s g f.attrs (xferVas s g f)
    let as := r.1
    let k' := r.2.core g.core
    Ready s g [f.data, f.addr, f.addr + 1] → xferFault k gr g.slot f act = none →
    (xferLegal f false = none → placeFault false as = none →
      ∃ t, exec (.xferIn g f) s = .next t ∧ (grp t g).pc = gr.pc + 1 ∧ (t.core g.core).rf = k'.rf ∧ t.mem = r.2.mem ∧
        (act ≠ [] → ∃ x ∈ (t.core g.core).xfers, x.tag = s.stamp ∧ x.out = false ∧ x.slot = g.slot ∧
          x.width = widthBytes f.width ∧ x.lanes = newLanes as fun n => xferLa k' gr g.slot f n)) ∧
    (xferLegal f true = none → placeFault true as = none →
      ∃ t, exec (.xferOut g f) s = .next t ∧ (grp t g).pc = gr.pc + 1 ∧ (t.core g.core).rf = k'.rf)

/-- Matrix operations enter the queue of the engine, take tickets and read their descriptors. (1) A matrix operation
enters the queue with its ticket counted and its descriptors copied. mma, mmaz, tzero, tld and tst: for a group that
may issue, with fewer than 16 operations in the queue, a ticket below 255 and descriptors that pass the checks of
R153, the operation enters the queue as its last entry with copies of its descriptors; its ticket's count is 1 more
and the others are as before; the group is at its next instruction with its watchdog count 0, and only a tst advances
its conversion count. Tiles, local memory and registers do not change at issue. (2) twait, ttest and dwr. twait of a
ticket whose count is 0 goes on at once, and of any other moves the group to the pending set with wait cause TICKET;
ttest sets each active thread's bit of PD to whether the count is 0 and keeps the other bits; dwr replaces one 32-bit
word of a descriptor by SA + IMM32 and no other word or descriptor. -/
def Obligations.MatrixOperations : Prop :=
  -- A matrix operation enters the queue with its ticket counted and its descriptors copied
  (∀ (i : Instr) (g : GroupRef) (f : XFields) (kind : MatKind) (s : State),
    matrixRow i = some (g, f, kind) →
    let k := s.core g.core
    let win := match k.cmd with
      | some c => c.window
      | none => 0
    Ready s g [] → k.mq.length < 16 → k.ticket f.kt.toNat < 255 →
    matLegal kind f (k.desc f.da.toNat) (k.desc f.db.toNat) win = none →
    ∃ t, exec i s = .next t ∧
      (∃ o, (t.core g.core).mq.getLast? = some o ∧ o.kind = kind ∧ o.ticket = f.kt.toFin ∧ o.tile = f.tile.toFin ∧
        o.da = k.desc f.da.toNat ∧ o.db = k.desc f.db.toNat ∧ o.slot = g.slot ∧ o.pc = (grp s g).pc ∧ o.order = s.stamp) ∧
      (t.core g.core).mq.length = k.mq.length + 1 ∧
      (∀ n, (t.core g.core).ticket n = k.ticket n + if n = f.kt.toNat then 1 else 0) ∧
      (grp t g).pc = (grp s g).pc + 1 ∧ (grp t g).watchdog = 0 ∧
      (grp t g).conv = (grp s g).conv + (if kind = .tst then 1 else 0) ∧
      (t.core g.core).tiles = k.tiles ∧ (t.core g.core).lmem = k.lmem ∧ (t.core g.core).rf = k.rf ∧ t.mem = s.mem) ∧
  -- twait, ttest and dwr
  (∀ (g : GroupRef) (s : State),
    let k := s.core g.core
    let gr := grp s g
    (∀ f : XFields, f.guard = 0 → f.rsvd = 0 → f.pd = 0 → f.tile = 0 → f.da = 0 → f.db = 0 → Ready s g [] →
      (k.ticket f.kt.toNat = 0 → exec (.twait g f) s = .next (s.setCore g.core (k.setGroup g.slot gr.advance))) ∧
      (k.ticket f.kt.toNat ≠ 0 → ∃ t, exec (.twait g f) s = .next t ∧
        (grp t g).state = 2 ∧ (grp t g).cause = 2 ∧ (grp t g).pc = gr.pc)) ∧
    (∀ f : XFields, f.guard = 0 → f.rsvd = 0 → f.tile = 0 → f.da = 0 → f.db = 0 → Ready s g [] →
      ∃ t m, exec (.ttest g f) s = .next t ∧ WentTo s t g (gr.setPred f.pd.toNat m).advance ∧
        ∀ n < 32, m.getLsbD n = if gr.mask.getLsbD n then decide (k.ticket f.kt.toNat = 0)
          else (gr.pred f.pd.toNat).getLsbD n) ∧
    (∀ f : DFields, f.guard = 0 → f.dst.toNat < 64 → f.func.toNat < 8 → isUZ f.sa = true → Ready s g [f.sa] →
      ∃ t, exec (.dwr g f) s = .next t ∧ (grp t g).pc = gr.pc + 1 ∧ (t.core g.core).rf = k.rf ∧ t.mem = s.mem ∧
        (∀ n w, n < 64 → w < 8 → ((t.core g.core).desc n).toNat / 2 ^ (32 * w) % 2 ^ 32 =
          if n = f.dst.toNat ∧ w = f.func.toNat then (k.usrc gr g.slot f.sa + f.imm).toNat
          else (k.desc n).toNat / 2 ^ (32 * w) % 2 ^ 32)))

/-- A join pops the top entry, or goes on when the stack is empty. For a group that may issue: with an empty stack a join
only goes on; otherwise the depth is 1 less, the group is at the top entry's instruction, and MASK is the entry's mask
less the exited threads. Local memory, registers and EXITED do not change. -/
def Obligations.JoinPopsTheTopEntry : Prop :=
  ∀ (g : GroupRef) (f : BFields) (s : State) (c : CoreCmd),
    let k := s.core g.core
    let gr := grp s g
    let e := k.entry c g.slot (gr.depth - 1)
    Ready s g [] → k.cmd = some c → f.guard = 0 → f.rsvd = 0 →
    (gr.depth = 0 → exec (.join g f) s = .next (s.setCore g.core (k.setGroup g.slot gr.advance))) ∧
    (gr.depth ≠ 0 → ∃ t, exec (.join g f) s = .next t ∧ (grp t g).depth = gr.depth - 1 ∧
      (grp t g).pc = BitVec.ofNat 32 e.pc ∧ (grp t g).mask = e.mask &&& ~~~gr.exited ∧
      (grp t g).exited = gr.exited ∧ (t.core g.core).lmem = k.lmem ∧ (t.core g.core).rf = k.rf ∧ t.mem = s.mem)

/-- split pushes the rejoin and the path not taken; exit ends a group that has no path left. (1) A split branches, falls
through, or pushes a rejoin entry and a path entry. For a group that may issue, with both targets not below 0: with F
= 0 the group branches with MASK unchanged; with T = 0 it falls through; otherwise, with room on the path stack and
its area in local memory, it pushes the rejoin entry (rejoin target, MASK) and above it the path entry (fall-through,
F), and branches with MASK = T. (2) exit of the last active threads on an empty stack ends the group and empties its
slot. For a group that may issue, an exit when the path stack is empty completes: the slot is empty afterwards and the
group no longer counts as live. With an entry on the stack whose mask holds a thread that has not exited, the group
goes on at that entry instead, with the exited threads in EXITED. -/
def Obligations.SplitAndExit : Prop :=
  -- A split branches, falls through, or pushes a rejoin entry and a path entry
  (∀ (g : GroupRef) (f : BFields) (s : State) (c : CoreCmd),
    let k := s.core g.core
    let gr := grp s g
    let p := gr.pred f.ps.toNat
    let dest : Word := BitVec.ofInt 32 (gr.pc.toNat + f.ta.toInt)
    let rejoin : Word := BitVec.ofInt 32 (gr.pc.toNat + f.tb.toInt)
    Ready s g [] → k.cmd = some c → f.guard = 0 → f.rsvd = 0 →
    0 ≤ (gr.pc.toNat : Int) + f.ta.toInt → 0 ≤ (gr.pc.toNat : Int) + f.tb.toInt →
    (gr.mask &&& ~~~p = 0 → ∃ t, exec (.split g f) s = .next t ∧ WentTo s t g { gr with pc := dest }) ∧
    (gr.mask &&& ~~~p ≠ 0 → gr.mask &&& p = 0 → ∃ t, exec (.split g f) s = .next t ∧ WentTo s t g gr.advance) ∧
    (gr.mask &&& ~~~p ≠ 0 → gr.mask &&& p ≠ 0 → c.resident * 256 ≤ c.lmemBytes → gr.depth + 2 ≤ 32 →
      g.slot.val < c.resident → gr.pc.toNat + 1 < 2 ^ 31 → rejoin.toNat < 2 ^ 31 →
      ∃ t, exec (.split g f) s = .next t ∧ (grp t g).pc = dest ∧ (grp t g).mask = gr.mask &&& p ∧
        (grp t g).depth = gr.depth + 2 ∧
        (t.core g.core).entry c g.slot gr.depth = ⟨true, rejoin.toNat, gr.mask⟩ ∧
        (t.core g.core).entry c g.slot (gr.depth + 1) = ⟨false, gr.pc.toNat + 1, gr.mask &&& ~~~p⟩ ∧ t.mem = s.mem)) ∧
  -- exit of the last active threads on an empty stack ends the group and empties its slot
  (∀ (g : GroupRef) (f : BFields) (s : State) (c : CoreCmd),
    let k := s.core g.core
    let gr := grp s g
    let e := k.entry c g.slot (gr.depth - 1)
    Ready s g [] → k.cmd = some c → f.guard = 0 → f.rsvd = 0 →
    (gr.depth = 0 → ∃ t, exec (.exit g f) s = .next t ∧ grp t g = Group.empty) ∧
    (gr.depth ≠ 0 → e.mask &&& ~~~(gr.exited ||| gr.mask) ≠ 0 →
      ∃ t, exec (.exit g f) s = .next t ∧ (grp t g).exited = gr.exited ||| gr.mask ∧
        (grp t g).pc = BitVec.ofNat 32 e.pc ∧ (grp t g).mask = e.mask &&& ~~~(gr.exited ||| gr.mask) ∧
        (grp t g).depth = gr.depth - 1))

/-- bar makes its group wait at the named barrier until the count arrives. For a group that may issue, where no group
waits at the barrier it names and its MASK is NOT EXITED or strict mode is off: a legal bar of count 1, or of count 0
by the only live group, releases at once, with the group past the instruction and its wait resolved; with a greater
count, or count 0 and another live group, the group waits in the pending set with cause BARRIER at that barrier, with
the count in BAR_EXPECT, and a partial arrival counts once in 3050h:01h. -/
def Obligations.BarrierHoldsUntilItsCount : Prop :=
  ∀ (g : GroupRef) (f : RFields) (s : State) (c : CoreCmd),
    let k := s.core g.core
    let gr := grp s g
    let count := (k.usrc gr g.slot f.sa).toNat
    Ready s g [f.sa] → k.cmd = some c → f.guard = 0 → f.mod.toNat < 16 → isUZ f.sa = true →
    (gr.mask = ~~~gr.exited ∨ c.strict = false) → (k.atBarrier f.mod.toNat) = [] →
    (count = 1 ∨ (count = 0 ∧ ∀ p ∈ k.live, p.1 = g.slot.val) → ∃ t, exec (.bar g f) s = .next t ∧ (grp t g).pc = gr.pc + 1 ∧ (grp t g).atBarrier = false ∧
      (grp t g).resolved.isSome = true) ∧
    (1 < count ∨ (count = 0 ∧ ∃ p ∈ k.live, p.1 ≠ g.slot.val) → ∃ t, exec (.bar g f) s = .next t ∧ (grp t g).pc = gr.pc + 1 ∧ (grp t g).state = 2 ∧
      (grp t g).cause = 3 ∧ (grp t g).atBarrier = true ∧ (grp t g).barrier = f.mod.toNat ∧
      (grp t g).barExpect.toNat = min count 255 ∧
      t.obj 0x3050 1 g.core = if gr.mask = ~~~gr.exited then s.obj 0x3050 1 g.core else satAdd 64 (s.obj 0x3050 1 g.core) 1)

/-- Branches go where their condition says; control instructions have the effect of their row. (1) bra, bany, bnone and
ball. For a group that may issue, with reserved bits and GUARD zero and a target not below 0: bra goes to PC + TA;
bany, bnone and ball go there when the predicate AND MASK is non-zero, zero, or equal to MASK, and to the next
instruction otherwise. Nothing but the group's PC changes. (2) nop, jr, rdtime, rdtick and rdcyc. For a group that may
issue with legal fields: nop changes nothing but the PC; jr goes to the value of uniform register SA; rdtime and
rdtick write device time in ns and the tick number to an aligned pair of uniform registers; rdcyc writes the low 32
bits of the core's cycle count, which is observed (log entry 1) and never below the last one observed. No other
register and no byte of memory changes. -/
def Obligations.BranchesAndControlInstructions : Prop :=
  -- bra, bany, bnone and ball
  (∀ (g : GroupRef) (f : BFields) (s : State),
    let gr := grp s g
    let p := gr.pred f.ps.toNat &&& gr.mask
    let dest : Word := BitVec.ofInt 32 (gr.pc.toNat + f.ta.toInt)
    let goes (i : Instr) (taken : Bool) : Prop := ∃ t, exec i s = .next t ∧
      if taken then WentTo s t g { gr with pc := dest } else WentTo s t g gr.advance
    Ready s g [] → f.guard = 0 → f.rsvd = 0 → 0 ≤ (gr.pc.toNat : Int) + f.ta.toInt →
    goes (.bra g f) true ∧ goes (.bany g f) (p != 0) ∧ goes (.bnone g f) (p == 0) ∧ goes (.ball g f) (p == gr.mask)) ∧
  -- nop, jr, rdtime, rdtick and rdcyc
  (∀ (g : GroupRef) (f : RFields) (s : State),
    let k := s.core g.core
    let gr := grp s g
    let pair (t : State) (x : Nat) : Prop := (grp t g) = gr.advance ∧ t.mem = s.mem ∧
      (t.core g.core).u g.slot (regNo f.dst) = BitVec.ofNat 32 x ∧
      (t.core g.core).u g.slot (regNo f.dst + 1) = BitVec.ofNat 32 (x / 2 ^ 32) ∧
      ∀ sl r n, r < 64 → n < 32 → ¬(sl = g.slot.val ∧ r = 63 ∧ (n = regNo f.dst ∨ n = regNo f.dst + 1)) →
        (t.core g.core).v sl r n = k.v sl r n
    f.guard = 0 → f.mod = 0 →
    (Ready s g [] → exec (.ctlNop g f) s = .next (s.setCore g.core (k.setGroup g.slot gr.advance))) ∧
    (isU f.sa = true → Ready s g [f.sa] → exec (.jr g f) s =
      .next (s.setCore g.core (k.setGroup g.slot { gr with pc := k.u g.slot (regNo f.sa) }))) ∧
    (isU f.dst = true → regNo f.dst % 2 = 0 → Ready s g [f.dst, f.dst + 1] →
      (∃ t, exec (.rdtime g f) s = .next t ∧ pair t s.now) ∧ ∃ t, exec (.rdtick g f) s = .next t ∧ pair t s.tick) ∧
    (∀ cycles, isU f.dst = true → k.cycles ≤ cycles → Ready s g [f.dst] →
      ∃ t, exec (.rdcyc g f cycles) s = .next t ∧ grp t g = gr.advance ∧ t.mem = s.mem ∧ (t.core g.core).cycles = cycles ∧
        (t.core g.core).u g.slot (regNo f.dst) = BitVec.ofNat 32 cycles ∧
        ∀ sl r n, r < 64 → n < 32 → ¬(sl = g.slot.val ∧ r = 63 ∧ n = regNo f.dst) →
          (t.core g.core).v sl r n = k.v sl r n))

/-- Inbox instructions read, flush and send; deposits and timeouts have their effect. (1) inrd takes the next wide word,
or its group waits. For a group that may issue, with DST u0 to u23: when a wide word is readable and no group waits
for one, inrd writes its words, filled with zeros, to eight uniform registers and its tag to the ninth, the words
leave the FIFO, and the watchdog count is 0; when none is readable the group waits in the pending set with cause INBOX
and the inbox is as before. (2) instat, inflush, snd and sndv. For a group that may issue with legal fields: instat
writes the count of packets with an unread end-marked or abort word; inflush empties the FIFO at a packet boundary and
otherwise waits as a pending flush; snd and sndv complete whether or not the words are accepted, set DST to all ones
or all zeros, and sndv writes the number of words accepted. (3) A word that reaches an inbox is stored once and in
order, or refused and counted. Every arrival from a sender that is what its kind says, at a core that is not fenced,
completes. A word of the command's function that reaches an unlocked, not full inbox of a core in service on which no
group waits is appended to the FIFO with its sender; a word without its end mark locks the inbox to that sender; a
word from another sender while it is locked, and a word of another function, is refused and counted in 3050h:04h. (4)
A packet timeout of a locked inbox completes, and where the packet was not dropped by a flush it appends one abort
word and unlocks; a flush, pending or of the management processor, at a packet boundary completes and empties the
FIFO. -/
def Obligations.InboxesSendAndReceive : Prop :=
  -- inrd takes the next wide word, or its group waits
  (∀ (g : GroupRef) (f : RFields) (s : State),
    let k := s.core g.core
    let gr := grp s g
    Ready s g (specRun f.dst 9) → f.guard = 0 → f.mod = 0 → isU f.dst = true → regNo f.dst ≤ 23 →
    (∀ ws rest, k.inbox.wide = some (ws, rest) → k.firstReader = none →
      ∃ t, exec (.inrd g f) s = .next t ∧ (grp t g).pc = gr.pc + 1 ∧ (grp t g).watchdog = 0 ∧
        (t.core g.core).inbox.fifo = rest ∧
        (∀ i < 8, (t.core g.core).u g.slot (regNo f.dst + i) = match ws[i]? with
          | some w => if w.abort then 0 else w.word
          | none => 0) ∧
        (t.core g.core).u g.slot (regNo f.dst + 8) = wideTag ws) ∧
    (k.inbox.wide = none → ∃ t, exec (.inrd g f) s = .next t ∧ (grp t g).state = 2 ∧ (grp t g).cause = 4 ∧
      (grp t g).pc = gr.pc ∧ (t.core g.core).inbox = k.inbox)) ∧
  -- instat, inflush, snd and sndv
  (∀ (g : GroupRef) (f : RFields) (s : State),
    let k := s.core g.core
    let gr := grp s g
    let all (b : Bool) : Word := if b then BitVec.allOnes 32 else 0
    f.guard = 0 →
    (f.mod = 0 → isU f.dst = true → Ready s g [f.dst] → ∃ t, exec (.instat g f) s = .next t ∧
      ScalarDone s t g f.dst (BitVec.ofNat 32 (k.inbox.fifo.filter fun w => w.last || w.abort).length)) ∧
    (f.mod = 0 → Ready s g [] → ∃ t, exec (.inflush g f) s = .next t ∧ (grp t g).pc = gr.pc + 1 ∧
      if k.inbox.partRead then (t.core g.core).inbox = { k.inbox with flush := true }
      else (t.core g.core).inbox.fifo = [] ∧ (t.core g.core).inbox.flush = false) ∧
    (f.mod.toNat < 2 → isP f.dst = true → isU f.sa = true → isU f.sb = true → Ready s g [f.sa, f.sb] →
      ∃ t ok, exec (.snd g f) s = .next t ∧ (grp t g).pred (regNo f.dst) = all ok) ∧
    (f.mod.toNat < 32 → isP f.dst = true → isU f.sa = true → regNo f.sa + f.mod.toNat % 16 + 1 ≤ 32 → isU f.sb = true →
      isU f.sc = true → Ready s g (specRun f.sa (f.mod.toNat % 16 + 1) ++ [f.sb, f.sc]) →
      ∃ t n, exec (.sndv g f) s = .next t ∧ n ≤ f.mod.toNat % 16 + 1 ∧
        (t.core g.core).u g.slot (regNo f.sc) = BitVec.ofNat 32 n ∧
        (grp t g).pred (regNo f.dst) = all (decide (n = f.mod.toNat % 16 + 1)))) ∧
  -- A word that reaches an inbox is stored once and in order, or refused and counted
  (∀ (c : CoreNo) (kind : Fin 3) (src : BitVec 8) (chan : Fin 8) (fn : Fn) (w : Word) (last : Bool) (s : State),
    let k := s.core c
    let b := k.inbox
    let i := Instr.inboxWordArrival c kind src chan fn w last
    senderOk s kind src chan fn = true → (s.core c).hw.fenced = false →
    (∃ t, exec i s = .next t) ∧
    (inService s c = true → inboxOwner k kind fn = true → b.lock = none → b.discard = false → b.arriving ≠ 4096 →
      b.fifo.length < 4096 → k.firstReader = none →
      ∃ t, exec i s = .next t ∧ (t.core c).inbox.fifo = b.fifo ++ [⟨w, last, false, kind, src⟩] ∧
        (t.core c).inbox.lock = if last then none else some ⟨kind, src, chan⟩) ∧
    (∀ o, inService s c = true → inboxOwner k kind fn = true → b.lock = some o → o ≠ ⟨kind, src, chan⟩ →
      k.firstReader = none →
      ∃ t, exec i s = .next t ∧ (t.core c).inbox = b ∧ t.obj 0x3050 4 c = satAdd 64 (s.obj 0x3050 4 c) 1) ∧
    (inService s c = true → inboxOwner k kind fn = false → k.firstReader = none →
      ∃ t, exec i s = .next t ∧ (t.core c).inbox = b ∧ t.obj 0x3050 4 c = satAdd 64 (s.obj 0x3050 4 c) 1)) ∧
  -- A packet times out; a flush reaches a packet boundary
  (∀ (c : CoreNo) (s : State),
    let k := s.core c
    let b := k.inbox
    (∀ o, b.lock = some o → (∃ t, exec (.inboxPacketTimeout c) s = .next t) ∧
      (b.discard = false → k.firstReader = none →
        ∃ t, exec (.inboxPacketTimeout c) s = .next t ∧ (t.core c).inbox.lock = none ∧
          (t.core c).inbox.fifo = b.fifo ++ [⟨0, false, true, o.kind, o.src⟩])) ∧
    (∀ management, b.flush = true ∨ management = true → b.partRead = false →
      (∃ t, exec (.flushEffect c management) s = .next t) ∧
      (k.firstReader = none →
        ∃ t, exec (.flushEffect c management) s = .next t ∧ (t.core c).inbox.fifo = [] ∧ (t.core c).inbox.flush = false)))

/-- Returned data reaches its registers; matrix operations and transfers finish. (1) LOAD_DATA_RETURN and RO_MISS_FILL
deliver what a load waits for. LOAD_DATA_RETURN completes for a group that has a load whose lines have all arrived.
Where the first such load met no poison it is no longer outstanding, and for a live group each register of its
destination holds its part of the value that the line gives the thread; where it met poison, the live group's slot is
empty. A read-only miss register whose line is at hand takes the next sectors, the critical one first and then
ascending, and RO_MISS_FILL completes; with the last sectors no register of that number is in use. (2) OCCUPANCY_END,
MATRIX_OP_RETIRE and XFER_SPAN_WRITTEN. When a pipe runs an operation, the end of its occupancy completes. When a pipe
drains an operation, its retirement completes; where the operation met no poison, its entry has left the queue,
3060h:01h counts it, and the count of its ticket is 1 less. When a transfer from device memory has all its lines and
nothing earlier uses its span, XFER_SPAN_WRITTEN completes and the transfer is no longer outstanding. -/
def Obligations.LoadsPipesAndTransfersFinish : Prop :=
  -- LOAD_DATA_RETURN and RO_MISS_FILL deliver what a load waits for
  (∀ (g : GroupRef) (s : State),
    let k := s.core g.core
    (∀ x, (k.loads.find? fun x => x.slot == g.slot && x.arrived) = some x →
      (∃ t, exec (.loadDataReturn g) s = .next t) ∧
      (x.ret = false → x.poisoned ≠ none → k.cmd.isSome = true → (grp s g).state = 1 ∨ (grp s g).state = 2 →
        ∃ t, exec (.loadDataReturn g) s = .next t ∧ grp t g = Group.empty) ∧
      (x.ret = true ∨ x.poisoned = none → ∃ t, exec (.loadDataReturn g) s = .next t ∧
        (∀ y ∈ (t.core g.core).loads, y.tag ≠ x.tag) ∧
        ((grp s g).state = 1 ∨ (grp s g).state = 2 → x.ret = false → isV x.dst = true →
          groupOk x.dst (widthRegs x.width) = true → (x.lanes.map LaneAddr.lane).Nodup →
          ∀ a ∈ x.lanes, ∀ y, (x.lines.find? fun y => y.line == a.line) = some y → ∀ i < widthRegs x.width,
            (t.core g.core).v g.slot (regNo x.dst + i) a.lane =
              BitVec.ofNat 32 (loadValue x.width x.sext (lineBytes y.data a.off x.bytes) / 2 ^ (32 * i))))) ∧
    (∀ (reg : Fin 32) (m : MissReg) (sectors : Marks), (k.miss.find? fun m => m.no == reg) = some m → m.avail = true →
      sectors ≠ 0 → sectors &&& m.got = 0 → (∃ n ≤ 4, m.got ||| sectors = sectorsUpTo m.crit n) →
      (∃ t, exec (.roMissFill g.core reg sectors) s = .next t) ∧
      (m.got ||| sectors = 15 → k.loads = [] → k.writes = [] → k.xfers = [] →
        ∃ t, exec (.roMissFill g.core reg sectors) s = .next t ∧ ∀ x ∈ (t.core g.core).miss, x.no ≠ reg))) ∧
  -- OCCUPANCY_END, MATRIX_OP_RETIRE and XFER_SPAN_WRITTEN
  (∀ (c : CoreNo) (array : Bool) (s : State),
    let k := s.core c
    (∀ o, (k.mq.find? fun o => o.array == array && o.phase == .running) = some o →
      ∃ t, exec (.occupancyEnd c array) s = .next t) ∧
    (∀ o, (k.mq.find? fun o => o.array == array && o.phase == .draining) = some o →
      (∃ t, exec (.matrixOpRetire c array) s = .next t) ∧
      (o.bad = false → k.xfers = [] → (∃ p, p ∈ k.live) → ∃ t, exec (.matrixOpRetire c array) s = .next t ∧
        t.obj 0x3060 1 c = satAdd 64 (s.obj 0x3060 1 c) 1 ∧ (∀ e ∈ (t.core c).mq, e.order ≠ o.order) ∧
        (t.core c).ticket o.ticket = k.ticket o.ticket - 1)) ∧
    (∀ (i : Nat) (x : XferRec), (k.xfers.filter fun x => !x.out)[i]? = some x → x.lines.all LineWait.got = true →
      k.inHeld x = false →
      ∃ t, exec (.xferSpanWritten c i) s = .next t ∧ ∀ y ∈ (t.core c).xfers, y.tag ≠ x.tag))

/-- A faulting group stops precisely, and a group waits for the loads it names. (1) A group fault stops the group and
leaves one record of its cause. For a live group of a command, GROUP_FAULT with a cause of R210 and WATCHDOG complete:
the group's slot is empty, and a fault record names the cause, the core, the slot and the PC of the faulting
instruction. (2) An integer or FP row with an illegal operand faults with ILLEGAL and writes no register of its group.
For a group in the active set, an integer or logic row whose operand kinds or MOD bits the row does not allow, and an
FP row with a reserved rounding code, stop the group: exec answers a next state with the slot empty and a record of
cause ILLEGAL or FORMAT that names the instruction's PC, whatever the effective mask is. (3) An instruction that names
a register a load will write moves its group to the pending set. For a group that may issue, a legal integer or logic
row with a source or destination that an outstanding load of its group still writes does not execute: the group is
pending with wait cause LOAD at the same PC, and no register changes. -/
def Obligations.GroupsFaultOrWait : Prop :=
  -- A group fault stops the group and leaves one record of its cause
  (∀ (g : GroupRef) (cause : BitVec 8) (addr : BitVec 64) (s : State),
    let gr := grp s g
    let names (t : State) (code : Nat) : Prop := ∃ r ∈ t.mgmt.logPend, r.kind = 1 ∧ r.cause = code ∧
      r.core = g.core.val ∧ r.slot = g.slot.val ∧ r.pc = gr.pc.toNat
    (s.core g.core).cmd.isSome = true → (gr.state = 1 ∨ gr.state = 2) →
    (1 ≤ cause.toNat → cause.toNat ≤ 11 →
      ∃ t, exec (.groupFault g cause addr) s = .next t ∧ grp t g = Group.empty ∧ names t cause.toNat) ∧
    ∃ t, exec (.watchdog g) s = .next t ∧ grp t g = Group.empty ∧ names t 11) ∧
  -- An integer or FP row with an illegal operand faults with ILLEGAL and writes no register of its group
  (∀ (i : Instr) (g : GroupRef) (v : VArgs) (s : State),
    let names (t : State) (code : Nat) : Prop := grp t g = Group.empty ∧ t.mem = s.mem ∧
      ∃ r ∈ t.mgmt.logPend, r.kind = 1 ∧ r.cause = code ∧ r.core = g.core.val ∧ r.slot = g.slot.val ∧
        r.pc = (grp s g).pc.toNat
    canIssue s g = true →
    (∀ op, integerRow i = some (g, v, op) → v.illegal = true → ∃ t, exec i s = .next t ∧ names t 1) ∧
    (∀ bad op, floatRow i = some (g, v, bad, op) → v.illegal = true → ∃ t, exec i s = .next t ∧ names t 1) ∧
    (∀ op, floatRow i = some (g, v, true, op) → v.illegal = false → ∃ t, exec i s = .next t ∧ names t 2)) ∧
  -- An instruction that names a register a load will write moves its group to the pending set
  (∀ (i : Instr) (g : GroupRef) (v : VArgs) (op : Word → Word → Word → Word) (s : State) (tag : Nat),
    integerRow i = some (g, v, op) → v.illegal = false → canIssue s g = true →
    (s.core g.core).waitTag g.slot v.regs = some tag →
    ∃ t, exec i s = .next t ∧ (grp t g).state = 2 ∧ (grp t g).cause = 1 ∧ (grp t g).pc = (grp s g).pc ∧
      (t.core g.core).rf = (s.core g.core).rf ∧ t.mem = s.mem)

namespace Sys2Proof.Claims
open Sys2Proof Sys2Proof.Machine

/-! ## Words of the statements about steps and queues -/

/-- The phase of a command of a step. -/
def cmdPhase (s : State) (c : CmdRef) : Option CmdPhase :=
  (findStep s c.step).bind fun t => (t.command c.cmd).map Cmd.phase

/-- Whether a status stands in a step that the store holds. -/
def hasStatus (s : State) (key : Nat) (st : StepStatus) : Prop := ∃ t, findStep s key = some t ∧ st ∈ t.statuses

/-- A function's access to an address may be made now (R290, R378): no window holds the address, its cached translation is the
one that the tables give, with write permission for a write, and no transaction is under way on its line. -/
def TouchableNow (s : State) (fn : Fn) (va : Nat) (write : Bool) : Prop :=
  let e := sget (fun _ => 0) s.host.tlb (tlbKey fn.val va)
  windowOf s fn.val va = none ∧ e ≠ 0 ∧ walkGives (walkNow s fn.val va) e = true ∧ (write = true → bit e 1 = true) ∧
    settled s ((frameOf e).line va) = true

/-- The function page is there and acts (R394, R416). -/
def PageActs (s : State) (f : Fn) : Prop := s.host.linkUp = true ∧ fnPresent s f = true ∧ fnActs s f = true

/-- An event of an SQC register (R539): the bit is set and SEQ has advanced by 1 modulo 65,536. -/
def Noted (s t : State) (f : Fn) (off bitNo : Nat) : Prop :=
  bit (t.reg f.val off) bitNo = true ∧ bits (t.reg f.val off) 0 16 = (bits (s.reg f.val off) 0 16 + 1) % 65536

end Sys2Proof.Claims

open Sys2Proof Sys2Proof.Machine Sys2Proof.Claims

/-- The planning cutoff makes the plan of the next tick and the boundary loads it. (1) A tick boundary advances the tick
number by 1 and loads the plan made for it. In a released module whose next boundary is not past and in which every
slice has ended, TICK_BOUNDARY completes: the tick number is 1 more, the tick's start time is the device time then,
which without a pending time step is the boundary, and no plan is left over. Where no step waits to be planned again
after a fault, the plan made for this tick is loaded and no other; a running step that does wait stands in what is
loaded. (2) The planning cut-off checks the steps that arrived, sets the plan of the next tick, reads its commands
again and places them. In a released module that has not planned the next tick and whose boundary has not come: where
those checks and reads find no busy line and the placement is one of the plan's commands, PLANNING_CUTOFF completes
with exactly the state that they leave and that placement; the plan set before the reads is the one that the steps
then plannable give, for the next tick. Where every step has ended, it completes with an empty plan. -/
def Obligations.TicksAndPlans : Prop :=
  -- A tick boundary advances the tick number by 1 and loads the plan made for it
  (∀ (meas : List CoreMeas) (s : State), s.released = true → s.now ≤ nextBoundary s → slicesEnded s = true →
    ∃ t, exec (.tickBoundary meas) s = .next t ∧ t.tick = s.tick + 1 ∧ t.tickStart = t.now ∧
      (s.sage.timeStep = 0 → t.now = nextBoundary s) ∧
      ((∀ x ∈ s.sage.steps, x.replan = false) →
        t.sage.loaded = (if s.sage.planTick = s.tick + 1 then s.sage.plan else [])) ∧
      (∀ x ∈ s.sage.steps, x.replan = true → x.phase = .running → ∃ i ∈ t.sage.loaded, i.step = x.key) ∧
      t.sage.plan = [] ∧ t.mem = s.mem) ∧
  -- The planning cut-off checks the steps that arrived and sets and places the plan of the next tick
  (∀ (linksW memW : Nat) (s : State),
    s.released = true → s.sage.planTick ≠ s.tick + 1 → s.now < nextBoundary s →
    let s1 := latchStrict (s.at (max s.now (cutoff s)))
    let keys := arrived s1 (cutoff s1)
    (∀ (a b : State) (place : List Placement), admitAll linksW memW keys (keys.length + 1) [] s1 = some a →
      rereadPlan ((plannable s1).map Step.key) (setPlan a linksW memW) = some b → placesOk b place = true →
      exec (.planningCutoff linksW memW place) s = .next { b with sage := { b.sage with placed := place } } ∧
      (setPlan a linksW memW).sage.plan = (buildPlan a (plannable a) linksW memW).items ∧
      (setPlan a linksW memW).sage.planTick = a.tick + 1) ∧
    ((∀ x ∈ s.sage.steps, x.phase = .ended) →
      ∃ t, exec (.planningCutoff linksW memW []) s = .next t ∧ t.sage.plan = [] ∧ t.sage.planTick = s.tick + 1 ∧
        t.now = max s.now (cutoff s)))

/-- Slices charge their budgets, spill and resume; a slow core is flagged. (1) The end of a slice. At a moment at which
the slice of a command that holds cores may end, SLICE_END charges its core-time to the step. Without a spill its
cores stay as they are but stopped between instructions. With a spill, of a step of class 1 or 2 whose cores are
still: where the free pages of the function's spill area are too few, the step is FAULT_UNRECOVERED; where the area
cannot be written, the command stops as one whose spill does not fit; where its cores are saved, the step's preemption
count is 1 more, at most FFFFh; a spill that meets a busy line is no event of now. (2) The start of a slice. A command
of a step in the plan whose last slice has ended, at a moment before the guard: where nothing of it is saved and it
holds cores, they go on; where its cores are saved and each of as many distinct free cores may take one of them, and
their shares of the spill area can be read, SLICE_START completes, and the only saved core of a command has its
groups, registers and local memory on its new core. (3) OVERRUN of a running class-0 step whose core-time reaches what
it declares gives it the status OVERRUN. (4) A core slow for 64 ticks is flagged once. SLOW_CORE_FLAG of a core in
service whose slow-tick count is 64 and which is not yet flagged sets its flag in 4030h:03h and nothing else. -/
def Obligations.SlicesAndSlowCores : Prop :=
  -- SLICE_END
  (∀ (c : CmdRef) (ns used : Nat) (s : State) (x : Step) (y : Cmd),
    findStep s c.step = some x → x.command c.cmd = some y → s.now ≤ ns → cmdCores s c ≠ [] →
    (sliceMayEnd s y ns used false = true →
      ∃ t z, exec (.sliceEnd c ns used false) s = .next t ∧ findStep t c.step = some z ∧ z.usedUs = x.usedUs + used ∧
        t.now = ns ∧ t.mem = s.mem ∧
        ∀ k : CoreNo, (t.core k.val).groups = (s.core k.val).groups ∧ (t.core k.val).rf = (s.core k.val).rf ∧
          (t.core k.val).lmem = (s.core k.val).lmem) ∧
    (sliceMayEnd s y ns used true = true → x.cls ≠ 0 → ((cmdCores s c).all fun k => (s.core k).still) = true →
      let b := setSlice (pauseCmd (useTime (s.at ns) x.key used) c true) c none
      ((spillFree b x.fn).length < cmdPages b c →
        ∃ t, exec (.sliceEnd c ns used true) s = .next t ∧ hasStatus t c.step .faultUnrecovered) ∧
      (cmdPages b c ≤ (spillFree b x.fn).length → match spillAll c x.fn (cmdCores s c) b with
        | (.ok (), a) => exec (.sliceEnd c ns used true) s =
            .next (updStep a x.key fun z => { z with preempts := min 0xFFFF (z.preempts + 1) })
        | (.error .busy, _) => exec (.sliceEnd c ns used true) s = .fault .cannotOccur
        | (.error _, a) => exec (.sliceEnd c ns used true) s = .next (spillFails a c)))) ∧
  -- SLICE_START
  (∀ (c : CmdRef) (ns : Nat) (s : State) (x : Step) (y : Cmd) (work : SliceWork),
    findStep s c.step = some x → x.command c.cmd = some y → y.typ = 1 → y.phase = .running → inPlan s x = true →
    sliceMayStart s y ns = true →
    let saved := s.sage.spills.filter fun r => decide (r.step = c.step) && decide (r.cmd = c.cmd)
    (saved = [] → cmdCores s c ≠ [] →
      ∃ t, exec (.sliceStart c ns [] work) s = .next t ∧ t.now = ns ∧ t.mem = s.mem ∧
        ∀ (k : CoreNo) (z : CoreCmd), (s.core k.val).cmd = some z → z.step = c.step → z.idx = c.cmd →
          (t.core k.val).cmd = some { z with paused := false }) ∧
    (∀ cores : List CoreNo, saved ≠ [] → cores.length = saved.length → cores.Nodup →
      ((saved.zip cores).all fun p => homeFor s cores p) = true → (coresOf s c.step).length + cores.length ≤ x.coresMax →
      (resumeAll (saved.zip cores) (s.at ns)).1 = .ok () →
      ∃ t, exec (.sliceStart c ns cores work) s = .next t ∧
        ∀ (r : SpillRec) (k : CoreNo), saved = [r] → cores = [k] →
          (t.core k.val).groups = r.save.groups ∧ (t.core k.val).rf = r.save.rf ∧ (t.core k.val).lmem = r.save.lmem)) ∧
  -- OVERRUN
  (∀ (step ns used : Nat) (s : State) (x : Step), findStep s step = some x → s.now ≤ ns → x.phase = .running →
    x.cls = 0 → x.cost ≤ x.usedUs + used → ∃ t, exec (.overrun step ns used) s = .next t ∧ hasStatus t step .overrun) ∧
  -- A core slow for 64 ticks is flagged once
  (∀ (c : CoreNo) (s : State), inService s c = true → s.obj 0x4030 2 c = 64 → s.obj 0x4030 3 c = 0 →
    exec (.slowCoreFlag c) s = .next (s.setObj 0x4030 3 c 1))

/-- Doorbells move the tails and heads of the queues, or are counted or noted. (1) A write to SQ_TAIL makes entries
visible, or is counted or noted. On a function page that acts, a doorbell at a time not before the present completes:
to a disabled queue it is only counted in 7050h:08h; a tail beyond the ring is only noted in the queue's status
register (bit 17, SEQ + 1); otherwise TAIL is the value and every entry from HEAD up to it is visible. On a page that
does not act nothing but the time changes. (2) A write to CQ_HEAD or EVQ_HEAD moves the head, or is counted or noted.
On a function page that acts: to a disabled queue the write is only counted in 7050h:08h; a value beyond the ring is
only noted in the queue's status register; otherwise the head is the value and the registers are as before. -/
def Obligations.Doorbells : Prop :=
  -- A write to SQ_TAIL makes entries visible, or is counted or noted
  (∀ (f : Fn) (q : Fin 64) (v : Word) (ns : Nat) (s : State),
    let off := sqOff q.val
    let ctl := s.reg f.val (off + 8)
    let size := 2 ^ ctlLog2 ctl
    let head := bits (s.reg f.val (off + 12)) 0 16
    let tail := v.toNat % 65536
    s.now ≤ ns → s.host.linkUp = true → fnPresent s f = true →
    (fnActs s f = false → exec (.sqTail f q v ns) s = .next (s.at ns)) ∧
    (fnActs s f = true →
      (ctlEnable ctl = false → exec (.sqTail f q v ns) s = .next ((s.at ns).bump 0x7050 8 f.val 1)) ∧
      (ctlEnable ctl = true → size ≤ tail →
        ∃ t, exec (.sqTail f q v ns) s = .next t ∧ Noted s t f (off + 16) 17 ∧ t.sage = s.sage ∧ t.dict = s.dict) ∧
      (ctlEnable ctl = true → tail < size →
        ∃ t, exec (.sqTail f q v ns) s = .next t ∧ bits (t.reg f.val (off + 12)) 16 16 = tail ∧
          bits (t.reg f.val (off + 12)) 0 16 = head ∧ t.now = ns ∧
          ∀ k < (tail + size - head % size) % size,
            ∃ d ∈ t.sage.doorbells, ofQueue f q d = true ∧ d.idx = (head + k) % size))) ∧
  -- A write to CQ_HEAD or EVQ_HEAD moves the head, or is counted or noted
  (∀ (f : Fn) (v : Word) (s : State) (q : Nat) (i : Instr),
    (i = .evqHead f v ∧ q = 64) ∨ (∃ n : Fin 64, i = .cqHead f n v ∧ q = n.val) → PageActs s f →
    let ctl := s.reg f.val (cqOff q + 8)
    let n := v.toNat % 65536
    (ctlEnable ctl = false → exec i s = .next (s.bump 0x7050 8 f.val 1)) ∧
    (ctlEnable ctl = true → 2 ^ ctlLog2 ctl ≤ n →
      ∃ t, exec i s = .next t ∧ Noted s t f (cqStatus q) 17 ∧ t.host = s.host ∧ t.dict = s.dict) ∧
    (ctlEnable ctl = true → n < 2 ^ ctlLog2 ctl →
      ∃ t, exec i s = .next t ∧ cqHead t f.val q = n ∧ t.regs = s.regs ∧ t.dict = s.dict))

/-- Queue controls enable and reset queues; a descriptor read takes the head entry. (1) SQ_CTL, CQ_CTL and EVQ_CTL enable
a ring from its start, or are ignored and noted. On a function page that acts, a control write completes. One that
sets ENABLE with a size below 4, or above 16 (12 for the event queue), a vector the function lacks, or without a
context leaves the control register and is noted in bit 18. Any other is stored with its reserved bits zero, and
enabling a disabled ring starts it at entry 0, not stopped, a completion ring with PHASE 1. (2) DESCRIPTOR_READ takes
the entry at HEAD into the step store, or stops the queue. For a queue that the module may read, with its entry at
HEAD visible: where the 128 B read succeeds, HEAD moves on by 1 modulo the ring, the entry is no longer visible, and
the step store holds one more step with the bytes read, marked where they met poison; where the address has no
mapping, the queue stops and its status register is noted in bit 16. -/
def Obligations.QueuesAndDescriptors : Prop :=
  -- SQ_CTL, CQ_CTL and EVQ_CTL enable a ring from its start, or are ignored and noted
  (∀ (f : Fn) (v : Word) (be : BitVec 4) (s : State), PageActs s f →
    (∀ q : Fin 64,
      let off := sqOff q.val
      let old := s.reg f.val (off + 8)
      let new := mergeBe old v be
      let bad := bit new 8 = true ∧ (new % 32 < 4 ∨ 16 < new % 32 ∨ ctxSet s f.val = false)
      ∃ t, exec (.sqCtl f q v be) s = .next t ∧
        (bad → t.reg f.val (off + 8) = old ∧ Noted s t f (off + 16) 18 ∧ t.sage = s.sage) ∧
        (¬bad → t.reg f.val (off + 8) = new % 32 + (if bit new 8 then 256 else 0)) ∧
        (¬bad → bit new 8 = true → bit old 8 = false → t.reg f.val (off + 12) = 0 ∧ queueStopped t f.val q.val = false ∧
          ∀ d ∈ t.sage.doorbells, ofQueue f q d = false)) ∧
    (∀ (q : Nat) (i : Instr), (i = .evqCtl f v be ∧ q = 64) ∨ (∃ n : Fin 64, i = .cqCtl f n v be ∧ q = n.val) →
      let off := cqOff q
      let old := s.reg f.val (off + 8)
      let new := mergeBe old v be
      let most := if q = 64 then 12 else 16
      let bad := bit new 8 = true ∧ (new % 32 < 4 ∨ most < new % 32 ∨ vectorCount f.val ≤ bits new 9 11 ∨
        ctxSet s f.val = false)
      ∃ t, exec i s = .next t ∧
        (bad → t.reg f.val (off + 8) = old ∧ Noted s t f (cqStatus q) 18) ∧
        (¬bad → t.reg f.val (off + 8) = new % 32 + bits new 8 20 * 256) ∧
        (¬bad → bit new 8 = true → bit old 8 = false → t.reg f.val (off + 12) = 0x10000 ∧
          queueStopped t f.val (64 + q) = false ∧ cqHead t f.val q = 0))) ∧
  -- DESCRIPTOR_READ takes the entry at HEAD into the step store, or stops the queue
  (∀ (f : Fn) (q : Fin 64) (s : State) (d : Doorbell),
    let off := sqOff q.val
    let r := vread s (ownAccess f) (ringBase s f.val off + 128 * d.idx) 128
    nextDoorbell s f q = some d → mayRead s f q = true →
    (∀ v bad, r.1 = .ok (v, bad) →
      ∃ t x, exec (.descriptorRead f q) s = .next t ∧
        bits (t.reg f.val (off + 12)) 0 16 = (d.idx + 1) % 2 ^ ctlLog2 (r.2.reg f.val (off + 8)) % 65536 ∧
        (∀ e ∈ t.sage.doorbells, ¬(ofQueue f q e = true ∧ e.idx = d.idx)) ∧
        t.sage.steps = r.2.sage.steps ++ [x] ∧ x.fn = f ∧ x.sq = q ∧ x.raw = BitVec.ofNat 1024 v ∧ x.doorbell = d.ns ∧
        x.phase = .fresh ∧
        x.readBad = if bad then some 0x24 else none) ∧
    (∀ va x, r.1 = .error (.unmapped va x) →
      ∃ t, exec (.descriptorRead f q) s = .next t ∧ queueStopped t f.val q.val = true ∧ Noted r.2 t f (off + 16) 16))

/-- A completed step writes or holds its completion entry, whose fields are at their places. (1) A step that is over ends,
and its entry is written or held. For a step that is over with everything it made visible, and for one that ended
before and is held: where its completion queue is closed or full, or an entry of an earlier ended step waits,
STEP_COMPLETION completes with the step ended and held in the store; where the queue is open and the 32 B entry is
written, the step leaves the store and TAIL moves on by 1 modulo the ring. (2) The completion entry holds each field
of R72 in its place. In the 32 B entry that the model writes for a step: STEP_ID in bits 63:0, the status code in
71:64, PHASE in 72, zeros in 79:73, PREEMPTS saturated in 95:80, WAIT_TICKS in 127:96, the start tick in 191:128, the
ticks used in 223:192 and the error reference in 255:224. -/
def Obligations.Completions : Prop :=
  -- A step that is over ends, and its entry is written or held
  (∀ (step ns : Nat) (s : State) (x y : Step),
    let a := if x.phase = .ended then s.at ns else markEnded (s.at ns) x
    let f := y.fn
    findStep s step = some x → s.now ≤ ns → (stepOver s x = true ∨ x.phase = .ended) → findStep a step = some y →
    (cqOpen a f.val y.cq = false ∨ entryWaits a y = true →
      ∃ t z, exec (.stepCompletion step ns) s = .next t ∧ findStep t step = some z ∧ z.phase = .ended ∧ t.mem = s.mem) ∧
    (∀ w, cqOpen a f.val y.cq = true → entryWaits a y = false →
      vwrite a { ownAccess f with fin := true } (ringBase a f.val (cqOff y.cq) + 32 * cqTail a f.val y.cq) 32 (completionEntry a y) = (.ok (), w) →
      ∃ t, exec (.stepCompletion step ns) s = .next t ∧ findStep t step = none ∧
        cqTail t f.val y.cq = (cqTail w f.val y.cq + 1) % 2 ^ ctlLog2 (w.reg f.val (cqOff y.cq + 8)) % 65536)) ∧
  -- The completion entry holds each field of R72 in its place
  (∀ (s : State) (x : Step),
    let e := completionEntry s x
    let start := x.start.getD x.lastTick
    bits e 0 64 = x.raw.toNat % 2 ^ 64 ∧ bits e 64 8 = statusCode x.status ∧ bits e 72 1 = cqPhase s x.fn.val x.cq ∧
      bits e 73 7 = 0 ∧ bits e 80 16 = min x.preempts 65535 ∧ bits e 96 32 = x.waitTicks ∧
      bits e 128 64 = start % 2 ^ 64 ∧
      bits e 192 32 = (if x.start.isSome then min (x.lastTick - start + 1) (2 ^ 32 - 1) else 0) ∧
      bits e 224 32 = x.errRef % 2 ^ 32 ∧ e < 2 ^ 256)

/-- Events are posted and interrupts are sent. The oldest event of a function is dropped and counted when its queue is not
open, and otherwise written with TAIL moving on and the lost count cleared. A vector whose queue's aggregation time
ends is sent, or sets its pending bit when masked; an unmasked vector whose pending bit is set is sent and the bit
cleared. -/
def Obligations.EventsAndInterruptsLeave : Prop :=
  ∀ (f : Fn) (s : State),
    (∀ e rest, takeFirst (fun e : EvRec => e.fn == f) s.host.evPend = some (e, rest) →
      let a := { s with host := { s.host with evPend := rest } }
      ((fnActs a f && cqOpen a f.val 64) = false →
        ∃ t, exec (.eventPost f) s = .next t ∧ t.host.evPend = rest ∧
          sget (fun _ => 0) t.host.evLost f.val = min 255 (sget (fun _ => 0) s.host.evLost f.val + 1)) ∧
      (∀ w, (fnActs a f && cqOpen a f.val 64) = true →
        vwrite a (ownAccess f) (ringBase a f.val 0x2004 + 64 * cqTail a f.val 64) 64 (eventEntry a e) = (.ok (), w) →
        ∃ t, exec (.eventPost f) s = .next t ∧ sget (fun _ => 0) t.host.evLost f.val = 0 ∧
          cqTail t f.val 64 = (cqTail w f.val 64 + 1) % 2 ^ ctlLog2 (w.reg f.val 0x200C) % 65536)) ∧
    ∀ v : Fin 2048,
      let masked := bit (s.reg f.val (msixEntry f.val v.val + 12)) 0
      let pba := s.reg f.val (pbaWord f.val v.val)
      (∀ w rest, takeFirst (fun w : IrqWait => w.fn == f &&
            decide (ctlVector (s.reg f.val (cqOff w.queue + 8)) = v.val)) s.host.irq = some (w, rest) →
        ∃ t, exec (.msixSend f v) s = .next t ∧ t.host.irq = rest ∧
          if masked then t.out = s.out ∧ bit (t.reg f.val (pbaWord f.val v.val)) (v.val % 32) = true
          else t.out = s.out ++ [.msix f v.val] ∧ t.regs = s.regs) ∧
      (takeFirst (fun w : IrqWait => w.fn == f &&
            decide (ctlVector (s.reg f.val (cqOff w.queue + 8)) = v.val)) s.host.irq = none →
        v.val < vectorCount f.val → bit pba (v.val % 32) = true → masked = false →
        ∃ t, exec (.msixSend f v) s = .next t ∧ t.out = s.out ++ [.msix f v.val] ∧
          bit (t.reg f.val (pbaWord f.val v.val)) (v.val % 32) = false)

/-- A kernel sets up its cores; groups start, are promoted and resume. (1) GROUP_START, GROUP_PROMOTE and YIELD_TIMEOUT. A
core that runs a command with groups left, an empty resident slot and its clock on starts the next group there: PC 0,
every thread active, lane numbers in v0, the group index in u2, pending with cause START. A quarter with fewer than 4
active groups promotes the pending group whose wait resolved earliest, and it may then issue. A yield timeout resolves
the wait of a group pending with cause YIELD. (2) A KERNEL command that may start sets up each core of its ranges. For
a KERNEL that may start on ranges Sage may give it: every core with a non-empty range runs the command with its range,
no resident group, cleared registers, tiles and tickets, and the step's function; with no range the command is done. -/
def Obligations.KernelsAndGroupsStart : Prop :=
  -- GROUP_START, GROUP_PROMOTE and YIELD_TIMEOUT
  (∀ (g : GroupRef) (s : State) (c : CoreCmd),
    let k := s.core g.core
    (k.cmd = some c → k.runs = true → c.stopping = false → g.slot.val < c.resident → (grp s g).state = 0 →
      c.next < c.first + c.count →
      ∃ t, exec (.groupStart g) s = .next t ∧ (grp t g).pc = 0 ∧ (grp t g).mask = BitVec.allOnes 32 ∧
        (grp t g).exited = 0 ∧ (grp t g).state = 2 ∧ (grp t g).cause = 6 ∧ (grp t g).gidx = c.next ∧
        (∀ n < 32, (t.core g.core).v g.slot 0 n = BitVec.ofNat 32 n) ∧
        (t.core g.core).u g.slot 2 = BitVec.ofNat 32 c.next ∧
        (∀ r n, 0 < r → r < 63 → n < 32 → (t.core g.core).v g.slot r n = 0)) ∧
    (∀ (q : Fin 4) (p : Nat × Group), k.runs = true → k.activeCount q < 4 → earliest (k.resolvedGroups q) = some p →
      ∃ t, exec (.groupPromote g.core q) s = .next t ∧ ((t.core g.core).group p.1).state = 1 ∧
        ((t.core g.core).group p.1).pc = p.2.pc ∧ t.mem = s.mem) ∧
    (k.cmd = some c → (grp s g).state = 2 → (grp s g).cause = 5 → (grp s g).resolved = none →
      ∃ t, exec (.yieldTimeout g) s = .next t ∧ (grp t g).resolved = some s.stamp ∧ (grp t g).pc = (grp s g).pc)) ∧
  -- A KERNEL command that may start sets up each core of its ranges
  (∀ (c : CmdRef) (ranges : List CoreRange) (s : State) (x : Step) (y : Cmd),
    startable s c 1 = some (x, y) → rangesOk s x c.cmd y ranges = true →
    ∃ t, exec (.kernel c ranges) s = .next t ∧ (ranges = [] → cmdPhase t c = some .done) ∧
      ∀ r ∈ ranges, r.count ≠ 0 →
        (∃ k, (t.core r.core.val).cmd = some k ∧ k.step = c.step ∧ k.idx = c.cmd ∧ k.fn = x.fn ∧ k.first = r.first ∧
          k.count = r.count ∧ k.next = r.first ∧ k.grid = y.field 0xC 4 ∧ k.stopping = false) ∧
        (t.core r.core.val).groups = [] ∧ (t.core r.core.val).rf = [] ∧ (t.core r.core.val).tiles = [] ∧
        (t.core r.core.val).tickets = [] ∧ (t.core r.core.val).mq = [] ∧ (t.core r.core.val).inbox = Inbox.empty)

/-- Event commands set, wait and count; phase hints are taken. (1) NOP, WAIT_EVENT, its release and timeout, and
SIGNAL_EVENT. A NOP that may start is done at once. A WAIT_EVENT that may start runs; it is released when the counter
has reached VALUE; when its timeout in ticks has passed without that, it is cancelled and the step has the status
FAULT_UNRECOVERED. A SIGNAL_EVENT whose earlier commands have ended adds VALUE to its counter modulo 2^64 and is done.
(2) HINT, HINT_PHASE_LEAD and HINT_PHASE_END. A HINT that may start, at a moment before the guard, announces its
phase, is counted in 9010h:03h and is done at once. The lead of a phase that is not raised raises it; its end removes
it. -/
def Obligations.EventsAndHints : Prop :=
  -- NOP, WAIT_EVENT, its release and timeout, and SIGNAL_EVENT
  (∀ (c : CmdRef) (s : State) (x : Step) (y : Cmd),
    (startable s c 0 = some (x, y) → ∃ t, exec (.nop c) s = .next t ∧ cmdPhase t c = some .done ∧ t.mem = s.mem) ∧
    (startable s c 4 = some (x, y) → ∃ t, exec (.waitEvent c) s = .next t ∧ cmdPhase t c = some .running ∧ t.mem = s.mem) ∧
    (runningCmd s c 4 = some (x, y) →
      (y.field 0x10 8 ≤ evCounter s x.fn.val (y.field 0xC 2) →
        ∃ t, exec (.waitEventRelease c) s = .next t ∧ cmdPhase t c = some .done) ∧
      (evCounter s x.fn.val (y.field 0xC 2) < y.field 0x10 8 → y.field 0x18 4 ≠ 0 → y.waitTick + y.field 0x18 4 ≤ s.tick →
        ∃ t, exec (.eventTimeout c) s = .next t ∧ cmdPhase t c = some .cancelled ∧
          hasStatus t c.step .faultUnrecovered)) ∧
    (startable s c 5 = some (x, y) → earlierDone x c.cmd = true →
      ∃ t, exec (.signalEvent c) s = .next t ∧ cmdPhase t c = some .done ∧
        evCounter t x.fn.val (y.field 0xC 2) =
          (evCounter s x.fn.val (y.field 0xC 2) + y.field 0x10 8) % 2 ^ 64)) ∧
  -- HINT, HINT_PHASE_LEAD and HINT_PHASE_END
  (∀ (c : CmdRef) (ns : Nat) (s : State) (x : Step) (y : Cmd),
    (startable s c 8 = some (x, y) → s.now ≤ ns → ns < guardStart s →
      ∃ t, exec (.hint c ns) s = .next t ∧ cmdPhase t c = some .done ∧ t.now = ns ∧
        t.obj 0x9010 3 0 = satAdd 64 (s.obj 0x9010 3 0) 1 ∧
        t.power.hints = s.power.hints ++
          [⟨c.step, c.cmd, y.field 0xC 1, ns + 1000 * y.field 0x10 4, ns + 1000 * y.field 0x10 4 + 1000 * y.field 0xE 2, false⟩]) ∧
    (∀ h ∈ s.power.hints, h.of c = true →
      (h.raised = false → ∃ t, exec (.hintPhaseLead c) s = .next t ∧ ∀ h' ∈ t.power.hints, h'.of c = true → h'.raised = true) ∧
      ∃ t, exec (.hintPhaseEnd c) s = .next t ∧ ∀ h' ∈ t.power.hints, h'.of c = false))

/-- COPY and COLLECTIVE broadcast do their units, then end, wait for a partner, or stop. A slice of a COPY that may start
does units of its segments; a broadcast that may start on the cores it is given does them all. Where every access may
be made, the command completes so: the state after those units, with the units counted for a COPY whose slice leaves
some, else with the command ended. A slice of one unit completes, and so does a broadcast of one unit, where both its
lines are mapped, may be accessed and have no transaction under way. Ending the units of a command makes it done, or
leaves it running while a partner's answer is awaited. Where an access may not be made, the row completes with the
command stopped; stopping cancels the command and gives the step the status FAULT_UNRECOVERED. -/
def Obligations.CopiesRunOrStop : Prop :=
  -- COPY
  (∀ (c : CmdRef) (work : SliceWork) (s : State) (x : Step) (y : Cmd), startable s c 2 = some (x, y) →
    let b := (y.payload.map segOf).foldl (openDeposit x.key c.cmd) (beginCmd s c x)
    let acc := cmdAccess (copyEngine b c) x y
    let move := fun (s : State) (p : Part) => movePart s acc c.cmd p
    let left := (partsOf (y.payload.map segOf)).drop y.units
    workOk b s.now left.length work = true → match runParts acc work.errs move (left.take work.units) 0 b with
      | (.all, a) => exec (.copy c work) s = .next (if work.units = left.length
          then endUnits (countUnits a c work.units work.endNs) c else countUnits a c work.units work.endNs)
      | (.stopped f n, a) => exec (.copy c work) s = .next (stopUnits (looseParts acc work.errs move (left.drop n) a) c f)
      | (.busy, _) => exec (.copy c work) s = .fault .cannotOccur) ∧
  (∀ (c : CmdRef) (work : SliceWork) (s : State) (x : Step) (y : Cmd) (p : Part) (rest : List Part),
    startable s c 2 = some (x, y) → (partsOf (y.payload.map segOf)).drop y.units = p :: rest →
    let b := (y.payload.map segOf).foldl (openDeposit x.key c.cmd) (beginCmd s c x)
    workOk b s.now (rest.length + 1) work = true → work.units = 1 → work.errs = [] →
    lineParts p.src p.n = [(p.src, p.n)] → TouchableNow b x.fn p.src false → TouchableNow b x.fn p.a true →
    ∃ t, exec (.copy c work) s = .next t) ∧
  -- COLLECTIVE broadcast
  (∀ (c : CmdRef) (s : State) (x : Step) (y : Cmd), startable s c 3 = some (x, y) → y.field 0xC 1 = 2 →
    let cores := (placeOf s c).elim [] Placement.cores
    let b := cores.foldl (fun s k => noteRan s k.val x.fn.val) (beginCmd s c x)
    let acc := cmdAccess (siteOfCore s (senderOf cores 0)) x y
    let move := fun (s : State) (p : Part) => movePart s acc c.cmd p
    let parts := partsOf ((List.range (bits y.block 64 16)).map fun n =>
      ⟨y.field 0x10 8, y.field 0x18 8 + n * bits y.block 0 64, bits y.block 0 64, 0, 0⟩)
    givenOk s x c.cmd y cores = true → match runParts acc [] move parts 0 b with
      | (.all, a) => exec (.collectiveBroadcast c) s = .next (endUnits a c)
      | (.stopped f n, a) =>
        exec (.collectiveBroadcast c) s = .next (stopUnits (looseParts acc [] move (parts.drop n) a) c f)
      | (.busy, _) => exec (.collectiveBroadcast c) s = .fault .cannotOccur) ∧
  (∀ (c : CmdRef) (s : State) (x : Step) (y : Cmd) (p : Part), startable s c 3 = some (x, y) → y.field 0xC 1 = 2 →
    let cores := (placeOf s c).elim [] Placement.cores
    let b := cores.foldl (fun s k => noteRan s k.val x.fn.val) (beginCmd s c x)
    partsOf ((List.range (bits y.block 64 16)).map fun n =>
      ⟨y.field 0x10 8, y.field 0x18 8 + n * bits y.block 0 64, bits y.block 0 64, 0, 0⟩) = [p] →
    givenOk s x c.cmd y cores = true → lineParts p.src p.n = [(p.src, p.n)] → TouchableNow b x.fn p.src false →
    TouchableNow b x.fn p.a true → ∃ t, exec (.collectiveBroadcast c) s = .next t) ∧
  -- What ends or stops a command
  (∀ (c : CmdRef) (s : State) (p : CmdPhase) (f : Stop), cmdPhase s c = some p →
    (peerPending s c = false → cmdPhase (endUnits s c) c = some .done) ∧
    (peerPending s c = true → cmdPhase (endUnits s c) c = some p) ∧
    cmdPhase (stopUnits s c f) c = some .cancelled ∧ hasStatus (stopUnits s c f) c.step .faultUnrecovered)

/-- Cache operations run over their lines: pin, unpin, write back and discard. (1) PIN, UNPIN, PREFETCH, WRITE_BACK and
DISCARD act on each line of their range. For a CACHE_OP that may start, whose earlier commands have ended, with a
slice of whole code pages that ends in time: where every line of the slice may be touched and none is busy, the row
completes with the state that the operation leaves after each line, its code pages counted, and the operation ended
with its last one; ending it makes the command done, but for a WRITE_BACK whose writes memory has not done. A slice of
one line that is mapped, may be accessed and has no transaction under way completes. A PREFETCH passes over pages it
may not read. Where another operation meets a page it may not touch, the row completes with cause 23h recorded against
the step and the command cancelled. (2) What PIN, WRITE_BACK and DISCARD do to one line. Pinning a resident line with
fewer than 15 references adds one reference and keeps its data; at 15 it is refused and counted. Writing back a dirty
home line of device memory, not replicated and on a working channel, leaves it clean in the cache, and its controller
holds its data and marks. Discarding a resident device line leaves it clean, marked discarded and with no copy
elsewhere, and no byte of memory changes; of an absent one its controller holds the mark. -/
def Obligations.CacheOperations : Prop :=
  -- PIN, UNPIN, PREFETCH, WRITE_BACK and DISCARD act on each line of their range
  (∀ (c : CmdRef) (work : SliceWork) (s : State) (x : Step) (y : Cmd) (i : Instr) (op : Nat),
    startable s c 6 = some (x, y) → earlierDone x c.cmd = true → y.field 0xC 1 = op →
    (i, op) = (.pin c work, 1) ∨ (i, op) = (.unpin c work, 2) ∨ (i, op) = (.prefetch c work, 3) ∨
      (i, op) = (.writeBack c work, 4) ∨ (i, op) = (.discard c work, 5) →
    let b := beginCmd s c x
    let acc := { cmdAccess (agentHome ((placeOf b c).elim 0 fun p => p.die.val)) x y with lat := false }
    let left := pagesOf (y.field 0x10 8) (y.field 0x18 8) - y.units
    let vas := (List.range work.units).flatMap fun n => pageLines (y.field 0x10 8) (y.field 0x18 8) (y.units + n)
    workOk b s.now left work = true → match eachLine acc work.errs (decide (op = 5)) (decide (op = 3)) (cacheAct x y) vas b with
      | (.all, a) =>
        let d := countUnits a c work.units work.endNs
        exec i s = .next (if work.units = left then endCacheOp d c y else d)
      | (.stopped _ _, a) =>
        exec i s = .next (setPhase (stepFault (setSlice a c none) c.step 0x23 c.cmd) c.step c.cmd .cancelled)
      | (.busy, _) => exec i s = .fault .cannotOccur) ∧
  (∀ (c : CmdRef) (work : SliceWork) (s : State) (x : Step) (y : Cmd) (i : Instr) (op va : Nat),
    startable s c 6 = some (x, y) → earlierDone x c.cmd = true → y.field 0xC 1 = op →
    (i, op) = (.pin c work, 1) ∨ (i, op) = (.unpin c work, 2) ∨ (i, op) = (.prefetch c work, 3) ∨
      (i, op) = (.writeBack c work, 4) ∨ (i, op) = (.discard c work, 5) →
    workOk (beginCmd s c x) s.now (pagesOf (y.field 0x10 8) (y.field 0x18 8) - y.units) work = true → work.units = 1 →
    pageLines (y.field 0x10 8) (y.field 0x18 8) y.units = [va] →
    TouchableNow (beginCmd s c x) x.fn va (decide (op = 5)) → ∃ t, exec i s = .next t) ∧
  (∀ (c : CmdRef) (s : State) (y : Cmd) (p : CmdPhase), cmdPhase s c = some p →
    y.field 0xC 1 ≠ 4 ∨ writesWait s (y.tally.headD s.stamp) = false → cmdPhase (endCacheOp s c y) c = some .done) ∧
  -- What PIN, WRITE_BACK and DISCARD do to one line
  (∀ (fn : Fn) (s : State) (l : Line),
    let h := homeLine s l
    (h.st ≠ 0 → h.pinCount < 15 → (homeLine (pinLine fn s l) l).pinCount = h.pinCount + 1 ∧
      (homeLine (pinLine fn s l) l).data = h.data) ∧
    (h.st ≠ 0 → 15 ≤ h.pinCount → (homeLine (pinLine fn s l) l).pins = h.pins ∧
      (pinLine fn s l).obj 0x7040 5 fn.val = satAdd 64 (s.obj 0x7040 5 fn.val) 1) ∧
    (h.st = 2 → l.host = false → replicaOf s l.no = none → pageLost s l.no = false →
      (homeLine (writeBackLine s l) l).st = 1 ∧ (homeLine (writeBackLine s l) l).data = h.data ∧
      ctrlRead (writeBackLine s l) l.no = (h.data, h.marks)) ∧
    (h.st ≠ 0 → l.host = false → (homeLine (discardLine s l) l).st = 1 ∧ (homeLine (discardLine s l) l).discarded = true ∧
      (homeLine (discardLine s l) l).presence = 0 ∧ ∀ a, memGet (discardLine s l).mem.dev a = memGet s.mem.dev a) ∧
    (h.st = 0 → l.host = false → memDiscard (discardLine s l) l.no = true))

/-- fmin, fmax, hmin2, hmax2 with NaN and signed zeros; bfe and bfi outside the word. For FP32, FP16 and BF16 the minimum
and the maximum are the canonical NaN when either input is NaN, and take -0 as less than +0; for a group that may
issue with legal operands fmin, fmax, hmin2 and hmax2 write that minimum or maximum of each active thread's inputs. A
bfe or bfi of a group in the active set whose pos + len is above 32, or whose len is 0, stops the group with a record
of cause ILLEGAL. -/
def Obligations.MinMaxAndBitFieldRules : Prop :=
  (∀ p ∈ [(Fmt.fp32, 0x7FC00000, 0x80000000), (Fmt.fp16, 0x7E00, 0x8000), (Fmt.bf16, 0x7FC0, 0x8000)],
      (∀ a < 2 ^ p.1.width, ∀ b < 2 ^ p.1.width, p.1.decode a = .nan ∨ p.1.decode b = .nan →
        fpMin p.1 a b = p.2.1 ∧ fpMax p.1 a b = p.2.1) ∧
      fpMin p.1 p.2.2 0 = p.2.2 ∧ fpMin p.1 0 p.2.2 = p.2.2 ∧ fpMax p.1 p.2.2 0 = 0 ∧ fpMax p.1 0 p.2.2 = 0) ∧
    (∀ (g : GroupRef) (f : RIForm) (s : State),
      let v := vArgs f false 7
      v.illegal = false → roundBad v.mod = false → Ready s g v.regs →
      (∃ t, exec (.fmin g f) s = .next t ∧ VecDone s t g v.dst v.guard fun n =>
        fop v.mod (fun _ a b _ => fpMin .fp32 a b) (val s g v.a n) (val s g v.b n) (val s g v.c n)) ∧
      ∃ t, exec (.fmax g f) s = .next t ∧ VecDone s t g v.dst v.guard fun n =>
        fop v.mod (fun _ a b _ => fpMax .fp32 a b) (val s g v.a n) (val s g v.b n) (val s g v.c n)) ∧
    (∀ (g : GroupRef) (f : RFields) (s : State),
      let v := vArgsR f true false 0x17
      v.illegal = false → roundBad v.mod = false → Ready s g v.regs →
      (∃ t, exec (.hmin2 g f) s = .next t ∧ VecDone s t g v.dst v.guard fun n =>
        hop v.mod (fun h _ a b _ => fpMin h a b) (val s g v.a n) (val s g v.b n) (val s g v.c n)) ∧
      ∃ t, exec (.hmax2 g f) s = .next t ∧ VecDone s t g v.dst v.guard fun n =>
        hop v.mod (fun h _ a b _ => fpMax h a b) (val s g v.a n) (val s g v.b n) (val s g v.c n)) ∧
    (∀ (g : GroupRef) (f : RFields) (s : State) (i : Instr),
      i = .bfe g f ∨ i = .bfi g f → canIssue s g = true →
      f.mod.toNat / 32 % 64 = 0 ∨ 32 < f.mod.toNat % 32 + f.mod.toNat / 32 % 64 →
      ∃ t, exec i s = .next t ∧ grp t g = Group.empty ∧
        ∃ r ∈ t.mgmt.logPend, r.kind = 1 ∧ r.cause = 1 ∧ r.core = g.core.val ∧ r.slot = g.slot.val ∧
          r.pc = (grp s g).pc.toNat)

/-- The home slice of a device-physical address is the fold of its page frame number. For every 40-bit device-physical
address the home slice is a number below 4, each of whose two bits is the exclusive or of the twelve bits of PA[39:16]
at the same place of each pair; a line of device memory has that home, whatever the state of the module is. -/
def Obligations.HomeSliceIsTheFold : Prop :=
  ∀ pa < 2 ^ 40, homeOfPa pa < 4 ∧
      (∀ j < 2, (homeOfPa pa).testBit j =
        ((List.range 12).map fun i => pa.testBit (16 + 2 * i + j)).foldl xor false) ∧
      homeSlice ⟨pa / 512, false⟩ = homeOfPa pa

/-- What reset leaves: no work, canonical memory, and the reset values that the spec gives. At reset both byte memories
are in canonical form and list nothing, no command waits, no step is in the store, no core runs a command, every
function is ABSENT, the module is STARTING, the tick number is 0, CQ_TAIL shows PHASE 1 and every MSI-X vector of the
PF is masked. -/
def Obligations.ResetLeavesTheBlockIdle : Prop :=
  State.reset.memWf = true ∧ State.reset.mem.dev = [] ∧ State.reset.mem.host = [] ∧ State.reset.pending = [] ∧
    State.reset.sage.steps = [] ∧ (∀ c, (State.reset.core c).cmd = none) ∧ (∀ f : Fn, State.reset.fnState f.val = 0) ∧
    State.reset.moduleState = 5 ∧ State.reset.tick = 0 ∧
    (∀ (f : Fn) (q : Fin 64), bits (State.reset.reg f.val (cqOff q.val + 12)) 16 1 = 1) ∧
    ∀ v : Fin 2048, bit (State.reset.reg 0 (msixEntry 0 v.val + 12)) 0 = true

/-- Every step keeps device and host memory in their one canonical form. For every state whose device and host memories
list addresses in strictly rising order with no byte equal to what an unlisted address reads as: if a step answers a
next state, whichever command it ran, both memories are in that form again. Equal contents therefore stay equal data. -/
def Obligations.StepKeepsMemoryCanonical : Prop :=
  ∀ s t : State, s.memWf = true → step s = .next t → t.memWf = true

namespace Sys2Proof.Claims
open Sys2Proof Sys2Proof.Machine

/-! ## Words of the statements about coherence -/

/-- A message is in flight. -/
def Sent (t : State) (kind : MsgKind) (p : Msg → Prop) : Prop := ∃ m, p m ∧ (⟨kind, m⟩ : Flight) ∈ t.coh.net

/-- A reply to a message: from its receiver to its sender, about its line, with its tag. -/
def Replies (m r : Msg) : Prop := r.src = m.dst ∧ r.dst = m.src ∧ r.line = m.line ∧ r.tag = m.tag ∧ r.req = m.req

/-- The requests of R259 that may conflict at a home. -/
def requestRow : Instr → Option (MsgKind × Msg)
  | .rd m => some (.rd, m)
  | .rdo m => some (.rdo, m)
  | .wr m => some (.wr, m)
  | .atom m => some (.atom, m)
  | _ => none

/-- A packet reaches its destination for the first time: no reply to it is kept, and it is not being worked on (R341). -/
def FirstTime (s : State) (kind : MsgKind) (m : Msg) : Prop := keptReply s kind m = none ∧ inProgress s m = false

/-- A request may reach its home now; RDO comes from a near partition of another slice about a device line. -/
def MayRequest (s : State) (kind : MsgKind) (m : Msg) : Prop :=
  requestOk s kind m = true ∧ (kind = .rdo → m.line.host = false ∧ (portOf m.src).map Fin.val ≠ some (homeSlice m.line) ∧
    nearWays s ≠ 0)

end Sys2Proof.Claims

open Sys2Proof Sys2Proof.Machine Sys2Proof.Claims

/-- RD, RDO, WR and ATOM at a home: served, queued behind a BUSY line, refused, or not done twice. A request that may
reach its home completes there; one that is not in flight is sent now under its sender's next number. One whose reply
the home keeps is answered with it again, and one that the home works on is dropped: no line changes. One that comes
for the first time: about a BUSY line it counts as a conflict and, with RACE_MODE 0 or a credit, joins the conflict
queue as its last entry; otherwise it is refused with a RETRY. About an idle line held clean or dirty at the home: RD
of one not marked discarded gets the home's line as DATA; about a device line with no copy elsewhere, WR without a
hint merges the bytes of its mask and is acknowledged, ATOM of a line not marked discarded writes what its operations
give and is acknowledged with the old values, and RDO is granted the line, which its sender then owns. RD of an absent
device line holds it BUSY until its read of memory has come. Memory does not change. -/
def Obligations.HomesServeRequests : Prop :=
  ∀ (i : Instr) (kind : MsgKind) (m : Msg) (s : State),
    requestRow i = some (kind, m) → MayRequest s kind m →
    let h := homeLine s m.line
    let p := (pickUp s kind m).1
    (∃ t, exec i s = .next t) ∧
    (inFlight s kind m = true → p = m) ∧
    (inFlight s kind m = false → p = { m with seq := sget (fun _ => 0) s.net.e2eSeq (m.src * 1024 + m.dst) }) ∧
    (∀ r, keptReply s kind p = some r → ∃ t, exec i s = .next t ∧ t.mem = s.mem ∧ t.coh.home = s.coh.home ∧
      Sent t r.kind fun x => x = r.reply) ∧
    (keptReply s kind p = none → inProgress s p = true →
      ∃ t, exec i s = .next t ∧ t.mem = s.mem ∧ t.coh.home = s.coh.home ∧ t.coh.conflictQ = s.coh.conflictQ) ∧
    (FirstTime s kind p → h.busy.isSome = true → ∃ t, exec i s = .next t ∧ t.mem = s.mem ∧ t.coh.home = s.coh.home ∧
      t.obj 0x3072 1 (homeSlice m.line) = satAdd 64 (s.obj 0x3072 1 (homeSlice m.line)) 1 ∧
      if s.coh.raceMode = 0 ∨ m.credited = true then t.coh.conflictQ = s.coh.conflictQ ++ [⟨kind, p⟩]
      else t.coh.conflictQ = s.coh.conflictQ ∧ Sent t .retry (Replies m)) ∧
    (FirstTime s kind p → h.busy = none → h.st = 0 → m.line.host = false → kind = .rd →
      ∃ t x, exec i s = .next t ∧ t.mem.dev = s.mem.dev ∧ (homeLine t m.line).busy = some x ∧ x.kind = .rd ∧ x.msg = p ∧
        x.fill = some m.line.no) ∧
    (FirstTime s kind p → h.busy = none → (h.st = 1 ∨ h.st = 2) →
      (kind = .rd → h.discarded = false → ∃ t, exec i s = .next t ∧ t.mem = s.mem ∧
        (homeLine t m.line).data = h.data ∧ (homeLine t m.line).st = h.st ∧
        Sent t .data fun r => Replies m r ∧ r.data = h.data ∧ r.marks = h.marks) ∧
      (h.presence = 0 → m.line.host = false →
        (kind = .rdo → ∃ t, exec i s = .next t ∧ t.mem = s.mem ∧ (homeLine t m.line).st = 3 ∧
          (homeLine t m.line).presence = setBit 0 (agentPlace m.src) true ∧
          Sent t .grant fun r => Replies m r ∧ r.data = h.data ∧ r.marks = h.marks) ∧
        (kind = .wr → m.hint = 0 → ∃ t, exec i s = .next t ∧ t.mem = s.mem ∧ (homeLine t m.line).st = 2 ∧
          (∀ b < 512, lineBytes (homeLine t m.line).data b 1 =
            if m.mask.getLsbD b then lineBytes m.data b 1 else lineBytes h.data b 1) ∧ Sent t .ack (Replies m)) ∧
        (kind = .atom → h.discarded = false → ∃ t, exec i s = .next t ∧ t.mem = s.mem ∧
          (homeLine t m.line).data = (runOps m.kind h.marks m.ops h.data).1 ∧
          Sent t .ack fun r => Replies m r ∧ r.ops = (runOps m.kind h.marks m.ops h.data).2.1)))

/-- Homes take answers; holders and requesters answer the messages they receive. (1) PRES, DWN, WB, INV_ACK, OWN_DATA,
OWN_DONE and the credited resend. A message of these kinds that may arrive completes. One that comes for the first
time: PRES is answered with PRES_ACK; DWN and WB from the owner leave the line dirty at the home with the data they
carry, and are answered with WB_ACK. An answer that is awaited: INV_ACK takes one place off what a transaction waits
for; OWN_DATA of a forwarded read and OWN_DONE end a transaction that waits for nothing else, with no request queued:
the home holds the data, or the requester owns the line. A refused request whose refusal has reached its port goes out
again with one of its 32 credits where its sender has a place for it. (2) INV, FWD_RD, FWD_OWN, RECALL, PRES_ACK,
WB_ACK, DATA, GRANT, ACK and RETRY. A message of these kinds that may arrive completes. A holder that may answer one
that comes for the first time: INV drops the copy and is answered; FWD_RD sends the owner's line to the requester and
to the home; FWD_OWN passes it with ownership and RECALL returns it, and the owner drops it but for its write-back
buffer. An answer that is awaited: PRES_ACK counts one acknowledgement, WB_ACK frees the write-back buffer; DATA
reaches the load that waits for the line; GRANT leaves the line owned in the near partition where nothing waits for
it; ACK takes the write off its core; RETRY marks the refused request as told. An ACK that answers a packet to a
partner completes. -/
def Obligations.CoherenceMessagesMoveLines : Prop :=
  -- PRES, DWN, WB, INV_ACK, OWN_DATA, OWN_DONE and the credited resend
  (∀ (m : Msg) (s : State),
    let h := homeLine s m.line
    let l := m.line
    (mayArrive s .pres m = true → (∃ t, exec (.pres m) s = .next t) ∧
      (FirstTime s .pres m → ∃ t, exec (.pres m) s = .next t ∧ t.mem = s.mem ∧ Sent t .presAck (Replies m))) ∧
    (∀ (kind : MsgKind) (i : Instr), (kind, i) = (.dwn, .dwn m) ∨ (kind, i) = (.wb, .wb m) → mayArrive s kind m = true →
      (∃ t, exec i s = .next t) ∧
      (FirstTime s kind m → ∃ t, exec i s = .next t ∧ t.mem = s.mem ∧ Sent t .wbAck (Replies m) ∧
        (h.st = 3 → agentNear (ownerOf h) = m.src → (homeLine t l).st = 2 ∧ (homeLine t l).data = m.data ∧
          (homeLine t l).marks = m.marks ∧
          (homeLine t l).presence = setBit h.presence (agentPlace m.src) (decide (kind = .dwn))))) ∧
    (mayArrive s .invAck m = true → (∃ t, exec (.invAck m) s = .next t) ∧
      ∀ x : Txn, awaited s .invAck m = true → h.busy = some x → x.invs.erase m.src ≠ [] →
        ∃ t, exec (.invAck m) s = .next t ∧
          (homeLine t l).busy = some { x with invs := x.invs.erase m.src } ∧ (homeLine t l).data = h.data) ∧
    (mayArrive s .ownData m = true → (∃ t, exec (.ownData m) s = .next t) ∧
      ∀ x : Txn, awaited s .ownData m = true → h.busy = some x → x.msg.line = l → x.kind = .rd → x.invs = [] →
        x.fill = none → (∀ f ∈ s.coh.conflictQ, f.msg.line ≠ l) →
        ∃ t, exec (.ownData m) s = .next t ∧ (homeLine t l).busy = none ∧ (homeLine t l).st = 2 ∧
          (homeLine t l).data = m.data ∧ (homeLine t l).marks = m.marks) ∧
    (mayArrive s .ownDone m = true → (∃ t, exec (.ownDone m) s = .next t) ∧
      ∀ x : Txn, awaited s .ownDone m = true → h.busy = some x → x.msg.line = l → x.invs = [] → x.fill = none →
        (∀ f ∈ s.coh.conflictQ, f.msg.line ≠ l) →
        ∃ t, exec (.ownDone m) s = .next t ∧ (homeLine t l).busy = none ∧ (homeLine t l).st = 3 ∧
          (homeLine t l).presence = setBit 0 (agentPlace x.msg.src) true) ∧
    (∀ (p : Fin 4) (r : Refused) (rest : List Refused),
      takeFirst (fun r : Refused => r.port == p && r.msg.line == l && r.told) s.coh.refused = some (r, rest) →
      sget (fun _ => 0) s.coh.credits (p.val * 4 + homeSlice l) < 32 → unanswered s r.msg.src r.msg.dst < 64 →
      ∃ t, exec (.creditedResend p l) s = .next t ∧ t.coh.refused = rest ∧ t.mem = s.mem ∧
        sget (fun _ => 0) t.coh.credits (p.val * 4 + homeSlice l) =
          sget (fun _ => 0) s.coh.credits (p.val * 4 + homeSlice l) + 1 ∧
        Sent t r.kind fun x => x = { r.msg with credited := true, seq := x.seq })) ∧
  -- INV, FWD_RD, FWD_OWN, RECALL, PRES_ACK, WB_ACK, DATA, GRANT, ACK and RETRY
  (∀ (m : Msg) (s : State),
    let l := m.line
    (∀ (kind : MsgKind) (i : Instr), (kind, i) = (.inv, .inv m) ∨ (kind, i) = (.fwdRd, .fwdRd m) ∨
      (kind, i) = (.fwdOwn, .fwdOwn m) ∨ (kind, i) = (.recall, .recall m) → mayArrive s kind m = true →
      ∃ t, exec i s = .next t) ∧
    (mayArrive s .inv m = true → FirstTime s .inv m → (∀ b, portOf m.dst = some b → (nearLine s b.val l).pres = 0) →
      ∃ t, exec (.inv m) s = .next t ∧ t.mem = s.mem ∧ Sent t .invAck (Replies m) ∧
        ∀ b, portOf m.dst = some b → nearLine t b.val l = NearLine.none) ∧
    (∀ b : Fin 4, portOf m.dst = some b → grantTo s m.dst l = false →
      let n := nearLine s b.val l
      let carries (r : Msg) : Prop := r.line = l ∧ r.data = n.data ∧ r.marks = n.marks
      (mayArrive s .fwdRd m = true → FirstTime s .fwdRd m → ∃ t, exec (.fwdRd m) s = .next t ∧ t.mem = s.mem ∧
        (Sent t .data fun r => carries r ∧ r.dst = m.hint.toNat) ∧ (Sent t .ownData fun r => carries r ∧ r.dst = m.src) ∧
        (nearLine t b.val l).st = (if n.st = 2 then 1 else n.st) ∧ (nearLine t b.val l).data = n.data) ∧
      (mayArrive s .fwdOwn m = true → FirstTime s .fwdOwn m → n.pres = 0 →
        ∃ t, exec (.fwdOwn m) s = .next t ∧ t.mem = s.mem ∧
          (Sent t .grant fun r => carries r ∧ r.dst = m.hint.toNat) ∧ Sent t .ownDone (Replies m) ∧
          nearLine t b.val l = if n.st = 3 then n else NearLine.none) ∧
      (mayArrive s .recall m = true → FirstTime s .recall m → n.pres = 0 →
        ∃ t, exec (.recall m) s = .next t ∧ t.mem = s.mem ∧
          (Sent t .ownData fun r => carries r ∧ r.dst = m.src) ∧
          nearLine t b.val l = if n.st = 3 then n else NearLine.none)) ∧
    (mayArrive s .presAck m = true → (∃ t, exec (.presAck m) s = .next t) ∧
      (awaited s .presAck m = true → (∀ f ∈ s.coh.accepted, f.msg.line ≠ l) → ∃ t, exec (.presAck m) s = .next t ∧
        ∀ b, portOf m.dst = some b → (nearLine t b.val l).pres = (nearLine s b.val l).pres - 1)) ∧
    (mayArrive s .wbAck m = true → (∃ t, exec (.wbAck m) s = .next t) ∧
      (awaited s .wbAck m = true → ∃ t, exec (.wbAck m) s = .next t ∧
        ∀ b, portOf m.dst = some b → (nearLine s b.val l).st = 3 → nearLine t b.val l = NearLine.none)) ∧
    (mayArrive s .data m = true → (∃ t, exec (.data m) s = .next t) ∧
      ∀ (b : Fin 4) (w : NearWait) (rest : List NearWait) (c : Nat) (x : LoadRec) (y : LineWait),
        awaited s .data m = true → portOf m.dst = some b → replyCore s m = some c → m.hint = 0 →
        takeRead s b m = some (w, rest) → w.msg.hint = 0 →
        (s.core c).loads = [x] → x.tag = m.tag → x.lines = [y] → y.line = l → y.sent = true →
        (s.core c).writes = [] → (s.core c).xfers = [] →
        ∃ t, exec (.data m) s = .next t ∧ t.mem = s.mem ∧
          (t.core c).loads = [{ x with lines := [{ y with got := true, data := m.data, marks := m.marks }] }]) ∧
    (mayArrive s .grant m = true → (∃ t, exec (.grant m) s = .next t) ∧
      ∀ b, portOf m.dst = some b → awaited s .grant m = true → (∀ f ∈ s.coh.accepted, f.msg.line ≠ l) →
        (∀ w ∈ s.coh.nearWait, ¬(w.slice = b ∧ w.msg.line = l)) → ∃ t, exec (.grant m) s = .next t ∧
          (nearLine t b.val l).st = 2 ∧ (nearLine t b.val l).data = m.data ∧ (nearLine t b.val l).marks = m.marks) ∧
    (∀ p, answeredPacket s m = some p → ∃ t, exec (.ack m) s = .next t) ∧
    (answeredPacket s m = none → mayArrive s .ack m = true → (∃ t, exec (.ack m) s = .next t) ∧
      ∀ (c : Nat) (w : WriteRec), awaited s .ack m = true → replyCore s m = some c → m.marks = 0 →
        (s.core c).writes = [w] → w.tag = m.tag → w.msg.line = l → (s.core c).loads = [] → (s.core c).xfers = [] →
        ∃ t, exec (.ack m) s = .next t ∧ (t.core c).writes = []) ∧
    (mayArrive s .retry m = true → (∃ t, exec (.retry m) s = .next t) ∧
      (awaited s .retry m = true → ∃ t, exec (.retry m) s = .next t ∧ ∀ r,
        (s.coh.refused.find? fun r => samePacket r.msg { m with src := m.dst, dst := m.src } && !r.told) = some r →
        { r with told := true } ∈ t.coh.refused)))

namespace Sys2Proof.Claims
open Sys2Proof Sys2Proof.Machine

/-! ## Words of the statements about reduction, links and fail-over -/

/-- A COLLECTIVE reduce as it starts, with its tag entries loaded, before its first packet (R344, R347). -/
def redStart (s : State) (c : CmdRef) (x : Step) (y : Cmd) (cores : List CoreNo) : State :=
  let a := setSlice (cores.foldl (fun s k => noteRan s k.val x.fn.val) (beginCmd s c x)) c none
  let sites := (List.range (bits y.block 64 16)).map fun i => siteOfCore a (senderOf cores i)
  loadTags a x y sites ((lineParts (y.field 0x18 8) (bits y.block 0 64)).map fun p =>
    redTarget a (cmdAccess (siteOfCore a (senderOf cores 0)) x y) p.1)

/-- A hardware record of a cause that names a block waits for its flash write (R525, R527). -/
def HwLogged (t : State) (cause : Nat) (b : Block) : Prop :=
  ∃ r ∈ t.mgmt.logPend, r.kind = 2 ∧ r.cause = cause ∧ r.block = blockNo b

end Sys2Proof.Claims

open Sys2Proof Sys2Proof.Machine Sys2Proof.Claims

/-- Reduces start, combine their packets in order and end. (1) RADD at a Chive unit, at a home and at a port;
CHIVE_HOLD_EXPIRY. A reduction packet in flight completes at a unit of its route, at the home of its line once that is
not BUSY, and at the port of its window's partner. At a unit with a tag entry of FAN_IN n: with no combining entry of
its key and room for one it is held as a new entry that has absorbed one packet when n > 1; with an entry that still
lacks more than one it is combined into that entry; without a tag entry or without room it passes and is counted in
3090h:05h. At the home of an idle line with no copy elsewhere its additions are applied to the home's data. A resend
of a packet already known changes nothing. When the hold time of an entry has passed, or its unit is full,
CHIVE_HOLD_EXPIRY sends it as one packet of the unit, or keeps it for a place of its sender. (2) COLLECTIVE reduce,
TAG_DONE and the timeout of a reduce that waits for a port. A COLLECTIVE reduce that may start on the cores it is
given completes: where its buffers may be read and its destination written, with the packets sent and the reduce
outstanding until it settles, and when it waits for ports that have kept nothing for it, it stays outstanding with
those ports; where they may not, with the command stopped. TAG_DONE on a port that is up is taken by the oldest reduce
that waits for it, or kept while the port holds fewer than 256 of the function, or refused. A reduce that has waited
for the timeout ends its step FAULT_UNRECOVERED and is outstanding no more. -/
def Obligations.Reductions : Prop :=
  -- RADD at a Chive unit, at a home and at a port; CHIVE_HOLD_EXPIRY
  (∀ (u : Nat) (p : RedPacket) (s : State),
    (p ∈ s.net.redNet → isUnit u = true → (redUnits s p).contains u = true →
      let old := s.net.chive.find? fun e => decide (e.unit = u) && sameKey e.packet p
      let held := (s.net.chive.filter fun e => e.unit = u).length
      (∃ t, exec (.radd u p) s = .next t) ∧
      (∀ n, fanInOf s u p = some n → 1 < n → old = none → held < unitEntries u →
        ∃ t, exec (.radd u p) s = .next t ∧ p ∉ t.net.redNet ∧
          (⟨u, p, 1, [(p.src, p.seq)], s.now⟩ : ChiveEntry) ∈ t.net.chive ∧
          t.obj 0x3090 4 (dieIndex u) = satAdd 64 (s.obj 0x3090 4 (dieIndex u)) 1) ∧
      (∀ n e, fanInOf s u p = some n → old = some e → e.local + 1 < n →
        ∃ t, exec (.radd u p) s = .next t ∧ p ∉ t.net.redNet ∧
          { e with packet := combine e.packet p, absorbed := e.absorbed + 1,
                   senders := e.senders ++ [(p.src, p.seq)] } ∈ t.net.chive) ∧
      ((fanInOf s u p = none ∧ fromPort p.src = false) ∨
          ((fanInOf s u p).isSome = true ∧ old = none ∧ unitEntries u ≤ held) →
        exec (.radd u p) s = .next (s.bump 0x3090 5 (dieIndex u) 1))) ∧
    (p ∈ s.net.redNet → isPeerLine p.line = false → u = agentHome (homeSlice p.line) →
      (lineBusy (settle s p.line) p.line = false → ∃ t, exec (.radd u p) s = .next t) ∧
      let h := homeLine s p.line
      (lineBusy s p.line = false → unsettled s p.line = false → (h.st = 1 ∨ h.st = 2) → h.presence = 0 →
        h.discarded = false → p.line.host = false →
        ∃ t, exec (.radd u p) s = .next t ∧
          (homeLine t p.line).data = (runOps (redKind p.format) h.marks (redOps p) h.data).1)) ∧
    (p ∈ s.net.redNet → isUnit u = false → isPeerLine p.line = true → u = redDst s p →
      ∃ t, exec (.radd u p) s = .next t) ∧
    (p ∉ s.net.redNet → redKnown s p = true → exec (.radd u p) s = .next s) ∧
    (∀ (f : Fn) (tag : BitVec 16) (l : Line) (ns : Nat) (e : ChiveEntry),
      (s.net.chive.find? fun e => decide (e.unit = u) && e.packet.fn == f && e.packet.tag == tag && e.packet.line == l) = some e →
      s.now ≤ ns → e.sinceNs + netLimit s 2 ≤ ns ∨ unitEntries u ≤ (s.net.chive.filter fun x => decide (x.unit = u)).length →
      ∃ t, exec (.chiveHoldExpiry u f tag l ns) s = .next t ∧ t.now = ns ∧ e ∉ t.net.chive ∧
        ∃ q ∈ t.net.redSent, q.absorbed = e.senders ∧ q.packet.src = u ∧ q.packet.line = e.packet.line ∧
          q.packet.data = e.packet.data ∧ q.packet.mask = e.packet.mask ∧ q.packet.cnt = e.packet.cnt ∧
          q.packet.tag = e.packet.tag ∧ (q.held = false → q.packet ∈ t.net.redNet))) ∧
  -- COLLECTIVE reduce, TAG_DONE and the timeout of a reduce that waits for a port
  ((∀ (c : CmdRef) (cores : List CoreNo) (s : State) (x : Step) (y : Cmd),
      startable s c 3 = some (x, y) → y.field 0xC 1 = 1 → givenOk s x c.cmd y cores = true →
      let parts := redParts s x y cores
      match runRed c.cmd y parts 0 (redStart s c x y cores) with
      | (.all, a) =>
        let r := redCmdOf a c x y
        exec (.collectiveReduce c cores) s = .next
          (settleReduce (takeKept { a with net := { a.net with reds := a.net.reds ++ [r] } } c.step c.cmd) c.step c.cmd) ∧
        (r.waiting ≠ 0 → r.window = none → a.peer.tags = [] → findRed a c.step c.cmd = none →
          ∃ t, exec (.collectiveReduce c cores) s = .next t ∧ findRed t c.step c.cmd = some r ∧ r.fn = x.fn ∧
            r.waiting.toNat = bits y.block 80 8 ∧ r.tag.toNat = y.field 0xE 2 % 65536)
      | (.stopped f n, a) => exec (.collectiveReduce c cores) s = .next
          (stopUnits ((parts.drop n).foldl (fun s q => looseParts q.1 [] (sendPart q.1 c.cmd y) [q.2] s) (pruneTags a)) c f)
      | (.busy, _) => exec (.collectiveReduce c cores) s = .fault .cannotOccur) ∧
    (∀ (c : CmdRef) (cores : List CoreNo) (s : State) (x : Step) (y : Cmd) (acc : Access) (p : Part),
      startable s c 3 = some (x, y) → y.field 0xC 1 = 1 → givenOk s x c.cmd y cores = true →
      redParts s x y cores = [(acc, p)] → lineParts p.src p.n = [(p.src, p.n)] →
      TouchableNow (redStart s c x y cores) x.fn p.src false → TouchableNow (redStart s c x y cores) x.fn p.a true →
      ∃ t, exec (.collectiveReduce c cores) s = .next t) ∧
    (∀ (p : Fin 8) (f : Fn) (tag : BitVec 16) (s : State), portUp s p.val = true →
      let kept := (s.peer.tags.filter fun t => t.1 = p.val ∧ t.2.1 = f).length
      ((waitingRed s p.val f tag).isSome = true → ∃ t, exec (.tagDone p f tag) s = .next t ∧
        Output.tagDoneReply p.val f tag true ∈ t.out ∧ t.peer.tags = s.peer.tags) ∧
      (waitingRed s p.val f tag = none → kept < 256 → ∃ t, exec (.tagDone p f tag) s = .next t ∧
        Output.tagDoneReply p.val f tag true ∈ t.out ∧ t.peer.tags = s.peer.tags ++ [(p.val, f, tag)] ∧ t.net = s.net) ∧
      (waitingRed s p.val f tag = none → 256 ≤ kept →
        exec (.tagDone p f tag) s = .next (s.emit (.tagDoneReply p.val f tag false)))) ∧
    ∀ (c : CmdRef) (s : State) (r : RedCmd), findRed s c.step c.cmd = some r → r.waiting ≠ 0 →
      r.start + netLimit s 3 ≤ s.tick →
      ∃ t, exec (.collPeerTimeout c) s = .next t ∧ findRed t c.step c.cmd = none ∧
        ((findStep s c.step).isSome = true → hasStatus t c.step .faultUnrecovered))

/-- Flits, NAKs and timeouts of a link, and the end-to-end retry. (1) E2E_TIMEOUT resends 16 times and then fails the
access. Once a message that its sender keeps has had no reply for the timeout, its timeout completes: while it has
been resent fewer than 16 times one more resend is counted, in the entry and in 3090h:03h for the die of the sender,
the other entries stay, and the message is in flight; after 16 resends the entry of a request is given up, and a
message of a home or a holder stays as it is. A reduction packet is resent the same way, and given up after 16
resends. (2) FLIT_RECEIVE, NAK and LINK_ACK_TIMEOUT on a link direction. A flit with a bad CRC, or over an
uncorrectable codeword, is discarded, and counted for a bundle: the receiver expects the same SEQ and has sent NAK.
Codewords that end with a flit of a port are counted. A good flit that its sender may have sent completes; a good DATA
flit that carries no ACK, NAK or credit is accepted when it has the expected SEQ, which then is the next modulo 4,096,
and is discarded otherwise. A NAK that names a SEQ which the receiver can have accepted completes; it drops everything
up to its SEQ from the retry buffer and resends and counts the rest; a timeout resends and counts the whole buffer. -/
def Obligations.RetryOnLinksAndEndToEnd : Prop :=
  -- E2E_TIMEOUT resends 16 times and then fails the access
  (∀ (src dst ns : Nat) (seq : BitVec 16) (lost : Bool) (s : State), s.now ≤ ns →
    (∀ (pre post : List E2e) (e : E2e), s.net.e2e = pre ++ e :: post →
      (∀ x ∈ pre, ¬(x.src = src ∧ x.dst = dst ∧ x.seq = seq.toNat)) → e.src = src → e.dst = dst → e.seq = seq.toNat →
      e.sentNs + 1000 * netLimit s 1 ≤ ns →
      (e.resends < 16 → ∃ t, exec (.e2eTimeout src dst seq ns lost) s = .next t ∧
        t.net.e2e = pre ++ { e with resends := e.resends + 1, sentNs := ns } :: post ∧ t.coh.home = s.coh.home ∧
        t.cores = s.cores ∧ t.mem = s.mem ∧ (Sent t e.kind fun m => m = e.msg) ∧
        t.obj 0x3090 3 (dieIndex src) = satAdd 64 (s.obj 0x3090 3 (dieIndex src)) 1) ∧
      (16 ≤ e.resends → isKept e.kind = true → (∃ t, exec (.e2eTimeout src dst seq ns lost) s = .next t) ∧
        (coreOfSite s e.msg.req = none → e.kind ≠ .rdo →
          ∃ t, exec (.e2eTimeout src dst seq ns lost) s = .next t ∧ e ∉ t.net.e2e ∧ t.cores = s.cores)) ∧
      (16 ≤ e.resends → isKept e.kind = false → exec (.e2eTimeout src dst seq ns lost) s = .next (s.at ns))) ∧
    ∀ (pre post : List RedSent) (r : RedSent), s.net.redSent = pre ++ r :: post →
      (∀ e ∈ s.net.e2e, ¬(e.src = src ∧ e.dst = dst ∧ e.seq = seq.toNat)) →
      (∀ x ∈ pre, ¬(x.held = false ∧ x.packet.src = src ∧ x.dst = dst ∧ x.packet.seq = seq.toNat)) →
      r.held = false → r.packet.src = src → r.dst = dst → r.packet.seq = seq.toNat → r.sentNs + 1000 * netLimit s 1 ≤ ns →
      (r.resends < 16 → ∃ t, exec (.e2eTimeout src dst seq ns lost) s = .next t ∧
        t.net.redSent = pre ++ { r with resends := r.resends + 1, sentNs := ns } :: post ∧ r.packet ∈ t.net.redNet) ∧
      (16 ≤ r.resends → (∃ t, exec (.e2eTimeout src dst seq ns lost) s = .next t) ∧
        (r.absorbed ≠ [] → (∀ x ∈ s.net.redSent, x.held = false) →
          ∃ t, exec (.e2eTimeout src dst seq ns lost) s = .next t ∧ r ∉ t.net.redSent ∧ r.packet ∉ t.net.redNet))) ∧
  -- FLIT_RECEIVE, NAK and LINK_ACK_TIMEOUT on a link direction
  (∀ (l : LinkId) (s : State),
    let k := linkKey l
    let d := linkOf s k
    let count (t : State) (idx sub e n : Nat) : Prop := t.obj idx sub e = satAdd 64 (s.obj idx sub e) n
    (∀ f corr unc, flitGood f = false ∨ unc ≠ 0 → ∃ t, exec (.flitReceive l f corr unc) s = .next t ∧
      (linkOf t k).expect = d.expect ∧ (linkOf t k).nakSent = true ∧ (∀ b, l = .bundle b → count t 0x3090 2 b.val 1) ∧
      ∀ p, l = .port p → count t 0x30A0 1 p.val corr ∧ count t 0x30A0 2 p.val unc) ∧
    (∀ f corr, flitGood f = true → flitSent s k f = true → (∃ t, exec (.flitReceive l f corr 0) s = .next t) ∧
      (flitKind f = 0 → f.ack.getLsbD 12 = false → f.ack.getLsbD 13 = false → f.creditA.getLsbD 3 = false →
        f.creditB.getLsbD 3 = false →
        ∃ t, exec (.flitReceive l f corr 0) s = .next t ∧ (linkOf t k).unacked = d.unacked ∧
          (∀ b, l = .bundle b → t.dict = s.dict) ∧
          if flitSeq f = d.expect then (linkOf t k).expect = (d.expect + 1) % 4096 ∧ (linkOf t k).nakSent = false
          else (linkOf t k).expect = d.expect ∧ (linkOf t k).nakSent = true)) ∧
    (∀ seq : BitVec 12, ackSeen s k seq.toNat = true → (∃ t, exec (.nak l seq) s = .next t) ∧
      ∀ (pre rest : List (Nat × Flit)) (x : Nat × Flit), d.unacked = pre ++ x :: rest → flitSeq x.2 = seq.toNat →
        (∀ y ∈ pre, flitSeq y.2 ≠ seq.toNat) → d.wait = [] →
        ∃ t, exec (.nak l seq) s = .next t ∧ (linkOf t k).unacked = rest ∧ (linkOf t k).next = d.next ∧
          (∀ b, l = .bundle b → count t 0x3090 1 b.val rest.length) ∧
          ∀ p, l = .port p → count t 0x30A0 3 p.val rest.length) ∧
    (d.unacked ≠ [] → ∃ t, exec (.linkAckTimeout l) s = .next t ∧ (linkOf t k).unacked = d.unacked ∧
      (linkOf t k).resends = d.resends + 1 ∧ (∀ b, l = .bundle b → count t 0x3090 1 b.val d.unacked.length) ∧
      ∀ p, l = .port p → count t 0x30A0 3 p.val d.unacked.length))

/-- Lane sparing, bundle retirement, drained slots, lost links, silent neighbours and elevators. LANE_FLAG of a lane above
its margin limit or without lock, and LANE_TEST of a bundle that resends too much, flag their lanes. LANE_SWAP pauses
a bundle that has enough spares for its flagged lanes; LANE_SWAP_DONE resumes it with those spares used, no lane
flagged, and a record. A bundle that lacks spares is retired at the last SEQ that its receiver accepted: its direction
has one bundle less, no slot stays on it while another serves, and the module is flagged. A drained slot on whose old
path no packet is unanswered takes the other path of its pair. With no bundle left in a direction every live step ends
FAULT_UNRECOVERED and the module serves no more. A silent neighbour is reported; an elevator that fails more than 16
times in 1 ms is out of use and its failures are counted, and with the last one of its die the module serves no more. -/
def Obligations.LanesBundlesAndElevators : Prop :=
  ∀ s : State,
    (∀ (b : Fin 96) (lane : Fin 136) (margin : Nat) (lock : Bool), bundleState s b.val ≠ 3 →
      lock = true ∨ netLimit s 4 < margin → ∃ t, exec (.laneFlag b lane margin lock) s = .next t ∧
      sget (fun _ => false) t.net.laneFlags (b.val * 136 + lane.val) = true ∧ t.dict = s.dict) ∧
    (∀ (b : Fin 96) (n : Nat) (bad : List (Fin 136)), bundleState s b.val ≤ 1 →
      (flagged s b.val = 0 ∧ netLimit s 5 < n) ∨ 16 ≤ (linkOf s b.val).resends → ∃ t, exec (.laneTest b n bad) s = .next t ∧
      (∀ l ∈ bad, sget (fun _ => false) t.net.laneFlags (b.val * 136 + l.val) = true) ∧
      (∀ l ∉ bad, sget (fun _ => false) t.net.laneFlags (b.val * 136 + l.val) =
        sget (fun _ => false) s.net.laneFlags (b.val * 136 + l.val)) ∧ t.dict = s.dict) ∧
    (∀ b : Fin 96, bundleState s b.val ≤ 1 → 0 < flagged s b.val → flagged s b.val + s.obj 0x4060 2 b.val ≤ 8 →
      ∃ t, exec (.laneSwap b) s = .next t ∧ bundleState t b.val = 2 ∧ t.net = s.net) ∧
    (∀ b : Fin 96, bundleState s b.val = 2 → ∃ t, exec (.laneSwapDone b) s = .next t ∧ bundleState t b.val = 1 ∧
      flagged t b.val = 0 ∧ t.obj 0x4060 2 b.val = s.obj 0x4060 2 b.val + flagged s b.val ∧
      HwLogged t 0x54 (blockOf 6 b.val)) ∧
    (∀ (b : Fin 96) (seq : BitVec 12), bundleState s b.val ≤ 1 → 0 < flagged s b.val →
      8 < flagged s b.val + s.obj 0x4060 2 b.val → seq.toNat = ((linkOf s b.val).expect + 4095) % 4096 →
      ∃ t, exec (.bundleRetired b seq) s = .next t ∧ bundleState t b.val = 3 ∧
        t.obj 0x4060 3 (b.val / 12) = s.obj 0x4060 3 (b.val / 12) - 1 ∧ t.obj 0x4000 1 0 = 1 ∧
        ((∃ k < 12, k ≠ b.val % 12 ∧ bundleState s (12 * (b.val / 12) + k) ≠ 3) →
          ∀ slot < 64, slotBundle t (b.val / 12) slot ≠ b.val % 12)) ∧
    (∀ (pair : Fin 2) (slot : Fin 64), (pair.val, slot.val) ∈ s.net.drainSlots → pairWaits s pair.val slot.val = false →
      ∃ t, exec (.slotDrainDone pair slot) s = .next t ∧ (pair.val, slot.val) ∉ t.net.drainSlots ∧
        ∀ n : Fin 64, bit (t.obj 0x4060 5 pair.val) n.val =
          (if n = slot then !bit (s.obj 0x4060 5 pair.val) n.val else bit (s.obj 0x4060 5 pair.val) n.val)) ∧
    (∀ dir : Fin 8, s.obj 0x4060 3 dir.val = 0 → s.net.lost = false → ∃ t, exec (.linkLost dir) s = .next t ∧
      t.net.lost = true ∧ t.obj 0x4000 1 0 = 1 ∧
      ∀ x ∈ s.sage.steps, x.phase ≠ .ended → hasStatus t x.key .faultUnrecovered) ∧
    (∀ psn : Psn, ∃ t, exec (.meshSilence psn) s = .next t ∧ psn.val ∈ t.net.reported ∧ t.dict = s.dict) ∧
    ∀ (e : Fin 64) (n : Nat), s.obj 0x4010 3 e.val = 0 → 16 < n → (∃ t, exec (.elevatorFault e n) s = .next t) ∧
      (2 ≤ usableElevators s (e.val / 8) → ∃ t, exec (.elevatorFault e n) s = .next t ∧ t.obj 0x4010 3 e.val = 1 ∧
        t.obj 0x3090 6 e.val = satAdd 64 (s.obj 0x3090 6 e.val) n ∧ HwLogged t 0x52 (blockOf 3 e.val) ∧
        t.net.lost = s.net.lost) ∧
      (usableElevators s (e.val / 8) = 1 → ∃ t, exec (.elevatorFault e n) s = .next t ∧ t.net.lost = true)

/-- Failed cores, routers, banks and agents, and the spares that take over. CORE_FAULT fences a serving core: it runs
nothing, its site is failed, and a record of cause 50h is written. At a tick boundary 20 µs after the fault
SPARE_TAKEOVER gives the number of a fenced core to the chosen free spare, or takes it out of service and flags the
module; at a tick boundary CORE_SWAP gives the number of a slow or aged idle core to a free spare of 2,700 MHz and
retires the old site. The next take-over starts when none runs. ROUTER_FAULT marks the router failed and logs cause
51h. An unused spare bank that fails is retired; a bank in use passes its numbers to the unused spare; the take-over
ends when the spare serves. A fenced agent that transactions wait for is completed. -/
def Obligations.FailOverAndSpares : Prop :=
  ∀ s : State,
    (∀ (c : CoreNo) (ns : Nat), s.now ≤ ns → coreLive s c.val = true → siteOfCore s c.val < 288 →
      ∃ t, exec (.coreFault c ns) s = .next t ∧ (t.core c.val).hw.fenced = true ∧ (t.core c.val).cmd = none ∧
        t.obj 0x4010 2 (siteOfCore s c.val) = 3 ∧ HwLogged t 0x50 (blockOf 1 (siteOfCore s c.val)) ∧ t.now = ns) ∧
    (∀ c : CoreNo, inService s c.val = true → (s.core c.val).hw.fenced = true → siteOfCore s c.val < 288 →
      blockOf 1 (siteOfCore s c.val) ∈ s.ctl.takeover → s.now = s.tickStart →
      siteDue s (siteOfCore s c.val) = true →
      (∀ p, chooseSpare s (siteOfCore s c.val / 36) = some p → ∃ t, exec (.spareTakeover c) s = .next t ∧
        siteOfCore t c.val = p ∧ t.core c.val = Core.idle ∧ blockOf 1 (siteOfCore s c.val) ∉ t.ctl.takeover) ∧
      (chooseSpare s (siteOfCore s c.val / 36) = none → ∃ t, exec (.spareTakeover c) s = .next t ∧
        inService t c.val = false ∧ t.obj 0x4000 1 0 = 1)) ∧
    (∀ (c : CoreNo) (p : Nat), coreLive s c.val = true → (s.core c.val).cmd = none → s.now = s.tickStart →
      siteOfCore s c.val < 288 → s.obj 0x4010 2 (siteOfCore s c.val) ≠ 1 →
      s.obj 0x4030 3 c.val = 1 ∨ siteCeiling s (siteOfCore s c.val) < 2700 →
      ((freeSpares s (siteOfCore s c.val / 36)).find? fun p => decide (2700 ≤ siteCeiling s p)) = some p →
      ∃ t, exec (.coreSwap c) s = .next t ∧ siteOfCore t c.val = p ∧ t.core c.val = Core.idle ∧
        t.obj 0x4010 2 (siteOfCore s c.val) = 3 ∧ t.obj 0x4010 2 p = 0 ∧ t.obj 0x4030 3 c.val = 0) ∧
    (∀ (b : Block) (rest : List Block), s.ctl.takeover = [] → s.ctl.waiting = b :: rest →
      ∃ t, exec (.takeoverQueued b) s = .next t ∧ t.ctl.takeover = [b] ∧ t.ctl.waiting = rest ∧ t.obj 0x4070 4 0 = 1) ∧
    (∀ (psn : Psn) (also : List Psn) (ns : Nat), s.now ≤ ns → s.obj 0x4060 4 psn.val = 0 →
      ∃ t, exec (.routerFault psn also ns) s = .next t ∧ t.obj 0x4060 4 psn.val = 1 ∧ HwLogged t 0x51 (blockOf 2 psn.val)) ∧
    (∀ (sl : Fin 4) (b : Fin 17) (un : List Nat), bankBusy s sl.val b.val = false → s.net.lost = false →
      (bankState s sl.val b.val < 2 → ∃ t, exec (.bankFault sl b un) s = .next t) ∧
      (bankState s sl.val b.val = 1 → ∃ t, exec (.bankFault sl b un) s = .next t ∧ bankState t sl.val b.val = 2 ∧
        t.mem = s.mem ∧ t.coh = s.coh) ∧
      (bankState s sl.val b.val = 0 → bankState s sl.val 16 = 1 → ∃ t, exec (.bankFault sl b un) s = .next t ∧
        bankState t sl.val b.val = 2 ∧ bankState t sl.val 16 = 0 ∧
        ∀ n < 16, numberBank s sl.val n = b.val → numberBank t sl.val n = 16)) ∧
    (∀ (sl : Fin 4) (b : Block), (s.ctl.takeover.find? fun b => decide (b.kind = 7) && decide (b.no.toNat / 17 = sl.val)) = some b →
      ∃ t, exec (.bankSpareReady sl) s = .next t ∧ b ∉ t.ctl.takeover ∧ t.coh = s.coh) ∧
    ∀ a : Nat, waitsFor s a = true → a ∈ s.net.fenced ∨ (portOf a).isSome = true →
      ∃ t, exec (.agentFenced a) s = .next t

namespace Sys2Proof.Claims
open Sys2Proof Sys2Proof.Machine

/-! ## Words of the statements about memory rows and host windows -/

/-- A log record that satisfies `p` waits for its flash write. -/
def Logged (t : State) (p : LogRec → Prop) : Prop := ∃ r ∈ t.mgmt.logPend, p r

/-- Every byte of device memory outside `n` bytes from `a` is as before. -/
def DevSameOutside (s t : State) (a n : Nat) : Prop :=
  ∀ x, ¬(a ≤ x ∧ x < a + n) → memGet t.mem.dev x = memGet s.mem.dev x

/-- The accesses of a SCRUB: from the Chervil of the die on which its plan placed it, not latency-critical (R58, R292). -/
def scrubAccess (s : State) (c : CmdRef) (x : Step) (y : Cmd) : Access :=
  { cmdAccess (agentChervil ((placeOf s c).elim 0 fun p => p.die.val)) x y with lat := false }

end Sys2Proof.Claims

open Sys2Proof Sys2Proof.Machine Sys2Proof.Claims

/-- Mirrors, lost channels and scrub passes. (1) MARK_ONLY_UPDATE, MIRROR_COPY_DONE, lost channels and the end of a scrub
pass. A mark-only update that holds a slot and comes first on its code page is done: on a working channel the line is
marked discarded in memory, and no byte changes. A mirror copy whose code pages have passed the queues makes the entry
ACTIVE; between ranges that do not meet, with the channels of both in service, it leaves each mirror line as its
primary line's controller returns that. A lost slow channel reads marked from now on: where its region has room its
code pages are remapped with every sector marked; a lost fast channel reads marked; both flag the module and log cause
5Ch. A scrub pass of the dictionary whose code pages have passed the queues ends, and without errors changes no byte.
(2) A SCRUB that may start, at a moment before the guard, checks the code pages of its slice. Where some are left, it
completes with the pages and counts kept; with the last, where its 256 B record can be written it is done, and where
RESULT has no mapping it is cancelled and its step faults with cause 8. A SCRUB cancelled in mid-pass writes the
counts it reached with STATUS 1, and is cancelled. -/
def Obligations.MirrorsLostChannelsAndScrubbing : Prop :=
  -- MARK_ONLY_UPDATE, MIRROR_COPY_DONE, lost channels and the end of a scrub pass
  (∀ s : State,
    (∀ (no : Nat) (o : CtrlOp) (c : Ctrl), slotOp s no (fun o => o.kind == .mark) = some (o, c) →
      ∃ t, exec (.markOnlyUpdate no) s = .next t ∧ ctrlOf t (chanOf s no) = c ∧ t.mem.dev = s.mem.dev ∧ t.coh = s.coh ∧
        (pageLost s no = false → sget (fun _ => false) t.mem.discard no = true)) ∧
    (∀ e : Fin 64, s.obj 0x2051 2 e.val = 1 → jobOpen s (mirrorJob e.val) = false →
      let p := repPrimary s e.val / 512
      let m := repMirror s e.val / 512
      let n := repPages s e.val * 128
      (∃ t, exec (.mirrorCopyDone e) s = .next t ∧ t.obj 0x2051 2 e.val = 2) ∧
      ((∀ i < n, pageLost s (p + i) = false ∧ pageLost s (m + i) = false) → p + n ≤ m ∨ m + n ≤ p →
        ∃ t, exec (.mirrorCopyDone e) s = .next t ∧ DevSameOutside s t (512 * m) (512 * n) ∧
          ∀ i < n, memData t (m + i) = (ctrlRead s (p + i)).1 ∧ memMarks t (m + i) = (ctrlRead s (p + i)).2)) ∧
    (∀ ch : Fin 96, s.obj 0x4050 5 (128 + ch.val) ≤ 1 →
      ∃ t, exec (.slowChannelLost ch) s = .next t ∧ t.obj 0x4000 1 0 = 1 ∧
        (Logged t fun r => r.cause = 0x5C ∧ r.detail = 128 + ch.val) ∧ t.obj 0x4050 5 (128 + ch.val) = 3 ∧
        (regionFull s ch.val = false → ∀ no, channelOf no = 128 + ch.val → memMarks t no = 15) ∧
        (regionFull s ch.val = true → ∀ no, chanOf s no = 128 + ch.val → (ctrlRead t no).2 = 15)) ∧
    (∀ ch : Fin 128, s.obj 0x4050 5 ch.val ≤ 1 →
      ∃ t, exec (.fastChannelLost ch) s = .next t ∧ t.obj 0x4000 1 0 = 1 ∧ t.obj 0x4050 5 ch.val = 3 ∧
        (Logged t fun r => r.cause = 0x5C ∧ r.detail = ch.val) ∧ t.mem = s.mem ∧
        ∀ no, channelOf no = ch.val → (ctrlRead t no).2 = 15) ∧
    ∀ (ns : Nat) (errs : List (Nat × ArrayErr)), s.mem.scrub.isSome = true → s.now ≤ ns → jobOpen s scrubJob = false →
      ∃ t, exec (.scrubPassDone ns errs) s = .next t ∧ t.mem.scrub = none ∧ t.obj 0x2052 4 0 = 0 ∧ t.now = ns ∧
        (errs = [] → t.mem.dev = s.mem.dev)) ∧
  -- SCRUB
  (∀ (c : CmdRef) (t0 : Nat) (work : SliceWork) (s : State) (x : Step) (y : Cmd),
    let base := y.field 0x10 8
    let len := y.field 0x18 8
    (startable s c 7 = some (x, y) → s.now ≤ t0 → t0 < guardStart s →
      let b := beginCmd (s.at t0) c x
      let acc := scrubAccess b c x y
      let left := pagesOf base len - y.units
      let p := scrubPages (if bit (y.field 0xC 2) 0 then none else some acc) work.errs work.units
        (base / 2048 * 2048 + 2048 * y.units) b y.counts
      let d := updStep (countUnits p.1 c work.units work.endNs) c.step fun t => { t with cmds := t.cmds.zipIdx.map fun q =>
        if q.2 = c.cmd then { q.1 with tally := p.2.keep } else q.1 }
      let w := vwrite d acc (bits y.block 0 64) 256 (scrubRecord base len t0 work.endNs 0 p.2)
      workOk b t0 left work = true →
      (work.units ≠ left → exec (.scrub c t0 false work) s = .next d) ∧
      (work.units = left → w.1 = .ok () →
        exec (.scrub c t0 false work) s = .next (setPhase (setSlice w.2 c none) c.step c.cmd .done)) ∧
      (∀ va e, work.units = left → w.1 = .error (.unmapped va e) → exec (.scrub c t0 false work) s =
        .next (setPhase (stepFaultAt (setSlice w.2 c none) x.key 8 c.cmd va e) c.step c.cmd .cancelled))) ∧
    (cancelledScrub s c = some (x, y) → t0 = y.startNs → work.units = 0 → t0 ≤ work.endNs →
      let w := vwrite s { cmdAccess (agentChervil 0) x y with lat := false } (bits y.block 0 64) 256
        (scrubRecord base len t0 work.endNs 1 y.counts)
      w.1 = .ok () → exec (.scrub c t0 true work) s = .next (setPhase (setSlice w.2 c none) c.step c.cmd .cancelled)))

/-- Memory controllers read and write their lines; host reads complete. (1) CONTROLLER_GRANT, LINE_READ and LINE_WRITE at
a memory controller. A controller with a free slot grants it to the queue that R293 picks and counts LC grants; a
granted operation of a line moves from its queue into the slot and no byte changes. LINE_READ of a line whose read
holds a slot and comes first on its code page completes: without error no byte and no mark changes, and the home that
waits for the line with nothing else outstanding and nothing queued has its data and marks; a line that fails its CRC
is read again by a correction read; a correctable page is then counted; an uncorrectable one marks every sector of
each line that fails its CRC, and is counted and logged. LINE_WRITE of a write that holds a slot and comes first on
its code page completes: on a working channel, without error, the line and its marks are written, the discard mark is
cleared and no other byte changes; to a lost channel it is dropped and counted; over an uncorrectable old line every
other line of the page that fails its CRC is marked. (2) HOST_READ_COMPLETION and HOST_READ_FAILED. A completion
brings the 512 B of a host line; with EP set the line is marked and the error is reported; a failed read leaves the
bytes, marks the line, and writes a record of cause 29h that names the function. No other host byte changes. A read
that waits for the line is served, so that the line is BUSY no more where nothing is queued behind it. -/
def Obligations.ControllersAndHostReads : Prop :=
  -- CONTROLLER_GRANT, LINE_READ and LINE_WRITE at a memory controller
  (∀ s : State,
    (∀ (ch : Fin 224) (q : Nat), grantPick (ctrlOf s ch.val) (slotsOf ch.val) = some q →
      (ctrlOf s ch.val).active.length < slotsOf ch.val →
      (∃ t, exec (.controllerGrant ch) s = .next t ∧
        (q = 0 → t.obj 0x3080 4 (chanTier ch.val) = satAdd 64 (s.obj 0x3080 4 (chanTier ch.val)) 1)) ∧
      ∀ o rest, (ctrlOf s ch.val).queue q = o :: rest → o.kind ≠ .pages →
        ∃ t, exec (.controllerGrant ch) s = .next t ∧ t.mem.dev = s.mem.dev ∧
          ctrlOf t ch.val = { (ctrlOf s ch.val).take q with active := (ctrlOf s ch.val).active ++ [o] }) ∧
    ∀ m : Msg, ctrlMsg m = true →
      let no := m.line.no
      let l : Line := ⟨no, false⟩
      let tier := tierOf no
      (∀ (o : CtrlOp) (c : Ctrl), slotOp s no (fun o => o.kind == .read || o.kind == .fix) = some (o, c) →
        (∀ err, ∃ t, exec (.lineRead m err) s = .next t) ∧
        (o.kind = .read → pageLost s no = false → ∃ t, exec (.lineRead m none) s = .next t ∧ t.mem.dev = s.mem.dev ∧
          t.mem.poison = s.mem.poison ∧
          ∀ x : Txn, waitingHome s no = some l → (homeLine s l).st = 0 → (homeLine s l).busy = some x → x.kind = .rd →
            x.msg.line = l → x.invs = [] → x.fill = some no → memMarks s no = 0 →
            (∀ q ∈ s.coh.conflictQ, q.msg.line ≠ l) →
            (homeLine t l).busy = none ∧ (homeLine t l).data = memData s no ∧ (homeLine t l).marks = 0) ∧
        (∀ e : ArrayErr, pageLost s no = false →
          (o.kind = .read → crcFails e.flips.toNat (no % 4) = true → ∃ t, exec (.lineRead m (some e)) s = .next t ∧
            t.mem.dev = s.mem.dev ∧
            ctrlOf t (chanOf s no) = c.put (if o.lat then 0 else 1) { o with kind := .fix }) ∧
          (o.kind = .fix → (decodeFlips (correctable s tier) e.flips.toNat).isSome = true →
            ∃ t, exec (.lineRead m (some e)) s = .next t ∧ t.obj 0x3080 1 tier = satAdd 64 (s.obj 0x3080 1 tier) 1) ∧
          (o.kind = .fix → decodeFlips (correctable s tier) e.flips.toNat = none →
            ∃ t, exec (.lineRead m (some e)) s = .next t ∧
              (∀ i ∈ failedCrcs e.flips.toNat, memMarks t (4 * (no / 4) + i) = 15) ∧
              t.obj 0x3080 2 tier = satAdd 64 (s.obj 0x3080 2 tier) 1 ∧
              Logged t fun r => r.cause = 0x5D ∧ r.address = no / 4 * 2048))) ∧
      ∀ (o : CtrlOp) (c : Ctrl),
        slotOp s no (fun o => o.kind == .write && o.data == m.data && o.marks == m.marks) = some (o, c) →
        (∀ err, ∃ t, exec (.lineWrite m err) s = .next t) ∧
        (pageLost s no = false → ∃ t, exec (.lineWrite m none) s = .next t ∧ memData t no = m.data ∧
          memMarks t no = m.marks ∧ sget (fun _ => false) t.mem.discard no = false ∧ DevSameOutside s t (512 * no) 512) ∧
        (∀ err, pageLost s no = true → ∃ t, exec (.lineWrite m err) s = .next t ∧ t.mem.dev = s.mem.dev ∧
          t.mem.poison = s.mem.poison ∧ t.obj 0x3080 6 0 = satAdd 64 (s.obj 0x3080 6 0) 1) ∧
        ∀ e : ArrayErr, pageLost s no = false → crcFails e.flips.toNat (no % 4) = true →
          decodeFlips (correctable s tier) e.flips.toNat = none →
          ∃ t, exec (.lineWrite m (some e)) s = .next t ∧
            ∀ i ∈ failedCrcs e.flips.toNat, i ≠ no % 4 → memMarks t (4 * (no / 4) + i) = 15) ∧
  -- HOST_READ_COMPLETION and HOST_READ_FAILED
  (∀ (no : Nat) (f : Fn) (s : State), lineExists ⟨no, true⟩ = true →
    let h := homeLine s ⟨no, true⟩
    (∀ (d : LineData) (ep : Bool), (∃ t, exec (.hostReadCompletion no f d ep) s = .next t) ∧
      (h.busy = none → ∃ t, exec (.hostReadCompletion no f d ep) s = .next t ∧ hostLine t no = (d, if ep then 15 else 0) ∧
        (∀ a, ¬(512 * no ≤ a ∧ a < 512 * no + 512) → memGet t.mem.host a = memGet s.mem.host a) ∧ t.mem.dev = s.mem.dev ∧
        (ep = true → Output.aer f "Poisoned TLP Received" 1 0 ∈ t.out))) ∧
    (∀ how : Fin 3, (∃ t, exec (.hostReadFailed no f how) s = .next t) ∧
      (h.busy = none → ∃ t, exec (.hostReadFailed no f how) s = .next t ∧ (hostLine t no).2 = 15 ∧
        t.mem.host = s.mem.host ∧ (Logged t fun r => r.cause = 0x29 ∧ r.func = f.val) ∧
        (how = 0 → Output.aer f "Completion Timeout" 1 0 ∈ t.out))) ∧
    (∀ (d : LineData) (x : Txn), h.st = 0 → h.busy = some x → x.kind = .rd → x.msg.line = ⟨no, true⟩ → x.invs = [] →
      (∀ q ∈ s.coh.conflictQ, q.msg.line ≠ ⟨no, true⟩) →
      ∃ t, exec (.hostReadCompletion no f d false) s = .next t ∧ (homeLine t ⟨no, true⟩).busy = none ∧
        (homeLine t ⟨no, true⟩).data = d))

/-- The device window reads and writes device memory; inbox channels and events deposit. (1) BAR2_READ and BAR2_WRITE act
on the line of device memory that the window shows. Before the PF is READY a BAR2 read in the window is answered with
zeros and a write is dropped. After, for an access inside one line that is held at its home, clean or dirty, not
discarded, with no transaction on it under way: a read is answered with the line's bytes at that offset, poisoned if
it meets a marked sector; a write under no hint entry leaves its bytes there and every other byte of a line with no
other copy as it was, and with EP set is reported. (2) IB_TARGET, IB_WORD, IB_WORD_END and EVENT_ADD on a function
page. On a function page that acts: IB_TARGET holds the core number written, and a new one abandons the channel's
packet at the old core; a word reaches the inbox of the channel's core, which appends it when it is unlocked, serves
the function and has room; on a channel that drops the rest of a packet the word is refused and noted in IB_STAT bit
16. EVENT_ADD adds to its counter modulo 2^64 and to no other. -/
def Obligations.HostWindowsAndInboxChannels : Prop :=
  -- BAR2_READ and BAR2_WRITE act on the line of device memory that the window shows
  (∀ (off : BitVec 40) (s : State),
    let pa := bar2Win s + off.toNat
    let l : Line := ⟨pa / 512, false⟩
    let h := homeLine s l
    (∀ len : Fin 4097, bar2Ok s off.toNat len.val = true →
      (fnActs s 0 = false → exec (.bar2Read off len) s = .next (s.emit (.completion 0 len.val 0 false))) ∧
      (fnActs s 0 = true → (h.st = 1 ∨ h.st = 2) → settled s l = true → h.discarded = false → pa % 512 + len.val ≤ 512 →
        ∃ t ep, exec (.bar2Read off len) s = .next t ∧
          t.out = s.out ++ [.completion 0 len.val (lineBytes h.data (pa % 512) len.val) ep] ∧
          (h.marks = 0 → ep = false) ∧ (h.marks = 15 → ep = true) ∧ t.mem = s.mem)) ∧
    ∀ (len : Fin 513) (val : LineData) (ep : Bool), bar2Ok s off.toNat len.val = true →
      (fnActs s 0 = false → exec (.bar2Write off len val ep) s = .next s) ∧
      (fnActs s 0 = true → (h.st = 1 ∨ h.st = 2) → settled s l = true → h.presence = 0 → pa % 512 + len.val ≤ 512 →
        hintEntry s off.toNat = none →
        ∃ t, exec (.bar2Write off len val ep) s = .next t ∧ (homeLine t l).st = 2 ∧ t.mem = s.mem ∧
          (∀ b < 512, lineBytes (homeLine t l).data b 1 =
            if pa % 512 ≤ b ∧ b < pa % 512 + len.val then lineBytes val (b - pa % 512) 1 else lineBytes h.data b 1) ∧
          (ep = true → Output.aer 0 "Poisoned TLP Received" 1 0 ∈ t.out))) ∧
  -- IB_TARGET, IB_WORD, IB_WORD_END and EVENT_ADD on a function page
  (∀ (f : Fn) (ch : Fin 8) (s : State), PageActs s f →
    let old := bits (s.reg f.val (chanOff ch)) 0 8
    let k := s.core old
    let b := k.inbox
    let me : Sender := ⟨1, BitVec.ofNat 8 f.val, ch⟩
    let drops (x : State) : Bool := sget (fun _ => false) x.host.chanDrop (8 * f.val + ch.val)
    (∀ (v : Word) (be : BitVec 4),
      let new := bits (mergeBe old v be) 0 8
      (∃ t, exec (.ibTarget f ch v be) s = .next t ∧ t.reg f.val (chanOff ch) = new) ∧
      (new = old → ∃ t, exec (.ibTarget f ch v be) s = .next t ∧ t.cores = s.cores) ∧
      (new ≠ old → b.lock = some me → b.discard = false → k.firstReader = none →
        ∃ t, exec (.ibTarget f ch v be) s = .next t ∧ (t.core old).inbox.lock = none ∧
          (t.core old).inbox.fifo = b.fifo ++ [⟨0, false, true, 1, BitVec.ofNat 8 f.val⟩])) ∧
    (∀ (i : Instr) (w : Word) (last : Bool), (i = .ibWord f ch w ∧ last = false) ∨ (i = .ibWordEnd f ch w ∧ last = true) →
      (∃ t, exec i s = .next t) ∧
      (drops s = true → ∃ t, exec i s = .next t ∧ t.cores = s.cores ∧ Noted s t f (chanOff ch + 12) 16 ∧ drops t = !last) ∧
      (drops s = false → inService s old = true → k.hw.fenced = false → inboxOwner k 1 f = true → b.lock = none → b.discard = false →
        b.arriving ≠ 4096 → b.fifo.length < 4096 → k.firstReader = none →
        ∃ t, exec i s = .next t ∧ (t.core old).inbox.fifo = b.fifo ++ [⟨w, last, false, 1, BitVec.ofNat 8 f.val⟩] ∧
          t.regs = s.regs ∧ t.dict = s.dict)) ∧
    ∀ (e : Fin 4096) (v : Word), ∃ t, exec (.eventAdd f e v) s = .next t ∧
      evCounter t f.val e.val = (evCounter s f.val e.val + v.toNat) % 2 ^ 64 ∧
      (∀ (g : Fn) (n : Fin 4096), g ≠ f ∨ n ≠ e → evCounter t g.val n.val = evCounter s g.val n.val) ∧
      t.regs = s.regs ∧ t.dict = s.dict ∧ t.cores = s.cores)

namespace Sys2Proof.Claims
open Sys2Proof Sys2Proof.Machine

/-! ## Words of the statements about registers and functions -/

/-- The error log names a dropped write: its cause, one more event, one more in the count (R538). -/
def ErrLogged (s t : State) (cause : Nat) : Prop :=
  bits (t.reg 0 0x21000) 24 8 = cause ∧ bits (t.reg 0 0x21000) 0 16 = (bits (s.reg 0 0x21000) 0 16 + 1) % 65536 ∧
    t.reg 0 0x21010 = satAdd 32 (s.reg 0 0x21010) 1

/-- No stored register but those of the error log has changed. -/
def OtherRegs (s t : State) : Prop :=
  ∀ (f : Fn) (o : Nat), o < 2 ^ 25 → ¬(f = 0 ∧ 0x21000 ≤ o ∧ o ≤ 0x21010) → t.reg f.val o = s.reg f.val o

/-- The function commands of FCMD_OP but QUIESCE, which ends at once, with their codes (R410). -/
def fcmdRow : Instr → Option Nat
  | .setCtx => some 1
  | .inval => some 2
  | .resume => some 4
  | .dirtyStart => some 5
  | .dirtyStop => some 6
  | .dirtyCollect => some 7
  | _ => none

/-- A function command runs, with the result that its end will show. -/
def FcmdRuns (t : State) (op result : Nat) : Prop :=
  bit (t.reg 0 fcmdStat) 16 = true ∧ ∃ c, t.host.fcmd = some c ∧ c.op = op ∧ c.result = result

/-- A function command can start: the link is up, none runs, its function is enabled and acts. -/
def FcmdReady (s : State) : Prop :=
  s.host.linkUp = true ∧ s.host.fcmd = none ∧ fnPresent s (fcmdFunc s) = true ∧ fnActs s (fcmdFunc s) = true

/-- The cached translations of pages `lo` to `hi - 1` of a function are gone. -/
def TlbGone (t : State) (f lo hi : Nat) : Prop := ∀ p, lo ≤ p → p < hi → sget (fun _ => 0) t.host.tlb (f * 2 ^ 32 + p) = 0

/-- Every event counter of a function is 0. -/
def CountersZero (t : State) (f : Nat) : Prop := ∀ e : Fin 4096, evCounter t f e.val = 0

end Sys2Proof.Claims

open Sys2Proof Sys2Proof.Machine Sys2Proof.Claims

/-- Host register accesses: reads in sequence, writes, indirect accesses, mailboxes and dropped accesses. (1) SQC_CLEAR,
RESERVED_ACCESS and PARTIAL. On a sequence-clear register that acts, a write whose low 16 bits equal SEQ leaves only
SEQ, and BUSY where the register has it; any other write changes nothing. A reserved access is reported as Unsupported
Request; a reserved write, and a write with partial byte enables to a write-only or sequence-clear register, change no
register but the error log, which names cause 1 or 2. (2) REGISTER_WRITE, IND_DATA_READ and IND_DATA_WRITE. A write to
a read-only register changes nothing. A write to a plain read-write register that acts and whose block is not busy
stores the bytes that the byte enables name, in the bits that the register has, and changes nothing else. A code that
names no function command starts a command of result 1. An indirect read returns the register it selects, or 0 with
the failing event noted in IND_STAT; no indirect register can be written, so a write is dropped, logged with cause 4
and noted. (3) MBX_SEL, MBX_CAPTURE_DONE and MBX_DATA3_READ. A selector written while a capture runs is dropped and
logged with cause 3; otherwise MBX_SEL holds it, the data registers are 0, and MBX_STAT shows BUSY, or INVALID at once
for a selector that names nothing. The end of a capture puts its 128 bits into the data registers with VALID. A read
of MBX_DATA3 returns it and, while VALID is 1, releases the mailbox. -/
def Obligations.HostRegisterAccesses : Prop :=
  -- SQC_CLEAR, RESERVED_ACCESS and PARTIAL
  ((∀ (f : Fn) (off : BitVec 25) (v : Word) (s : State),
      reaches s f off.toNat 4 = true → regKind f.val off.toNat = some .sqc →
      let old := s.reg f.val off.toNat
      (actsAt s f off.toNat = true → v.toNat % 65536 = bits old 0 16 → ∃ t, exec (.sqcClear f off v) s = .next t ∧
        bits (t.reg f.val off.toNat) 0 16 = bits old 0 16 ∧
        (∀ n, 16 ≤ n → n ≠ 16 ∨ (off ≠ 0x20020 ∧ off ≠ 0x8004) → bit (t.reg f.val off.toNat) n = false) ∧
        (off = 0x20020 ∨ off = 0x8004 → bit (t.reg f.val off.toNat) 16 = bit old 16) ∧ t.dict = s.dict) ∧
      (actsAt s f off.toNat = false ∨ v.toNat % 65536 ≠ bits old 0 16 → exec (.sqcClear f off v) s = .next s)) ∧
    (∀ (a : RegAccess) (dws : Fin 1025) (s : State), s.host.linkUp = true → fnPresent s a.fn = true → a.off.toNat % 4 = 0 →
      0 < dws.val → a.off.toNat < barSize a.fn.val → isReserved a.fn.val a.off.toNat dws.val = true →
      (∃ t, exec (.reservedAccess true a dws) s = .next t ∧ ErrLogged s t 1 ∧ OtherRegs s t ∧ t.dict = s.dict ∧
        t.reg 0 0x21004 = firstReserved a.fn.val a.off.toNat dws.val ∧ t.reg 0 0x2100C = a.val.toNat ∧
        t.out = s.out ++ [.aer a.fn "Unsupported Request" 1 0]) ∧
      exec (.reservedAccess false a dws) s = .next ((s.emit (.ur a.fn)).emit (.aer a.fn "Unsupported Request" 1 0))) ∧
    ∀ (a : RegAccess) (s : State), reaches s a.fn a.off.toNat 4 = true → a.be ≠ 15 →
      regKind a.fn.val a.off.toNat = some .wo ∨ regKind a.fn.val a.off.toNat = some .sqc →
      (actsAt s a.fn a.off.toNat = false → exec (.partialWrite a) s = .next s) ∧
      (actsAt s a.fn a.off.toNat = true → ∃ t, exec (.partialWrite a) s = .next t ∧ ErrLogged s t 2 ∧ OtherRegs s t ∧
        t.reg 0 0x21004 = a.off.toNat ∧ t.dict = s.dict)) ∧
  -- REGISTER_WRITE, IND_DATA_READ and IND_DATA_WRITE
  ((∀ (a : RegAccess) (s : State), reaches s a.fn a.off.toNat 4 = true →
      let o := a.off.toNat
      let f := a.fn.val
      (regKind f o = some .ro → ownRow o = false → exec (.registerWrite a) s = .next s) ∧
      (regKind f o = some .rw → ownRow o = false → (∃ t, exec (.registerWrite a) s = .next t) ∧
        (actsAt s a.fn o = false → exec (.registerWrite a) s = .next s) ∧
        (actsAt s a.fn o = true → o ≠ 0x21024 → o ≠ 0x21040 → o ≠ 0x21044 → heldReg s a.fn o = false →
          exec (.registerWrite a) s = .next (s.setReg f o (mergeBe (s.reg f o) a.val a.be &&& regMask f o)))) ∧
      (a.fn = 0 → o = 0x20004 → a.be = 15 → a.val.toNat % 256 = 0 ∨ 7 < a.val.toNat % 256 → s.host.fcmd = none →
        ∃ t, exec (.registerWrite a) s = .next t ∧ FcmdRuns t (a.val.toNat % 256) 1 ∧ t.dict = s.dict)) ∧
    ∀ s : State, s.host.linkUp = true →
      (∀ v s', indRead s = .ok (v, s') → ∃ t, exec .indDataRead s = .next t ∧ t.out = s.out ++ [.completion 0 4 v false] ∧
        t.dict = s.dict ∧ t.reg 0 0x2102C = s.reg 0 0x2102C) ∧
      (∀ e, indRead s = .error e → ∃ t, exec .indDataRead s = .next t ∧ t.out = s.out ++ [.completion 0 4 0 false] ∧
        Noted s t 0 0x2102C e) ∧
      ∀ v : Word, ∃ t, exec (.indDataWrite v) s = .next t ∧ ErrLogged s t 4 ∧ t.reg 0 0x2100C = v.toNat ∧
        (Noted s t 0 0x2102C 16 ∨ Noted s t 0 0x2102C 17) ∧ t.dict = s.dict) ∧
  -- MBX_SEL, MBX_CAPTURE_DONE and MBX_DATA3_READ
  (∀ s : State,
    let sel := s.reg 0 0x21040
    let arg := s.reg 0 0x21044
    (∀ v : Word, s.host.linkUp = true →
      (mbxBusy s = true → ∃ t, exec (.mbxSel v) s = .next t ∧ ErrLogged s t 3 ∧ OtherRegs s t ∧ t.dict = s.dict) ∧
      (mbxBusy s = false → ∃ t, exec (.mbxSel v) s = .next t ∧ t.reg 0 0x21040 = mergeBe sel v 15 ∧
        (∀ n < 4, t.reg 0 (0x21050 + 4 * n) = 0) ∧ t.dict = s.dict ∧
        ((mbxValue s (mergeBe sel v 15) arg).isSome = false → t.reg 0 0x21048 = 5) ∧ (mbxBusy t = true ∨ t.reg 0 0x21048 = 5))) ∧
    (mbxBusy s = true →
      (∀ v, mbxValue s sel arg = some v → ∃ t, exec .mbxCaptureDone s = .next t ∧ t.reg 0 0x21048 = 1 ∧
        (∀ n < 4, t.reg 0 (0x21050 + 4 * n) = v / 2 ^ (32 * n) % 2 ^ 32) ∧ t.dict = s.dict) ∧
      (mbxValue s sel arg = none → ∃ t, exec .mbxCaptureDone s = .next t ∧ t.reg 0 0x21048 = 5)) ∧
    (s.host.linkUp = true →
      (bit (s.reg 0 0x21048) 0 = false → exec .mbxData3Read s = .next (s.emit (.completion 0 4 0 false))) ∧
      (bit (s.reg 0 0x21048) 0 = true → ∃ t, exec .mbxData3Read s = .next t ∧ t.reg 0 0x21048 = 0 ∧
        t.out = s.out ++ [.completion 0 4 (s.reg 0 0x2105C) false])))

/-- PERST_N, PERST_N_HIGH and LINK_UP. PERST_N falling after release begins a warm start: the module is WARM_STARTING, no
step is in the store, every function is ABSENT, every register is at its reset value and the link is down; at other
times only the host interface is reset. PERST_N rising only shows. The link comes up with PERST_N high, its domain up,
and the PLLs locked or the module in service hold. -/
def Obligations.HostPinsAndLink : Prop :=
  ∀ s : State,
    (s.host.perst = true → ∃ t, exec .perstN s = .next t ∧ t.host.perst = false ∧ t.host.linkUp = false ∧ t.regs = [] ∧
      t.sage.doorbells = [] ∧ t.mem = s.mem ∧
      (s.released = true → t.moduleState = 3 ∧ t.sage.steps = [] ∧ ∀ f : Fn, t.fnState f.val = 0) ∧
      (s.released = false → t.dict = s.dict)) ∧
    (s.host.perst = false → exec .perstNHigh s = .next { s with host := { s.host with perst := true } }) ∧
    (s.host.perst = true → s.host.linkUp = false → s.power.domains.getLsbD 18 = true →
      s.power.pllLocked = true ∨ s.moduleState = 4 →
      exec .linkUp s = .next { s with host := { s.host with linkUp := true } })

/-- Function commands start, act and end with their result. (1) A function command is dropped while one runs, refused for
an absent function, and ends at FCMD_DONE. SET_CTX, INVAL, RESUME, DIRTY_START, DIRTY_STOP and DIRTY_COLLECT change
nothing while a command runs. For a function that is not enabled they run with result 2, and QUIESCE ends with it at
once; neither changes the dictionary. FCMD_DONE ends a command whose accesses are answered: SEQ is 1 more, BUSY is 0
and RESULT is the command's. (2) SET_CTX, INVAL, QUIESCE, RESUME and the dirty log of a function that acts. For an
enabled function that acts: SET_CTX with an aligned base below 2^40 installs it and drops every cached translation;
INVAL drops those of its range; QUIESCE of a READY function with a limit of at most 4,096 moves it to DRAINING and
ends with result 0; RESUME moves a QUIESCED one to READY; DIRTY_START with an aligned log starts logging at it with
DIRTY_LOST 0; DIRTY_STOP ends logging; DIRTY_COLLECT with good arguments and readable, writable ranges runs with
result 0. -/
def Obligations.FunctionCommands : Prop :=
  -- A function command is dropped while one runs, refused for an absent function, and ends at FCMD_DONE
  ((∀ (i : Instr) (op : Nat) (s : State), fcmdRow i = some op → s.host.linkUp = true →
      (s.host.fcmd.isSome = true → exec i s = .next s) ∧
      (s.host.fcmd = none → (∃ t, exec i s = .next t) ∨ i = .dirtyCollect) ∧
      (s.host.fcmd = none → fnPresent s (fcmdFunc s) = false →
        ∃ t, exec i s = .next t ∧ FcmdRuns t op 2 ∧ t.dict = s.dict ∧ t.mem = s.mem)) ∧
    (∀ (ns : Nat) (s : State), s.host.linkUp = true → s.now ≤ ns →
      (s.host.fcmd.isSome = true → exec (.quiesce ns) s = .next (s.at ns)) ∧
      (s.host.fcmd = none → fnPresent s (fcmdFunc s) = false → ∃ t, exec (.quiesce ns) s = .next t ∧
        t.host.fcmd = none ∧ bits (t.reg 0 fcmdStat) 24 8 = 2 ∧ t.dict = s.dict)) ∧
    ∀ (c : FCmd) (s : State), s.host.fcmd = some c →
      (c.op ≠ 1 ∧ c.op ≠ 2 ∧ c.op ≠ 6) ∨ c.result ≠ 0 ∨ olderAccess s c.fn c.since = false →
      ∃ t, exec .fcmdDone s = .next t ∧ t.host.fcmd = none ∧ bit (t.reg 0 fcmdStat) 16 = false ∧
        bits (t.reg 0 fcmdStat) 0 16 = (bits (s.reg 0 fcmdStat) 0 16 + 1) % 65536 ∧
        bits (t.reg 0 fcmdStat) 24 8 = c.result % 256 ∧ t.dict = s.dict) ∧
  -- SET_CTX, INVAL, QUIESCE, RESUME and the dirty log of a function that acts
  (∀ s : State,
    let f := fcmdFunc s
    (FcmdReady s →
      (fcmdArg s 0 % 2 ^ 19 = 0 → fcmdArg s 0 < 2 ^ 40 → ∃ t, exec .setCtx s = .next t ∧ FcmdRuns t 1 0 ∧
        ctxSet t f.val = true ∧ sget (fun _ => 0) t.host.ctxBase f.val = fcmdArg s 0 ∧ TlbGone t f.val 0 (2 ^ 32) ∧
        t.dict = s.dict ∧ t.mem = s.mem) ∧
      (fcmdArg s 0 % 65536 = 0 → fcmdArg s 1 % 65536 = 0 → ∃ t, exec .inval s = .next t ∧ FcmdRuns t 2 0 ∧
        t.host.ctxBase = s.host.ctxBase ∧
        if fcmdArg s 1 = 0 then TlbGone t f.val 0 (2 ^ 32)
        else TlbGone t f.val (fcmdArg s 0 / 65536) (min (2 ^ 32) ((fcmdArg s 0 + fcmdArg s 1) / 65536))) ∧
      (fcmdArg s 0 % 512 = 0 → ∃ t, exec .dirtyStart s = .next t ∧ FcmdRuns t 5 0 ∧
        sget (fun _ => 0) t.host.dirty f.val = fcmdArg s 0 + 1 ∧ t.obj 0x7050 5 f.val = 0) ∧
      (∃ t, exec .dirtyStop s = .next t ∧ FcmdRuns t 6 0 ∧ sget (fun _ => 0) t.host.dirty f.val = 0 ∧ t.dict = s.dict) ∧
      (∀ a, fcmdArg s 0 % 65536 = 0 → 0 < fcmdArg s 1 → fcmdArg s 1 ≤ 2 ^ 20 → sget (fun _ => 0) s.host.dirty f.val ≠ 0 →
        collect (lineParts (sget (fun _ => 0) s.host.dirty f.val - 1 + 2 * (fcmdArg s 0 / 65536)) (2 * fcmdArg s 1))
          (fcmdArg s 2) s = (.ok, a) → ∃ t, exec .dirtyCollect s = .next t ∧ FcmdRuns t 7 0 ∧ t.mem = a.mem ∧ t.coh = a.coh)) ∧
    (s.host.linkUp = true → s.host.fcmd = none → fnPresent s f = true →
      (∀ ns, s.now ≤ ns → s.fnState f.val = 2 → fcmdArg s 0 % 65536 ≤ 4096 → ∃ t, exec (.quiesce ns) s = .next t ∧
        t.fnState f.val = 3 ∧ t.host.fcmd = none ∧ bits (t.reg 0 fcmdStat) 24 8 = 0 ∧ t.now = ns ∧
        sget (fun _ => none) t.host.drains f.val = some ⟨ns, quiesceLimit s, tickPeriod s⟩) ∧
      (s.fnState f.val = 4 → ∃ t, exec .resume s = .next t ∧ t.fnState f.val = 2 ∧ FcmdRuns t 4 0)))

/-- DRAIN_END, FUNCTION_QUIESCED, FLR, VF Enable, VF_READY and ZEROING_DONE. A drain that has run out ends every live step
of the function ABORTED_DISABLE and takes its windows; with no step left the function is QUIESCED. An FLR removes the
function's steps, context and registers and puts it in ZEROING with its writable pages; the PF's also clears VF
Enable. Clearing VF Enable disables every VF; setting it puts the VFs up to NumVFs in ZEROING. A VF with nothing to
zero becomes READY with its event counters 0; so does the function whose zeroing ends, whose pages then read zero
without marks. -/
def Obligations.FunctionsDrainResetAndBecomeReady : Prop :=
  ∀ s : State,
    (∀ (f : Fn) (d : Drain), sget (fun _ => none) s.host.drains f.val = some d → s.fnState f.val = 3 →
      d.ns + d.limit * (1000 * d.period) ≤ s.tickStart → ∃ t, exec (.drainEnd f) s = .next t ∧
        sget (fun _ => none) t.host.drains f.val = none ∧ (∀ n < 16, sget (fun _ => 0) t.host.windows (16 * f.val + n) = 0) ∧
        ∀ x ∈ s.sage.steps, x.fn = f → x.phase ≠ .ended → hasStatus t x.key .abortedDisable) ∧
    (∀ f : Fn, s.fnState f.val = 3 → sget (fun _ => none) s.host.drains f.val = none → (∀ x ∈ s.sage.steps, x.fn ≠ f) →
      exec (.functionQuiesced f) s = .next (s.setFn f.val 4)) ∧
    (∀ f : Fn, s.host.linkUp = true → fnPresent s f = true → ∃ t, exec (.flr f) s = .next t ∧
      (∀ x ∈ t.sage.steps, x.fn ≠ f) ∧ ctxSet t f.val = false ∧
      (∀ o < 0x10000, t.reg f.val o = regDefault (rkey f.val o)) ∧ (f = 0 → t.host.vfEnable = false) ∧
      (0 < f.val → s.fnState f.val ≠ 0 → (∀ z ∈ s.host.zeroing, z.fn ≠ f) →
        t.fnState f.val = 1 ∧ ∃ z ∈ t.host.zeroing, z.fn = f ∧ z.pages = writablePages s f.val)) ∧
    (s.host.linkUp = true → s.host.vfEnable = true → ∃ t, exec .vfEnableClear s = .next t ∧ t.host.vfEnable = false ∧
      ∀ f : Fn, 0 < f.val → f.val ≤ s.host.numVfs → ∀ x ∈ t.sage.steps, x.fn ≠ f) ∧
    (∀ num : Fin 256, s.host.linkUp = true → s.host.vfEnable = false → ∃ t, exec (.vfEnableSet num) s = .next t ∧
      t.host.vfEnable = true ∧ t.host.numVfs = num.val ∧
      ∀ f : Fn, t.fnState f.val = if 0 < f.val ∧ f.val ≤ num.val then 1 else s.fnState f.val) ∧
    (∀ f : Fn, s.released = true → 0 < f.val → fnPresent s f = true → s.fnState f.val = 1 → (∀ z ∈ s.host.zeroing, z.fn ≠ f) →
      ∃ t, exec (.vfReady f) s = .next t ∧ t.fnState f.val = (if s.moduleState = 0 then 2 else 4) ∧ CountersZero t f.val) ∧
    ∀ (f : Fn) (z : Zeroing) (rest : List Zeroing),
      takeFirst (fun z : Zeroing => z.fn == f) s.host.zeroing = some (z, rest) → s.released = true →
      jobOpen s (zeroJob f.val) = false → pagesIdle s z.pages = true → ∃ t, exec (.zeroingDone f) s = .next t ∧ t.host.zeroing = rest ∧
        t.fnState f.val = (if fnPresent s f then (if s.moduleState = 0 then 2 else 4) else 0) ∧
        ((∀ p ∈ z.pages, ∀ n < 128, pageLost s (128 * p + n) = false ∧ replicaOf s (128 * p + n) = none) →
          ∀ p ∈ z.pages, ∀ n < 128, memData t (128 * p + n) = 0 ∧ memMarks t (128 * p + n) = 0)

namespace Sys2Proof.Claims
open Sys2Proof Sys2Proof.Machine

/-! ## Words of the statements about the dictionary -/

/-- The WRITE request of `n` bytes of value `v` to an object, from element or byte `off` (R441). -/
def writeReq (idx sub off n v : Nat) : DictReq :=
  { op := 2
    index := BitVec.ofNat 16 idx
    sub := BitVec.ofNat 8 sub
    offset := BitVec.ofNat 32 off
    count := 0
    zero := true
    raw := 16 + n
    body := v }

/-- The dictionary write that a row stands for, with its requester. -/
def ownRequest : Instr → Option (Requester × DictReq)
  | .acctClear who val => some (who, writeReq 0x7030 3 0 2 val.toNat)
  | .convClear who val => some (who, writeReq 0x3040 4 0 2 val.toNat)
  | .coreCtrClear who val => some (who, writeReq 0x3050 7 0 2 val.toNat)
  | .matrixCtrClear who val => some (who, writeReq 0x3060 5 0 2 val.toNat)
  | .roCtrClear who val => some (who, writeReq 0x3070 5 0 2 val.toNat)
  | .cacheCtrClear who val => some (who, writeReq 0x3071 4 0 2 val.toNat)
  | .coherenceCtrClear who val => some (who, writeReq 0x3072 7 0 2 val.toNat)
  | .memCtrClear who val => some (who, writeReq 0x3080 7 0 1 val.toNat)
  | .ceTableClear who val => some (who, writeReq 0x4050 4 0 1 val.toNat)
  | .netCtrClear who val => some (who, writeReq 0x3090 7 0 1 val.toNat)
  | .peerCtrClear who val => some (who, writeReq 0x30A0 6 0 1 val.toNat)
  | .sensorClear who val => some (who, writeReq 0x3000 4 0 2 val.toNat)
  | .monitorClear who val => some (who, writeReq 0x3012 1 0 1 val.toNat)
  | .monitorConfig who i val => some (who, writeReq 0x3010 1 i.val 32 val.toNat)
  | .lineProbeAddr who val => some (who, writeReq 0x3073 1 0 8 val.toNat)
  | .pinWays who val => some (who, writeReq 0x2030 2 0 1 val.toNat)
  | .replicaTable who i val => some (who, writeReq 0x2051 1 i.val 32 val.toNat)
  | .scrubStart who val => some (who, writeReq 0x2052 3 0 1 val.toNat)
  | .retirePage who val _ => some (who, writeReq 0x2053 1 0 8 val.toNat)
  | .clientKeys who i val => some (who, writeReq 0x6020 1 i.val 1800 val.toNat)
  | .evcValues who off len val => some (who, writeReq 0x7050 7 off.val len val)
  | .fnQuiesce who val _ => some (who, writeReq 0x7050 3 0 1 val.toNat)
  | .fnResume who val => some (who, writeReq 0x7050 4 0 1 val.toNat)
  | .moduleQuiesce who _ => some (who, writeReq 0x2002 1 0 1 1)
  | .moduleResume who => some (who, writeReq 0x2002 1 0 1 2)
  | .moduleWarmStart who => some (who, writeReq 0x2002 1 0 1 3)
  | .configDefaults who val => some (who, writeReq 0x2002 3 0 1 val.toNat)
  | .updBegin who => some (who, writeReq 0x6010 1 0 1 1)
  | .updateImage who off len val => some (who, writeReq 0x6010 2 off.toNat len val)
  | .updCommit who => some (who, writeReq 0x6010 1 0 1 2)
  | .updAbort who => some (who, writeReq 0x6010 1 0 1 3)
  | .thermalRestart who val => some (who, writeReq 0x9030 3 0 1 val.toNat)
  | .portEnable who p val => some (who, writeReq 0x8010 1 p.val 1 val.toNat)
  | _ => none

/-- The moment that a row carries is not before the present. -/
def TimeOk (s : State) (i : Instr) : Prop :=
  (∀ w v ns, i = .fnQuiesce w v ns → s.now ≤ ns) ∧ ∀ w ns, i = .moduleQuiesce w ns → s.now ≤ ns

/-- The write stands in the window of the PF and waits for the primary (R446). -/
def PfAsks (s : State) (i : Instr) : Prop :=
  served s = true ∧ TimeOk s i ∧ ∃ r, ownRequest i = some (.window 0, r) ∧ windowAsks s 0 r = true

/-- The window of a function shows a reply of a status: BUSY is 0 (R446). -/
def Answered (t : State) (f : Fn) (st : Nat) : Prop :=
  bit (t.reg f.val dwStat) 16 = false ∧ bits (t.reg f.val dwStat) 24 8 = st

/-- The clears of counters per core: the index, how many counters it holds, and the value written (R106, R144, R174, R250). -/
def coreClear : Instr → Option (Nat × Nat × BitVec 16)
  | .convClear _ v => some (0x3040, 3, v)
  | .coreCtrClear _ v => some (0x3050, 6, v)
  | .matrixCtrClear _ v => some (0x3060, 4, v)
  | .roCtrClear _ v => some (0x3070, 4, v)
  | _ => none

/-- The clears of a whole index: how many counters it holds, and the value written (R328, R363, R389). -/
def wholeClear : Instr → Option (Nat × Nat × BitVec 8)
  | .memCtrClear _ v => some (0x3080, 6, v)
  | .netCtrClear _ v => some (0x3090, 6, v)
  | .peerCtrClear _ v => some (0x30A0, 5, v)
  | _ => none

/-- What the window of the PF reads and writes as the owner of a firmware update. -/
abbrev pf : Requester := .window 0

end Sys2Proof.Claims

open Sys2Proof Sys2Proof.Machine Sys2Proof.Claims

/-- Dictionary writes are answered with their status; clears zero their counters. (1) Every dictionary write with a row of
its own completes and is answered. While the dictionary is served, a write that stands in a function's window, or that
a session sends, completes, at a time not before the present; in the window the reply stands: BUSY is 0 and SEQ is 1
more than the state after the write had it. A write that the window does not hold is no event there. (2) The clear
objects return their counters to 0 and no others. In a released module, of a clear that stands in the PF's window: a
core number clears that core's counters of the index, FFFFh every core's; FFh clears a whole index and any other value
is refused with RANGE; a slice number, a tier, a function, a sensor, a monitor or an accounting record likewise clears
what it names. The reply is OK. -/
def Obligations.DictionaryWritesAndClears : Prop :=
  -- Every dictionary write with a row of its own completes and is answered
  (∀ (i : Instr) (who : Requester) (r : DictReq) (s : State),
    ownRequest i = some (who, r) → served s = true → TimeOk s i →
    (∀ f, who = .window f → windowAsks s f r = true → ∃ t, exec i s = .next t ∧ bit (t.reg f.val dwStat) 16 = false) ∧
    (∀ k reqId ok, who = .session k reqId ok → ∃ t, exec i s = .next t ∧
      (sessionAt s k = none → t.dict = s.dict ∧ t.mgmt = s.mgmt ∧ t.out = s.out))) ∧
  -- The clear objects return their counters to 0 and no others
  (∀ (i : Instr) (s : State), PfAsks s i → s.released = true →
    (∀ idx n v, coreClear i = some (idx, n, v) → v.toNat < coreTotal s.grade ∨ v = 0xFFFF →
      ∃ t, exec i s = .next t ∧ Answered t 0 0 ∧ ∀ k e, 1 ≤ k → k ≤ n → e < 256 →
        t.obj idx k e = if e = v.toNat ∨ v = 0xFFFF then 0 else s.obj idx k e) ∧
    (∀ idx n v, wholeClear i = some (idx, n, v) →
      (v = 0xFF → ∃ t, exec i s = .next t ∧ Answered t 0 0 ∧ ∀ k e, 1 ≤ k → k ≤ n → e < 256 → t.obj idx k e = 0) ∧
      (v ≠ 0xFF → ∃ t, exec i s = .next t ∧ Answered t 0 4 ∧ t.dict = s.dict)) ∧
    (∀ w v, i = .coherenceCtrClear w v → v.toNat < 4 → ∃ t, exec i s = .next t ∧ Answered t 0 0 ∧
      ∀ k e, 1 ≤ k → k ≤ 5 → e < 4 → t.obj 0x3072 k e = if e = v.toNat then 0 else s.obj 0x3072 k e) ∧
    (∀ w v, i = .ceTableClear w v → v.toNat < 2 → ∃ t, exec i s = .next t ∧ Answered t 0 0 ∧ t.obj 0x4050 3 v.toNat = 0 ∧
      ∀ e < 64, t.obj 0x4050 (1 + v.toNat) e = 0 ∧ t.obj 0x4050 (2 - v.toNat) e = s.obj 0x4050 (2 - v.toNat) e) ∧
    (∀ w v, i = .cacheCtrClear w v → v.toNat < 256 → ∃ t, exec i s = .next t ∧ Answered t 0 0 ∧
      ∀ k, sget (fun _ => 0) t.coh.cacheCtr k =
        if k / 128 = v.toNat then 0 else sget (fun _ => 0) s.coh.cacheCtr k) ∧
    (∀ w v, i = .acctClear w v → v.toNat ≤ 16383 → ∃ t, exec i s = .next t ∧ Answered t 0 0 ∧
      ∀ rec k, k < 64 → acct t rec k = if rec = v.toNat then acct State.reset rec k else acct s rec k) ∧
    (∀ w v, i = .sensorClear w v → v.toNat < 412 → ∃ t, exec i s = .next t ∧ Answered t 0 0 ∧
      ∀ e < 412, t.obj 0x3000 1 e = s.obj 0x3000 1 e ∧
        t.obj 0x3000 2 e = (if e = v.toNat then 0x7FC00000 else s.obj 0x3000 2 e) ∧
        t.obj 0x3000 3 e = if e = v.toNat then 0x7FC00000 else s.obj 0x3000 3 e) ∧
    (∀ w v, i = .monitorClear w v → v.toNat < 32 → ∃ t, exec i s = .next t ∧ Answered t 0 0 ∧
      t.obj 0x3011 1 v.toNat = (if bits (monConfig s v.toNat) 0 8 = 0 then 0 else monFresh) ∧
      ∀ e < 32, e ≠ v.toNat → t.obj 0x3011 1 e = s.obj 0x3011 1 e))

/-- Dictionary controls of memory, ports, functions and the module act. (1) The dictionary controls of caches, memory,
monitors, keys, counters, ports and heat. Of a control that stands in the PF's window of a released module: a value
that its rule allows is stored, with its effect, and answered OK: PIN_WAYS, LINE_PROBE_ADDR with the probe of its
line, MONITOR_CONFIG with a fresh record, a replica entry, which then is COPYING or unused, a scrub pass started, a
page retired, a client key, whose sessions close, an event counter of a QUIESCED function, a port held DISABLED or
started again. A value that it does not allow, a pass that runs or a function that is not QUIESCED is refused.
THERMAL_RESTART starts a cool module that heat shut down, and is refused elsewhere. (2) FN_QUIESCE, FN_RESUME,
MODULE_CMD and CONFIG_DEFAULTS. Of a control that stands in the PF's window of a released module: FN_QUIESCE moves an
enabled READY function to DRAINING, FN_RESUME a QUIESCED one to READY, either is refused with STATE in another state;
MODULE_CMD 1 moves a RUNNING module to QUIESCING with every READY function, 2 a QUIESCED one without a service request
to RUNNING, 3 begins a warm start of cause 06h, or from service hold without a thermal shutdown a cold start;
CONFIG_DEFAULTS returns the persistent configuration to its defaults, and is refused unless the module is QUIESCED. -/
def Obligations.DictionaryControls : Prop :=
  -- The dictionary controls of caches, memory, monitors, keys, counters, ports and heat
  (∀ (i : Instr) (s : State), PfAsks s i →
    let refused (st : Nat) : Prop := ∃ t, exec i s = .next t ∧ Answered t 0 st ∧ t.dict = s.dict ∧ t.mem = s.mem
    (s.released = true →
      (∀ w v, i = .pinWays w v → (12 < v.toNat → refused 4) ∧ (v.toNat ≤ 12 →
        ∃ t, exec i s = .next t ∧ Answered t 0 0 ∧ t.obj 0x2030 2 0 = v.toNat)) ∧
      (∀ w v, i = .lineProbeAddr w v → (v.toNat % 512 ≠ 0 ∨ 2 ^ 40 ≤ v.toNat → refused 4) ∧
        (v.toNat % 512 = 0 → v.toNat < 2 ^ 40 → ∃ t, exec i s = .next t ∧ Answered t 0 0 ∧
          t.obj 0x3073 1 0 = v.toNat ∧ t.obj 0x3073 2 0 = probeBytes s (v.toNat / 512) ∧ t.coh = s.coh)) ∧
      (∀ w n v, i = .monitorConfig w n v → (monitorOk v.toNat = false → refused 4) ∧
        (monitorOk v.toNat = true → ∃ t, exec i s = .next t ∧ Answered t 0 0 ∧ t.obj 0x3010 1 n.val = v.toNat ∧
          t.obj 0x3011 1 n.val = if v.toNat % 256 = 0 then 0 else monFresh)) ∧
      (∀ w n v, i = .replicaTable w n v → (replicaOk s v.toNat = false → refused 4) ∧
        (replicaOk s v.toNat = true → anyMeet replicasMeet (replaced 64 (s.obj 0x2051 1) [(n.val, v.toNat)]) = false →
          ∃ t, exec i s = .next t ∧ Answered t 0 0 ∧ t.obj 0x2051 1 n.val = v.toNat ∧
            t.obj 0x2051 2 n.val = if bits v.toNat 128 32 = 0 then 0 else 1)) ∧
      (∀ w, i = .scrubStart w 1 → (s.mem.scrub.isSome = true → refused 6) ∧ (s.mem.scrub = none →
        ∃ t, exec i s = .next t ∧ Answered t 0 0 ∧ t.mem.scrub = some ⟨s.obj 0x2052 1 0, s.obj 0x2052 2 0, s.now⟩ ∧
          t.obj 0x2052 4 0 = 1)) ∧
      (∀ w v errs, i = .retirePage w v errs → (v.toNat % 65536 ≠ 0 → refused 4) ∧
        (v.toNat % 65536 = 0 → v.toNat < 0x4000000000 → s.obj 0x2053 3 0 < 4096 →
          (∀ n < s.obj 0x2053 3 0, s.obj 0x2053 2 n ≠ v.toNat) → ∃ t, exec i s = .next t ∧ Answered t 0 0 ∧
            withdrawnPage t (v.toNat / 65536) = true ∧ t.obj 0x2053 3 0 = s.obj 0x2053 3 0 + 1 ∧
            t.obj 0x2053 2 (s.obj 0x2053 3 0) = v.toNat)) ∧
      (∀ w n v, i = .clientKeys w n v → (clientKeyOk v.toNat = false → refused 4) ∧ (clientKeyOk v.toNat = true →
        ∃ t, exec i s = .next t ∧ Answered t 0 0 ∧ t.obj 0x6020 1 n.val = v.toNat ∧
          ∀ x ∈ t.mgmt.sessions, x.keySlot ≠ n.val)) ∧
      (∀ (w : Requester) (off : Fin 32769) (v e : Nat), i = .evcValues w off 8 v → off.val = 8 * e → e < 4096 →
        (s.fnState (s.obj 0x7050 6 0) ≠ 4 → refused 3) ∧ (s.fnState (s.obj 0x7050 6 0) = 4 →
          ∃ t, exec i s = .next t ∧ Answered t 0 0 ∧ evCounter t (s.obj 0x7050 6 0) e = v % 2 ^ 64)) ∧
      (∀ w p v, i = .portEnable w p v → (1 < v.toNat → refused 4) ∧
        (v.toNat ≤ 1 → ∃ t, exec i s = .next t ∧ Answered t 0 0 ∧ t.obj 0x8010 1 p.val = v.toNat ∧
          portState t p.val = if portState s p.val = 6 then 6 else if v = 0 then 0
            else if portState s p.val = 0 then 1 else portState s p.val)) ∧
      (∀ w, i = .thermalRestart w 1 → refused 13)) ∧
    ∀ w, i = .thermalRestart w 1 → s.moduleState = 4 → s.ctl.thermalHold = true → junctionsCool s = true →
      ∃ t, exec i s = .next t ∧ t.moduleState = 5 ∧ ∃ r, t.ctl.start = some r ∧ r.cold = true ∧ r.cause = 2) ∧
  -- FN_QUIESCE, FN_RESUME, MODULE_CMD and CONFIG_DEFAULTS
  (∀ (i : Instr) (s : State), PfAsks s i →
    (s.released = true →
      (∀ w v ns, i = .fnQuiesce w v ns → fnPresent s (Fin.ofNat 256 v.toNat) = true →
        (s.fnState v.toNat ≠ 2 → ∃ t, exec i s = .next t ∧ Answered t 0 13 ∧ t.dict = s.dict) ∧
        (s.fnState v.toNat = 2 → ∃ t, exec i s = .next t ∧ Answered t 0 0 ∧ t.fnState v.toNat = 3 ∧ t.now = ns ∧
          (sget (fun _ => none) t.host.drains v.toNat).isSome = true)) ∧
      (∀ w v, i = .fnResume w v → fnPresent s (Fin.ofNat 256 v.toNat) = true →
        (s.fnState v.toNat ≠ 4 → ∃ t, exec i s = .next t ∧ Answered t 0 13 ∧ t.dict = s.dict) ∧
        (s.fnState v.toNat = 4 → ∃ t, exec i s = .next t ∧ Answered t 0 0 ∧ t.fnState v.toNat = 2)) ∧
      (∀ w ns, i = .moduleQuiesce w ns → s.moduleState = 0 → ∃ t, exec i s = .next t ∧ Answered t 0 0 ∧ t.moduleState = 1 ∧
        ∀ f : Fn, t.fnState f.val = if s.fnState f.val = 2 then 3 else s.fnState f.val) ∧
      (∀ w, i = .moduleResume w → s.moduleState = 2 → serviceState s = 0 → ∃ t, exec i s = .next t ∧ Answered t 0 0 ∧
        t.moduleState = 0 ∧ t.coh.raceMode = s.obj 0x2040 1 0 ∧
        ∀ f : Fn, wasMoved s f.val = true → s.fnState f.val = 4 → t.fnState f.val = 2) ∧
      (∀ w, i = .moduleWarmStart w → ∃ t, exec i s = .next t ∧ t.moduleState = 3 ∧
        ∃ r, t.ctl.start = some r ∧ r.cold = false ∧ r.cause = 6) ∧
      (∀ w, i = .configDefaults w 1 →
        (s.moduleState ≠ 2 → ∃ t, exec i s = .next t ∧ Answered t 0 3 ∧ t.dict = s.dict) ∧
        (s.moduleState = 2 → ∃ t, exec i s = .next t ∧ Answered t 0 0 ∧ t.mgmt.persist = [] ∧ t.obj 0x2030 2 0 = 8))) ∧
    ∀ w, i = .moduleWarmStart w → s.moduleState = 4 → s.ctl.thermalHold = false →
      ∃ t, exec i s = .next t ∧ t.moduleState = 5 ∧ ∃ r, t.ctl.start = some r ∧ r.cold = true ∧ r.cause = 4)

/-- A firmware update from BEGIN to COMMIT or ABORT, its erase, check, confirmation and timeout. Written by the PF while
no other writer owns an update, in a released module: BEGIN empties the inactive slot and reaches ERASING; image bytes
are taken in LOADING only; COMMIT in LOADING reaches VERIFYING; ABORT before READY reaches ABORTED. The erase ends in
LOADING with an empty image; the check makes a valid image a trial slot that the next start runs, READY, and any other
REJECTED. A trial start is confirmed once the standby has acknowledged or none serves; a trial that times out loses
its slot and the module starts again, or enters service hold. -/
def Obligations.FirmwareUpdate : Prop :=
  (∀ (i : Instr) (s : State), PfAsks s i → s.released = true → otherOwner s pf = false →
      let k := inactiveSlot s
      let st (t : State) (n : Nat) : Prop := Answered t 0 0 ∧ updState t = n
      (∀ w, i = .updBegin w → ∃ t, exec i s = .next t ∧ st t 1 ∧ (fwSlot t k).state = 0 ∧ t.mgmt.updOwner = some pf) ∧
      (∀ (w : Requester) (off : BitVec 32) (n v : Nat), i = .updateImage w off n v → off.toNat + n ≤ 2 ^ 25 →
        (updState s ≠ 2 → ∃ t, exec i s = .next t ∧ Answered t 0 2 ∧ t.mgmt = s.mgmt) ∧
        (updState s = 2 → ∃ t, exec i s = .next t ∧ st t 2 ∧
          (fwSlot t k).image = memWrite (fwSlot s k).image off.toNat n v)) ∧
      (∀ w, i = .updCommit w → (updState s = 2 → ∃ t, exec i s = .next t ∧ st t 3) ∧
        (updState s ≠ 2 → ∃ t, exec i s = .next t ∧ Answered t 0 13 ∧ t.mgmt = s.mgmt)) ∧
      (∀ w, i = .updAbort w → updState s ≤ 3 → ∃ t, exec i s = .next t ∧ st t 6)) ∧
    ∀ s : State,
      (updState s = 1 → ∃ t, exec .eraseDone s = .next t ∧ updState t = 2 ∧ (fwSlot t (inactiveSlot s)).image = []) ∧
      (updState s = 3 → ∃ t, exec .verifyDone s = .next t ∧
        if imageValid s (fwSlot s (inactiveSlot s)) then updState t = 4 ∧ t.obj 0x6010 5 0 = inactiveSlot s ∧
          (fwSlot t (inactiveSlot s)).state = 2 else updState t = 5 ∧ t.mgmt.fwA = s.mgmt.fwA ∧ t.mgmt.fwB = s.mgmt.fwB) ∧
      (s.mgmt.trial = true → s.released = true → s.mgmt.cfgApplied = true →
        s.mgmt.hbAcked = true ∨ s.obj 0x4001 1 0 = 2 ∨ s.obj 0x4001 1 1 = 2 → ∃ t, exec .slotConfirm s = .next t ∧
          t.mgmt.trial = false ∧ (fwSlot t (s.obj 0x1000 8 0)).state = 1 ∧ t.obj 0x5010 2 0 = 0) ∧
      (s.mgmt.trial = true → s.released = true → ∃ t, exec .confirmTimeout s = .next t ∧ t.mgmt.trial = false ∧
        (fwSlot t (s.obj 0x1000 8 0)).state = 3 ∧ (t.moduleState = 3 ∨ t.moduleState = 4))

/-- Dictionary requests are answered; management sessions open and close. (1) GO, READ, WRITE, INFO and ATTEST in a
function's window. GO is dropped without its bit or while BUSY is 1; a request of a wrong length or OP is answered at
once, any other sets BUSY and waits. A READ, INFO or ATTEST that waits is answered: BUSY is 0 and no object changes. A
READ by the PF of a U32 value that it may read, in a released module, shows it in the reply area with status OK. A
WRITE waits while a standby serves, and is answered at once without one. A datagram that breaks the layout, fails its
tag or goes to another port or address, and one of no open session, change nothing. (2) DISCOVER, HELLO, AUTH, CLOSE,
SEGMENT_TIMEOUT and SESSION_IDLE. While the dictionary is served: a datagram that the module does not take changes
nothing; DISCOVER, which may also go to all nodes, is answered with 23 bytes; HELLO with an ADMIN key enrolled, a free
place and the alias key there opens a handshake and sends a CHALLENGE, and otherwise changes nothing; AUTH opens the
session whose signature verifies under a key slot in use, and discards the other with a record; CLOSE, and an idle
time, close the session with a record; what arrived of a message that stops is discarded. -/
def Obligations.DictionaryRequestsAndSessions : Prop :=
  -- GO, READ, WRITE, INFO and ATTEST in a function's window
  ((∀ (f : Fn) (v : Word) (s : State), s.host.linkUp = true → fnPresent s f = true →
      let r := windowReq s f.val
      let busy := bit (s.reg f.val dwStat) 16
      (v.getLsbD 0 = false ∨ busy = true → exec (.go f v) s = .next s) ∧
      (v.getLsbD 0 = true → busy = false → served s = true →
        (r.raw < 16 ∨ 7936 < r.raw → ∃ t, exec (.go f v) s = .next t ∧ Answered t f 5 ∧ t.dict = s.dict) ∧
        (16 ≤ r.raw → r.raw ≤ 7936 → 1 ≤ r.op.toNat → r.op.toNat ≤ 4 → ∃ t, exec (.go f v) s = .next t ∧
          bit (t.reg f.val dwStat) 16 = true ∧ t.dict = s.dict ∧ t.mgmt = s.mgmt))) ∧
    (∀ (f : Fn) (r : DictReq) (s : State) (i : Instr), served s = true → windowAsks s f r = true →
      (i = .read (.window f) r ∧ r.op ≠ 2 ∧ r.op ≠ 3 ∧ r.op ≠ 4) ∨ (i = .info (.window f) r ∧ r.op = 3) ∨
        (i = .attest (.window f) r ∧ r.op = 4) →
      ∃ t, exec i s = .next t ∧ bit (t.reg f.val dwStat) 16 = false ∧ t.dict = s.dict ∧ t.mgmt = s.mgmt ∧ t.mem = s.mem) ∧
    (∀ (r : DictReq) (o : Obj) (s : State), served s = true → s.released = true → windowAsks s 0 r = true →
      findObj r.index.toNat r.sub.toNat = some o → o.typ = 4 → o.esize = 4 → o.acc ≠ 2 → r.op = 1 → r.raw = 16 →
      r.zero = true → r.offset = 0 → r.count = 0 →
      ∃ t, exec (.read pf r) s = .next t ∧ Answered t 0 0 ∧ t.reg 0 0x800C = 20 ∧
        t.reg 0 0xA010 = elemOf s pf o.key 0 % 2 ^ 32) ∧
    (∀ (f : Fn) (r : DictReq) (s : State), served s = true → windowAsks s f r = true → r.op = 2 →
      (standbyServes s = true → ∃ t, exec (.write (.window f) r) s = .next t ∧
        t.mgmt.held = s.mgmt.held ++ [⟨.window f, r, false⟩] ∧ t.regs = s.regs ∧ t.dict = s.dict) ∧
      (standbyServes s = false → ∃ t, exec (.write (.window f) r) s = .next t ∧ bit (t.reg f.val dwStat) 16 = false)) ∧
    ∀ (k : Fin 8) (reqId : BitVec 32) (d : Dgram) (r : DictReq) (s : State), served s = true →
      takesDgram s d false = false ∨ sessionAt s k = none → r.op = 1 → exec (.read (.session k reqId d) r) s = .next s) ∧
  -- DISCOVER, HELLO, AUTH, CLOSE, SEGMENT_TIMEOUT and SESSION_IDLE
  (∀ s : State,
    let waiting (n : BitVec 32) (x : Session) : Prop :=
      (s.mgmt.sessions.find? fun x => decide (x.number = n.toNat) && !x.open_) = some x
    (served s = true →
      (∀ d : Dgram, (takesDgram s d true = false → exec (.discover d) s = .next s) ∧
        (takesDgram s d true = true → ∃ b, exec (.discover d) s = .next (s.emit (.datagram 2 0 23 b (mgmtPort s))))) ∧
      (∀ d k nonce key,
        (freePlace s = none ∨ takesDgram s d false = false ∨ adminEnrolled s = false ∨ aliasPending s = true →
          exec (.hello d k nonce key) s = .next s) ∧
        (∀ p, freePlace s = some p → takesDgram s d false = true → adminEnrolled s = true → aliasPending s = false →
          ∃ t x b, exec (.hello d k nonce key) s = .next t ∧ t.mgmt.sessions = s.mgmt.sessions ++ [x] ∧ x.place = p ∧
            x.open_ = false ∧ x.keySlot = k.toNat ∧ Output.datagram 0x11 x.number 2912 b (mgmtPort s) ∈ t.out ∧ t.dict = s.dict)) ∧
      (∀ (d : Dgram) (n : BitVec 32) (sig : BitVec 10240),
        (takesDgram s d false = false ∨ (∀ x ∈ s.mgmt.sessions, x.number ≠ n.toNat ∨ x.open_ = true) →
          exec (.auth d n sig) s = .next s) ∧
        ∀ x, takesDgram s d false = true → waiting n x →
          let good := x.keySlot < 16 ∧ keyRole s x.keySlot ≠ 0 ∧
            Config.falconVerify (bits (s.obj 0x6020 1 x.keySlot) 0 14344) (signedText [99, 108, 105, 101, 110, 116] x.hash)
              sig.toNat = true
          (good → ∃ t, exec (.auth d n sig) s = .next t ∧ { x with open_ := true } ∈ t.mgmt.sessions ∧
            (Logged t fun r => r.kind = 6 ∧ r.cause = 1 ∧ r.block = x.keySlot)) ∧
          (¬good → ∃ t, exec (.auth d n sig) s = .next t ∧ x ∉ t.mgmt.sessions ∧
            Logged t fun r => r.kind = 6 ∧ r.cause = 3 ∧ r.block = x.keySlot)) ∧
      (∀ (k : Fin 8) (d : Dgram),
        (takesDgram s d false = false ∨ sessionAt s k = none → exec (.close k d) s = .next s) ∧
        ∀ x, takesDgram s d false = true → sessionAt s k = some x → x.open_ = true → ∃ t, exec (.close k d) s = .next t ∧
          (∀ y ∈ t.mgmt.sessions, y.place ≠ k) ∧ Logged t fun r => r.kind = 6 ∧ r.cause = 2 ∧ r.block = x.keySlot)) ∧
    (∀ a b : BitVec 32, ∃ t, exec (.segmentTimeout a b) s = .next t ∧
      (∀ x ∈ t.mgmt.segments, ¬(x.session = a.toNat ∧ x.reqId = b.toNat)) ∧ t.mgmt.sessions = s.mgmt.sessions) ∧
    ∀ (k : Fin 8) (x : Session), sessionAt s k = some x → ∃ t, exec (.sessionIdle k) s = .next t ∧
      ∀ y ∈ t.mgmt.sessions, y.place ≠ k)

/-- Management processors, sensors, the log in flash and ageing. (1) HEARTBEAT, HEARTBEAT_ACK, MGMT_TAKEOVER and
MGMT_LOST. While a standby serves, a heartbeat carries the writes that wait, once until it is acknowledged; the
acknowledgement with nothing held only shows, and answers a held window write that was sent. When the primary fails
the standby becomes primary, nothing is held, an update under way is ABORTED, and a record of cause 58h names the old
one; when the standby fails it is marked failed with a record of cause 59h. (2) SENSOR_SAMPLE, LOG_RECORD_WRITE,
AGEING_CHECK and MODULE_QUIESCED. A sample is the sensor's value and moves its extremes; a NaN leaves the extremes.
The oldest record that waits goes to the log in flash, over the oldest record of a full one. A site whose margin reads
below the minimum of the calibration data loses 25 MHz of its ceiling, which its core shows, and no other site does. A
QUIESCING module all of whose functions are QUIESCED or ABSENT is QUIESCED. -/
def Obligations.ManagementAndSensors : Prop :=
  -- HEARTBEAT, HEARTBEAT_ACK, MGMT_TAKEOVER and MGMT_LOST
  (∀ s : State, iluonUp s = true →
    let old := s.mgmt.primary
    let new : Fin 2 := 1 - old
    (standbyServes s = true →
      (s.mgmt.hbOut = true → exec .heartbeat s = .next (s.emit (.hb 0))) ∧
      (s.mgmt.hbOut = false → ∃ t, exec .heartbeat s = .next t ∧ t.out = s.out ++ [.hb s.mgmt.held.length] ∧
        t.mgmt.hbOut = true ∧ (∀ h ∈ t.mgmt.held, h.sent = true) ∧ t.mgmt.held.length = s.mgmt.held.length ∧
        t.dict = s.dict) ∧
      (s.mgmt.hbOut = true → (∃ t, exec .heartbeatAck s = .next t) ∧
        (s.mgmt.held = [] → ∃ t, exec .heartbeatAck s = .next t ∧ t.mgmt.hbOut = false ∧ t.mgmt.hbAcked = true ∧
          t.dict = s.dict ∧ t.regs = s.regs) ∧
        ∀ f r, s.mgmt.held = [⟨.window f, r, true⟩] → ∃ t, exec .heartbeatAck s = .next t ∧ t.mgmt.held = [] ∧
          bit (t.reg f.val dwStat) 16 = false)) ∧
    (s.obj 0x4001 1 new.val = 1 →
      (∃ t, exec .mgmtTakeover s = .next t ∧ t.mgmt.primary = new ∧ t.obj 0x4001 1 old.val = 2 ∧ t.obj 0x4001 1 new.val = 0 ∧
        t.mgmt.held = [] ∧ HwLogged t 0x58 (blockOf 9 old.val) ∧ (updating s = true → updState t = 6) ∧
        (s.mgmt.held = [] → t.mgmt.sessions = s.mgmt.sessions)) ∧
      (∃ t, exec .mgmtLost s = .next t) ∧
      (s.mgmt.held = [] → ∃ t, exec .mgmtLost s = .next t ∧ t.mgmt.primary = old ∧ t.obj 0x4001 1 new.val = 2 ∧
        HwLogged t 0x59 (blockOf 9 new.val) ∧ t.mgmt.sessions = s.mgmt.sessions))) ∧
  -- SENSOR_SAMPLE, LOG_RECORD_WRITE, AGEING_CHECK and MODULE_QUIESCED
  (∀ s : State,
    (iluonUp s = true →
      (∀ vals, ∃ t, exec (.sensorSample vals) s = .next t) ∧
      (∀ (n : Fin 412) (w : Word),
        let x := Fmt.fp32.decode w.toNat
        ∃ t, exec (.sensorSample [(n, w)]) s = .next t ∧ t.obj 0x3000 1 n.val = w.toNat ∧
          t.obj 0x3000 2 n.val = (if x.isNan then s.obj 0x3000 2 n.val else pick32 true (s.obj 0x3000 2 n.val) w.toNat) ∧
          t.obj 0x3000 3 n.val = (if x.isNan then s.obj 0x3000 3 n.val else pick32 false (s.obj 0x3000 3 n.val) w.toNat) ∧
          (∀ m : Fin 412, m ≠ n → t.obj 0x3000 1 m.val = s.obj 0x3000 1 m.val) ∧ t.mem = s.mem) ∧
      (∀ r rest, s.mgmt.logPend = r :: rest → ∃ t, exec .logRecordWrite s = .next t ∧ t.mgmt.logPend = rest ∧
        t.mgmt.log = (if s.mgmt.log.length < logRing then s.mgmt.log else s.mgmt.log.tail) ++ [r]) ∧
      (∀ l, ∃ t, exec (.ageingCheck l) s = .next t) ∧
      (∀ l, (∀ m ∈ l, Config.minMargin m.1.val ≤ m.2) → exec (.ageingCheck l) s = .next (updateSetPoints s)) ∧
      (∀ (p : Psn) (w : Word), s.obj 0x4010 2 p.val ≤ 1 → w < Config.minMargin p.val →
        ∃ t, exec (.ageingCheck [(p, w)]) s = .next t ∧
        (∀ q, siteCeiling t q = if q = p.val then siteCeiling s q - 25 else siteCeiling s q) ∧
        ∀ c, coreOfSite s p.val = some c → t.obj 0x9020 1 c = siteCeiling s p.val - 25)) ∧
    (s.moduleState = 1 → (∀ f < 256, s.fnState f = 0 ∨ s.fnState f = 4) → exec .moduleQuiesced s = .next (s.setModule 2)))

/-- Power feeds and phases; the power cap and heat. (1) The power feeds and the regulator phases. A feed that becomes
valid joins, and feed A as the first begins a cold start of cause 01h. The loss of one feed in use is recorded with
cause 5Bh while another carries the module. An overvoltage opens the feed's switch; without another feed, and when
both are lost, every domain is down, the module is STARTING and device memory lists nothing. A switch closes again; a
voltage outside rated conditions is recorded. A lost phase is counted off its rail and recorded with cause 5Ah, and
flags the module when the rail has fewer than it needs. (2) POWER_SAMPLE, thermal limiting and shutdown, and coolant
alarms. A power sample shows its mean; above the cap plus 2 % with the last step settled the next step of its category
is taken, and a mean below by 5 % releases one. A die enters limiting once and counts it; while it limits, its set
points fall by 25 MHz a step until its junctions read below 103 °C, after it they climb back. A thermal shutdown puts
the module in service hold with PD18 and PD19 up and its memory gone. A coolant alarm shows and is recorded. -/
def Obligations.PowerFeedsPhasesCapAndHeat : Prop :=
  -- The power feeds and the regulator phases
  (∀ s : State,
    let down (t : State) : Prop := t.power.domains = 0 ∧ t.power.pllLocked = false ∧ t.moduleState = 5 ∧ t.mem.dev = [] ∧
      t.ctl.start = none ∧ t.sage.steps = []
    (∀ b : Bool,
      let f := feedOf s b
      (f.valid = false → f.switchOpen = false → (∃ t, exec (.feedValid b) s = .next t ∧ (feedOf t b).valid = true) ∧
        (anyFeed s = true → exec (.feedValid b) s = .next (setFeed s b { f with valid := true })) ∧
        (anyFeed s = false → b = false → ∃ t, exec (.feedValid b) s = .next t ∧ t.moduleState = 5 ∧
          ∃ r, t.ctl.start = some r ∧ r.cold = true ∧ r.cause = 1)) ∧
      (f.valid = true → (feedInUse s b = false → exec (.feedLost b) s = .next (setFeed s b { f with valid := false })) ∧
        (feedInUse s b = true → anyFeed (setFeed s b { f with valid := false }) = true →
          ∃ t, exec (.feedLost b) s = .next t ∧ (feedOf t b).valid = false ∧ HwLogged t 0x5B (blockOf 0 0) ∧ t.mem = s.mem)) ∧
      (f.valid = true → f.switchOpen = false → (∃ t, exec (.feedOvervoltage b) s = .next t ∧ (feedOf t b).switchOpen = true) ∧
        (feedInUse s b = true → anyFeed (setFeed s b { f with switchOpen := true }) = false →
          ∃ t, exec (.feedOvervoltage b) s = .next t ∧ down t)) ∧
      (f.switchOpen = true → exec (.feedSwitchClose b) s = .next (setFeed s b { f with switchOpen := false })) ∧
      (feedInUse s b = true → iluonUp s = true → ∃ t, exec (.feedVoltageLog b) s = .next t ∧
        (Logged t fun r => r.kind = 2 ∧ r.severity = 1 ∧ r.detail = if b then 306 else 304) ∧ t.power = s.power)) ∧
    (anyFeed s = true → ∃ t, exec .bothFeedsLost s = .next t ∧ down t ∧ t.power.feedA.valid = false) ∧
    ∀ rail : Fin 13, 0 < s.obj 0x9000 0xD rail.val → iluonUp s = true → ∃ t, exec (.phaseLost rail) s = .next t ∧
      t.obj 0x9000 0xD rail.val = s.obj 0x9000 0xD rail.val - 1 ∧ (Logged t fun r => r.kind = 2 ∧ r.cause = 0x5A) ∧
      (s.obj 0x9000 0xD rail.val ≤ neededPhases rail.val → t.obj 0x4000 1 0 = 1)) ∧
  -- POWER_SAMPLE, thermal limiting and shutdown, and coolant alarms
  (∀ s : State, iluonUp s = true →
    (∀ (mean : Nat) (below5 settled : Bool) (cat : Fin 3),
      let past := effectiveCap s * 102 < mean * 100
      let n := powerStep s cat.val
      (∃ t, exec (.powerSample mean below5 settled cat) s = .next t ∧ t.obj 0x9000 8 0 = f32Ratio mean 1000) ∧
      (past → settled = true → (cat ≠ 2 → ∃ t, exec (.powerSample mean below5 settled cat) s = .next t ∧
          powerStep t cat.val = 1) ∧
        (cat = 2 → n < 3 → ∃ t, exec (.powerSample mean below5 settled cat) s = .next t ∧ powerStep t 2 = n + 1)) ∧
      (¬past → below5 = true → ∃ t, exec (.powerSample mean below5 settled cat) s = .next t ∧
        powerStep t cat.val = n - 1)) ∧
    (∀ die : Fin 12,
      let d := die.val
      (thermalState s d = 0 → ∃ t, exec (.thermalLimitStart die) s = .next t ∧ thermalState t d = 1 ∧
        t.obj 0x9030 2 d = satAdd 32 (s.obj 0x9030 2 d) 1 ∧ t.mem = s.mem) ∧
      (thermalState s d = 1 →
        exec (.thermalLimitStep die true) s = .next s ∧
        (d < 8 → ∃ t, exec (.thermalLimitStep die false) s = .next t ∧ dieCut t d = dieCut s d + 25) ∧
        (8 ≤ d → ∃ t, exec (.thermalLimitStep die false) s = .next t ∧ powerStep t 0 = 1) ∧
        exec (.thermalLimitEnd die) s = .next (s.setObj 0x9030 1 d 0)) ∧
      (thermalState s d ≠ 1 → 0 < dieCut s d → ∀ b, ∃ t, exec (.thermalLimitStep die b) s = .next t ∧
        dieCut t d = dieCut s d - 25) ∧
      (s.moduleState ≠ 4 → ∃ t, exec (.thermalShutdown die) s = .next t ∧ t.moduleState = 4 ∧ t.ctl.thermalHold = true ∧
        thermalState t d = 2 ∧ t.power.domains = holdDomains ∧ t.mem.dev = [])) ∧
    ∀ flow : Bool, ∃ t, exec (.coolantAlarm flow) s = .next t ∧ t.obj 0x9030 4 0 = (if flow then 2 else 1) ∧
      Logged t fun r => r.kind = 2 ∧ r.detail = if flow then 405 else 404)

/-- Droop, the reference clock, clock switching and the status ring. A droop deeper than its threshold halves the clock of
a serving core and is counted; the restore ends it. Without the reference clock a start after PLL lock stops; in
service a hold that expires drops the link, drops every step and puts memory in self-refresh. When the clock returns
after a stop it is counted, and at the count's end the PLLs lock, every domain is up, and the module begins a warm
start of cause 08h where no start was at work. A core whose clock switch hangs fails with cause 60h and, if it passes
self-test, rejoins. A ring that nobody drives shows its pattern. -/
def Obligations.DroopClocksAndRing : Prop :=
  ∀ s : State,
    (∀ (c : CoreNo) (mv : Nat), coreLive s c.val = true → (s.core c.val).hw.halved = false → s.obj 0x9010 1 0 < mv →
      ∃ t, exec (.droop c mv) s = .next t ∧ (t.core c.val).hw.halved = true ∧ (t.core c.val).cmd = (s.core c.val).cmd ∧
        t.obj 0x9010 2 c.val = satAdd 64 (s.obj 0x9010 2 c.val) 1 ∧ t.mem = s.mem) ∧
    (∀ c : CoreNo, (s.core c.val).hw.halved = true → ∃ t, exec (.droopRestore c) s = .next t ∧
      (t.core c.val).hw.halved = false ∧ (t.core c.val).groups = (s.core c.val).groups ∧ t.dict = s.dict) ∧
    (anyFeed s = true → s.power.refclk = true → ∃ t, exec .refclkStop s = .next t ∧ t.power.refclk = false ∧
      t.power.counting = false ∧ t.dict = s.dict ∧
      (starting s = true → s.power.pllLocked = true → t.power.stopCause = true ∧ t.power.pllLocked = false) ∧
      (starting s = false → t.power.pllLocked = s.power.pllLocked)) ∧
    (s.released = true → s.power.refclk = false → s.power.pllLocked = true → ∃ t, exec .refclkHoldExpiry s = .next t ∧
      t.power.selfRefresh = true ∧ t.power.pllLocked = false ∧ t.power.stopCause = true ∧ t.host.linkUp = false ∧
      t.sage.steps = [] ∧ ∀ c < coreTotal s.grade, (t.core c).hw.gated = true) ∧
    (s.power.refclk = false → (∃ t, exec .refclkReturn s = .next t ∧ t.power.refclk = true) ∧
      (s.power.stopCause = true → ∃ t, exec .refclkReturn s = .next t ∧ t.power.counting = true ∧ t.dict = s.dict) ∧
      (s.power.stopCause = false → starting s = false → s.released = true →
        ∃ t, exec .refclkReturn s = .next t ∧ HwLogged t 0x61 (blockOf 0 0) ∧ t.sage = s.sage)) ∧
    (s.power.counting = true → s.power.refclk = true → (∃ t, exec .refclkCountEnd s = .next t ∧ t.power.pllLocked = true ∧
        t.power.counting = false ∧ t.power.domains = BitVec.allOnes 20) ∧
      (s.power.stopCause = true → s.ctl.start = none → ∃ t r, exec .refclkCountEnd s = .next t ∧ t.moduleState = 3 ∧
        t.ctl.start = some r ∧ r.cause = 8 ∧ r.cold = false)) ∧
    (∀ (c : CoreNo) (passed : Bool) (ns : Nat), s.now ≤ ns → coreLive s c.val = true → siteOfCore s c.val < 288 →
      ∃ t, exec (.clockMux c passed ns) s = .next t ∧ (t.core c.val).hw.fenced = true ∧
        t.obj 0x4010 2 (siteOfCore s c.val) = 3 ∧ HwLogged t 0x60 (blockOf 1 (siteOfCore s c.val)) ∧
        (passed = true → siteOfCore s c.val ∈ t.ctl.rejoin)) ∧
    (iluonUp s = true → s.mgmt.ringDriven = true → ∃ t, exec .ringNotDriven s = .next t ∧ t.mgmt.ringDriven = false ∧
      t.out = s.out ++ [.ring "red and amber"])

/-- Cold and warm starts, their timeouts and failures, release and service hold. The work of a cold start that may run
leaves every domain up, the PLLs locked, device memory listing nothing and the configuration applied; that of a warm
start leaves no step, once every entry is written and the stopped commands' accesses are over. A step that times out
fails the start and counts in START_FAILS; below three a new start begins. Release of a finished start with no latch
open makes the module RUNNING at tick 0 of a whole multiple of the tick period, with the PF and the enabled VFs READY.
A third failure, a start that must hold, one without an image and one whose manufacturing record fails its signature
put the module in service hold. -/
def Obligations.StartsRunFailAndRelease : Prop :=
  ∀ s : State,
    (∀ (cause : BitVec 8) (ends : List (BitVec 32)), ends.length ≤ 11 →
      (startAtWork s true cause = true → ∀ (failed : List Block) (lanes : List LaneLoss), ∃ t r, exec (.coldStart cause failed lanes ends) s = .next t ∧
        t.ctl.start = some r ∧ r.done = true ∧ t.power.domains.getLsbD 18 = true ∧ t.power.domains.getLsbD 19 = true ∧
        t.power.pllLocked = true ∧ t.mem.dev = [] ∧ t.mgmt.cfgApplied = true ∧ t.coh.raceMode = t.obj 0x2040 1 0) ∧
      (startAtWork s false cause = true → entriesLeft s = false → stopDone s = true → ∀ errs, ∃ t r, exec (.warmStart cause errs ends) s = .next t ∧
        t.ctl.start = some r ∧ r.done = true ∧ t.power.pllLocked = true ∧ t.mgmt.cfgApplied = true ∧ t.sage.steps = [] ∧
        t.mem.host = s.mem.host)) ∧
    (∀ (r : StartRun) (step : Fin 12) (b : Block) (d : BitVec 32), s.ctl.start = some r → r.failed = false → r.done = false →
      1 ≤ step.val → step.val ≤ (if r.cold then 10 else 8) → ∃ t, exec (.startStepTimeout step b d) s = .next t ∧
        t.ctl.start = some { r with failed := true } ∧ t.obj 0x5010 2 0 = satAdd 8 (s.obj 0x5010 2 0) 1 ∧
        t.moduleState = s.moduleState) ∧
    (∀ r : StartRun, s.ctl.start = some r → r.failed = true →
      (s.obj 0x5010 2 0 < 3 → ∃ t q, exec .startFailed s = .next t ∧ t.ctl.start = some q ∧ q.failed = false ∧ q.done = false ∧
        (t.moduleState = 3 ∨ t.moduleState = 5)) ∧
      (3 ≤ s.obj 0x5010 2 0 → ∀ bad, ∃ t, exec (.serviceHold bad) s = .next t ∧ t.moduleState = 4 ∧ t.ctl.start = none ∧
        t.power.domains = holdDomains)) ∧
    (∀ (r : StartRun) (bad : Bool), s.ctl.start = some r → r.failed = false →
      (r.done = true ∧ mustHold s = true) ∨ (r.done = false ∧ (bad = true ∨ chooseSlot (applyPrevious s) = none)) →
      ∃ t, exec (.serviceHold bad) s = .next t ∧ t.moduleState = 4 ∧ serviceState t = 3 ∧ t.power.lasersDark = true ∧
        t.power.domains = holdDomains) ∧
    (startDone s = true → mustHold s = false → (∃ t, exec .release s = .next t ∧ t.ctl.start = none ∧ t.tick = 0 ∧
        (0 < s.obj 0x2010 1 0 → s.now ≤ t.now ∧ t.now % (1000 * s.obj 0x2010 1 0) = 0 ∧ t.tickStart = t.now)) ∧
      (latchOpen s = false → s.ctl.drainLater = false → ∃ t, exec .release s = .next t ∧ t.moduleState = 0 ∧
        t.fnState 0 = 2 ∧ ∀ f : Fn, s.host.vfEnable = true → f.val ≤ s.host.numVfs → t.fnState f.val = 2))

/-- The service button, the latch, the drain and the safe state. A short press in a released module with no service
request records it, shows DRAINING by button and quiesces the module; elsewhere only time passes. A long press ends a
service request and resumes the module, and is refused while the latch is open. A QUIESCED module that drains becomes
safe: its lasers dark, every core clock gated, memory in self-refresh. An open latch shows and starts a drain, at
release where a start is at work; a closed one shows. -/
def Obligations.ServiceRequests : Prop :=
  ∀ s : State,
    (∀ ns : Nat, s.now ≤ ns →
      (s.released = true → serviceState s = 0 → ∃ t, exec (.servicePress ns) s = .next t ∧ serviceState t = 1 ∧ t.now = ns ∧
        (Logged t fun r => r.kind = 8 ∧ r.cause = 0x40) ∧ (s.moduleState = 0 → t.moduleState = 1) ∧
        ∀ f : Fn, s.fnState f.val = 2 → t.fnState f.val = 3) ∧
      (s.released = false ∨ serviceState s ≠ 0 → exec (.servicePress ns) s = .next (s.at ns)) ∧
      (latchOpen s = false →
        (s.released = true → ∃ t, exec (.latchOpen ns) s = .next t ∧ latchOpen t = true ∧ t.now = ns ∧
          (serviceState s = 0 → serviceState t = 2) ∧ (serviceState s ≠ 0 → serviceState t = serviceState s)) ∧
        (s.released = false → s.moduleState ≠ 4 → ∃ t, exec (.latchOpen ns) s = .next t ∧ latchOpen t = true ∧
          t.ctl.drainLater = true))) ∧
    (latchOpen s = true → exec .serviceCancel s = .next s ∧ exec .latchClose s = .next (s.setObj 0x4080 2 0 0)) ∧
    (latchOpen s = false → (∃ t, exec .serviceCancel s = .next t) ∧
      (s.released = true → serviceState s ≠ 0 → ∃ t, exec .serviceCancel s = .next t ∧ serviceState t = 0 ∧
        t.moduleState = 0 ∧ (serviceState s = 3 → t.power.selfRefresh = false ∧ t.power.lasersDark = false) ∧
        ∀ f : Fn, wasMoved s f.val = true → s.fnState f.val = 4 → t.fnState f.val = 2)) ∧
    (s.moduleState = 2 → serviceState s = 1 ∨ serviceState s = 2 → ∃ t, exec .drainSafe s = .next t ∧ serviceState t = 3 ∧
      t.power.selfRefresh = true ∧ t.power.lasersDark = true ∧ (∀ c < coreTotal s.grade, (t.core c).hw.gated = true) ∧
      ∀ p : Fin 8, 2 ≤ portState s p.val → portState s p.val ≤ 5 → portState t p.val = 1)

/-- Peer ports train and fail; partners send and are timed. (1) Light, training, identity, fibres and failure of a peer
port. A port that loses its light shows NO_LIGHT with no partner and no fibres, and is recorded with cause 57h where
it was up. A dark port reduces its power, probes, and starts training at full power when it sees light; a training
that times out forgets what it found. IDENT shows partner and fibres and brings the port up, reduced where a fibre is
missing, or to MISMATCH. A fibre removed, for its symbols above the limit or a failure, leaves the port reduced, or
down without one; ten clean tests bring it back. A failed optical engine leaves the port FAILED and flags the module.
(2) Packets from a partner, their resends, and tick alignment with a source. On a port that is up a resend is answered
from the record; a packet that no grant admits is counted and refused, one whose page is not mapped is refused as a
translation fault; an admitted write or atomic is answered, and an admitted reduction packet goes on to its home. A
packet unanswered for the timeout is sent again, 16 times, and then given up. An exchange with a locked source of the
same period stores the offset, locks the follower and sets the time step; one of another period is refused; with no
source the follower holds over. -/
def Obligations.PeerPorts : Prop :=
  -- Light, training, identity, fibres and failure of a peer port
  (∀ (p : Fin 8) (s : State),
    let st := portState s p.val
    (2 ≤ st → st ≤ 5 → ∃ t, exec (.lossOfLight p) s = .next t ∧ portState t p.val = 1 ∧ t.obj 0x8010 4 p.val = 0 ∧
      t.obj 0x8010 5 p.val = 0 ∧ (portUp s p.val = true → HwLogged t 0x57 (blockOf 8 p.val))) ∧
    (portsWork s = true →
      (st = 1 → (portRt s p.val).light = false → (portRt s p.val).reduced = false → ∃ t, exec (.powerReduce p) s = .next t ∧
        (portRt t p.val).reduced = true ∧ t.out = s.out ++ [.light p.val false]) ∧
      ((portRt s p.val).reduced = true →
        exec (.probe p) s = .next ((s.emit (.light p.val true)).emit (.light p.val false))) ∧
      (st = 1 → s.obj 0x8010 1 p.val ≠ 0 → ∃ t, exec (.lightDetect p) s = .next t ∧ portState t p.val = 2 ∧
        (portRt t p.val).light = true ∧ (portRt t p.val).reduced = false) ∧
      (∀ (partner : BitVec 16) (pp : Fin 8) (period : BitVec 32) (tx rx : BitVec 8), st = 2 → tx ≠ 0 → rx ≠ 0 →
        ∃ t, exec (.ident p partner pp period tx rx) s = .next t ∧ t.obj 0x8010 4 p.val = partner.toNat + 65536 * pp.val ∧
          t.obj 0x8010 5 p.val = tx.toNat + 256 * rx.toNat ∧
          portState t p.val = if identMismatch s p.val partner.toNat then 5 else if tx = 255 ∧ rx = 255 then 3 else 4)) ∧
    (st = 2 → ∃ t, exec (.trainingTimeout p) s = .next t ∧ (portRt t p.val).removed = [] ∧ portState t p.val = 2) ∧
    (∀ (rx : Bool) (fibre : Fin 8) (n₁ : Nat) (failed : Bool), portUp s p.val = true →
      let k := fibreKey rx fibre
      let left := bits (putBits (portFibres s p.val) k 1 0) (8 * b2n rx) 8
      let n := sget (fun _ => 10) (portRt s p.val).removed k
      (bit (portFibres s p.val) k = true → failed = true ∨ s.obj 0x8010 6 0 < n₁ →
        (left ≠ 0 → ∃ t, exec (.fibreRemoved p rx fibre n₁ failed) s = .next t ∧ portState t p.val = 4 ∧
          bit (portFibres t p.val) k = false ∧ sget (fun _ => 10) (portRt t p.val).removed k = 0) ∧
        (left = 0 → ∃ t, exec (.fibreRemoved p rx fibre n₁ failed) s = .next t ∧ portState t p.val = 1)) ∧
      (n < 10 →
        (∃ t, exec (.fibreRetest p rx fibre false) s = .next t ∧ sget (fun _ => 10) (portRt t p.val).removed k = 0 ∧
          t.dict = s.dict) ∧
        (∃ t, exec (.fibreRetest p rx fibre true) s = .next t ∧ sget (fun _ => 10) (portRt t p.val).removed k = n + 1 ∧
          (n = 9 → bit (portFibres t p.val) k = true ∧ portUp t p.val = true)))) ∧
    (s.mgmt.cfgApplied = true → 1 ≤ st → st ≤ 5 → ∃ t, exec (.opticalEngineFailed p) s = .next t ∧ portState t p.val = 6 ∧
      t.obj 0x4000 1 0 = 1 ∧ blockOf 8 p.val ∈ t.ctl.unusable)) ∧
  -- Packets from a partner, their resends, and tick alignment with a source
  (∀ s : State,
    (∀ pk : PeerPacket, portUp s pk.port.val = true →
      let p := pk.port.val
      let va := pk.remoteVa.toNat / 512 * 512
      let r := (vline s ⟨agentPort p, pk.dstFn, 6, false, false, 0⟩ va true).1
      (∀ d, keptAnswer s pk = some d →
        exec (.peerArrival pk) s = .next (s.emit (.peerReply p d.seq d.code d.ops))) ∧
      (keptAnswer s pk = none → stillTaken s pk = true → exec (.peerArrival pk) s = .next s) ∧
      (keptAnswer s pk = none → stillTaken s pk = false →
        (grantsAdmit s pk = false → ∃ t, exec (.peerArrival pk) s = .next t ∧
          t.out = s.out ++ [.peerReply p pk.seq.toNat 2 []] ∧ t.obj 0x30A0 4 p = satAdd 64 (s.obj 0x30A0 4 p) 1 ∧
          t.mem = s.mem ∧ t.coh = s.coh) ∧
        (∀ a b, grantsAdmit s pk = true → r = .error (.unmapped a b) → ∃ t, exec (.peerArrival pk) s = .next t ∧
          Output.peerReply p pk.seq.toNat 3 [] ∈ t.out) ∧
        (∀ l, grantsAdmit s pk = true → r = .ok l →
          (pk.isRed = false → ∃ t code ops, exec (.peerArrival pk) s = .next t ∧ code ≤ 1 ∧
            Output.peerReply p pk.seq.toNat code ops ∈ t.out) ∧
          (pk.isRed = true → ∃ t q, exec (.peerArrival pk) s = .next t ∧ q ∈ t.net.redNet ∧ q.line = l ∧ q.data = pk.data ∧
            q.mask = pk.mask ∧ q.src = 0x140 + p ∧ (⟨p, pk.srcModule.toNat, pk.seq.toNat⟩ : PeerTaken) ∈ t.peer.taken)))) ∧
    (∀ (p : Fin 8) (seq : BitVec 16) (ns : Nat) (x : PeerSent),
      (s.peer.sent.find? fun x => !x.held && decide (x.port = p.val) && decide (x.seq = seq.toNat)) = some x →
      s.now ≤ ns → x.sentNs + 1000 * s.obj 0x8000 2 0 ≤ ns →
      (∃ t, exec (.peerE2eTimeout p seq ns) s = .next t) ∧
      (x.resends < 16 → (x.pk.isRed && x.tag == 1) = false → ∃ t, exec (.peerE2eTimeout p seq ns) s = .next t ∧
        t.out = s.out ++ [.peer p.val x.pk] ∧
        ({ x with resends := x.resends + 1, sentNs := ns } : PeerSent) ∈ t.peer.sent ∧ t.cores = s.cores) ∧
      (16 ≤ x.resends → 256 ≤ x.core → x.pk.isRed = false → findRed s x.step x.idx = none →
        ∃ t, exec (.peerE2eTimeout p seq ns) s = .next t ∧
          ((∀ y ∈ s.peer.sent, y.held = false) → x ∉ t.peer.sent) ∧
          ((findStep s x.step).isSome = true → hasStatus t x.step .faultUnrecovered))) ∧
    (∀ (p : Fin 8) (t1 t2 t3 t4 : Int) (period : BitVec 32), tickRole s = 2 → bit (s.obj 0x8000 4 0) p.val = true →
      portUp s p.val = true → s.mgmt.cfgApplied = true →
      let i := Instr.timeStampExchange p t1 t2 t3 t4 true period
      let off := ((t2 - t1) - (t4 - t3)) / 2
      (period.toNat ≠ tickPeriod s → ∃ t, exec i s = .next t ∧ t.obj 0x8000 5 0 = 5 ∧ t.sage = s.sage) ∧
      (period.toNat = tickPeriod s → ∃ t, exec i s = .next t ∧ t.obj 0x8000 5 0 = 2 ∧ Output.timeStamp p.val ∈ t.out ∧
        (-(2 ^ 31) ≤ off → off < 2 ^ 31 → t.obj 0x8000 6 0 = (off % 2 ^ 32).toNat) ∧
        (s.obj 0x8000 5 0 ≠ 2 → t.peer.locked = true ∧
          t.sage.timeStep = if s.peer.locked = false ∨ 1000 < off ∨ off < -1000 then -off else s.sage.timeStep))) ∧
    (tickRole s = 2 → s.obj 0x8000 5 0 = 2 ∨ s.obj 0x8000 5 0 = 3 ∨ s.obj 0x8000 5 0 = 5 →
      (∀ p < 8, bit (s.obj 0x8000 4 0) p = true → portUp s p = false) →
      exec .holdover s = .next (s.setObj 0x8000 5 0 4)))
end

