-- ==== Sys2Proof/Laws/Code.lean ====
section
/-!
SUPPORT. What the codes of R302 make of zeros: a CRC register at 0 stays 0 over zero bits, and symbols of 0 before a word change
none of its values.
-/
namespace Sys2Proof.Machine

@[simp] theorem crcBits_zero (n : Nat) : crcBits n 0 0 = 0 := by
  induction n with
  | zero => rfl
  | succ n ih => simpa [crcBits] using ih

@[simp] theorem gfMul_zero (x : Nat) : gfMul 0 x = 0 := by simp [gfMul, gfMul.go, gfX]

/-- Leading symbols of 0 leave a polynomial's value as it is. -/
theorem gfEval_zeros (x n : Nat) (p : List Nat) : gfEval x (List.replicate n 0 ++ p) = gfEval x p := by
  induction n with
  | zero => rfl
  | succ n ih => rw [← ih]; simp [gfEval, List.replicate_succ]

/-- A line's CRC fails where its data bits come back right and bits of its stored CRC do not. -/
theorem crcFails_of_stored {flips i : Nat} (hd : bits flips (4096 * i) 4096 = 0) (hc : bits flips (16384 + 32 * i) 32 ≠ 0)
    (h : flips ≠ 0) : crcFails flips i = true := by
  simp [crcFails, hd, h, Ne.symm hc]

/-- A line passes where neither its data bits nor its stored CRC are inverted. -/
theorem crcFails_clean {flips i : Nat} (hd : bits flips (4096 * i) 4096 = 0) (hc : bits flips (16384 + 32 * i) 32 = 0) :
    crcFails flips i = false := by
  simp [crcFails, hd, hc]

end Sys2Proof.Machine
end

