-- ==== Sys2Proof/Laws/State.lean ====
section
/-!
SUPPORT. What the shared updates of the state leave alone: one lemma for each field and update, so that no proof unfolds
a record update.
-/
namespace Sys2Proof.Machine

variable (s : State)

/-! ## State.setObj -/

@[simp] theorem State.setObj_pending (idx sub e v : Nat) : (s.setObj idx sub e v).pending = s.pending := rfl
@[simp] theorem State.setObj_free (idx sub e v : Nat) : (s.setObj idx sub e v).free = s.free := rfl
@[simp] theorem State.setObj_stamp (idx sub e v : Nat) : (s.setObj idx sub e v).stamp = s.stamp := rfl
@[simp] theorem State.setObj_out (idx sub e v : Nat) : (s.setObj idx sub e v).out = s.out := rfl
@[simp] theorem State.setObj_grade (idx sub e v : Nat) : (s.setObj idx sub e v).grade = s.grade := rfl
@[simp] theorem State.setObj_now (idx sub e v : Nat) : (s.setObj idx sub e v).now = s.now := rfl
@[simp] theorem State.setObj_dict (idx sub e v : Nat) : (s.setObj idx sub e v).dict = sset (dictDefault s.grade) s.dict (dkey idx sub e) v := rfl
@[simp] theorem State.setObj_regs (idx sub e v : Nat) : (s.setObj idx sub e v).regs = s.regs := rfl
@[simp] theorem State.setObj_cores (idx sub e v : Nat) : (s.setObj idx sub e v).cores = s.cores := rfl
@[simp] theorem State.setObj_coh (idx sub e v : Nat) : (s.setObj idx sub e v).coh = s.coh := rfl
@[simp] theorem State.setObj_mem (idx sub e v : Nat) : (s.setObj idx sub e v).mem = s.mem := rfl
@[simp] theorem State.setObj_sage (idx sub e v : Nat) : (s.setObj idx sub e v).sage = s.sage := rfl
@[simp] theorem State.setObj_host (idx sub e v : Nat) : (s.setObj idx sub e v).host = s.host := rfl
@[simp] theorem State.setObj_net (idx sub e v : Nat) : (s.setObj idx sub e v).net = s.net := rfl
@[simp] theorem State.setObj_peer (idx sub e v : Nat) : (s.setObj idx sub e v).peer = s.peer := rfl
@[simp] theorem State.setObj_mgmt (idx sub e v : Nat) : (s.setObj idx sub e v).mgmt = s.mgmt := rfl
@[simp] theorem State.setObj_power (idx sub e v : Nat) : (s.setObj idx sub e v).power = s.power := rfl
@[simp] theorem State.setObj_ctl (idx sub e v : Nat) : (s.setObj idx sub e v).ctl = s.ctl := rfl

/-! ## State.bump -/

@[simp] theorem State.bump_pending (idx sub e n : Nat) : (s.bump idx sub e n).pending = s.pending := rfl
@[simp] theorem State.bump_free (idx sub e n : Nat) : (s.bump idx sub e n).free = s.free := rfl
@[simp] theorem State.bump_stamp (idx sub e n : Nat) : (s.bump idx sub e n).stamp = s.stamp := rfl
@[simp] theorem State.bump_out (idx sub e n : Nat) : (s.bump idx sub e n).out = s.out := rfl
@[simp] theorem State.bump_grade (idx sub e n : Nat) : (s.bump idx sub e n).grade = s.grade := rfl
@[simp] theorem State.bump_now (idx sub e n : Nat) : (s.bump idx sub e n).now = s.now := rfl
@[simp] theorem State.bump_regs (idx sub e n : Nat) : (s.bump idx sub e n).regs = s.regs := rfl
@[simp] theorem State.bump_cores (idx sub e n : Nat) : (s.bump idx sub e n).cores = s.cores := rfl
@[simp] theorem State.bump_coh (idx sub e n : Nat) : (s.bump idx sub e n).coh = s.coh := rfl
@[simp] theorem State.bump_mem (idx sub e n : Nat) : (s.bump idx sub e n).mem = s.mem := rfl
@[simp] theorem State.bump_sage (idx sub e n : Nat) : (s.bump idx sub e n).sage = s.sage := rfl
@[simp] theorem State.bump_host (idx sub e n : Nat) : (s.bump idx sub e n).host = s.host := rfl
@[simp] theorem State.bump_net (idx sub e n : Nat) : (s.bump idx sub e n).net = s.net := rfl
@[simp] theorem State.bump_peer (idx sub e n : Nat) : (s.bump idx sub e n).peer = s.peer := rfl
@[simp] theorem State.bump_mgmt (idx sub e n : Nat) : (s.bump idx sub e n).mgmt = s.mgmt := rfl
@[simp] theorem State.bump_power (idx sub e n : Nat) : (s.bump idx sub e n).power = s.power := rfl
@[simp] theorem State.bump_ctl (idx sub e n : Nat) : (s.bump idx sub e n).ctl = s.ctl := rfl

/-! ## State.bump32 -/

@[simp] theorem State.bump32_pending (idx sub e n : Nat) : (s.bump32 idx sub e n).pending = s.pending := rfl
@[simp] theorem State.bump32_free (idx sub e n : Nat) : (s.bump32 idx sub e n).free = s.free := rfl
@[simp] theorem State.bump32_stamp (idx sub e n : Nat) : (s.bump32 idx sub e n).stamp = s.stamp := rfl
@[simp] theorem State.bump32_out (idx sub e n : Nat) : (s.bump32 idx sub e n).out = s.out := rfl
@[simp] theorem State.bump32_grade (idx sub e n : Nat) : (s.bump32 idx sub e n).grade = s.grade := rfl
@[simp] theorem State.bump32_now (idx sub e n : Nat) : (s.bump32 idx sub e n).now = s.now := rfl
@[simp] theorem State.bump32_regs (idx sub e n : Nat) : (s.bump32 idx sub e n).regs = s.regs := rfl
@[simp] theorem State.bump32_cores (idx sub e n : Nat) : (s.bump32 idx sub e n).cores = s.cores := rfl
@[simp] theorem State.bump32_coh (idx sub e n : Nat) : (s.bump32 idx sub e n).coh = s.coh := rfl
@[simp] theorem State.bump32_mem (idx sub e n : Nat) : (s.bump32 idx sub e n).mem = s.mem := rfl
@[simp] theorem State.bump32_sage (idx sub e n : Nat) : (s.bump32 idx sub e n).sage = s.sage := rfl
@[simp] theorem State.bump32_host (idx sub e n : Nat) : (s.bump32 idx sub e n).host = s.host := rfl
@[simp] theorem State.bump32_net (idx sub e n : Nat) : (s.bump32 idx sub e n).net = s.net := rfl
@[simp] theorem State.bump32_peer (idx sub e n : Nat) : (s.bump32 idx sub e n).peer = s.peer := rfl
@[simp] theorem State.bump32_mgmt (idx sub e n : Nat) : (s.bump32 idx sub e n).mgmt = s.mgmt := rfl
@[simp] theorem State.bump32_power (idx sub e n : Nat) : (s.bump32 idx sub e n).power = s.power := rfl
@[simp] theorem State.bump32_ctl (idx sub e n : Nat) : (s.bump32 idx sub e n).ctl = s.ctl := rfl

/-! ## State.clearObj -/

@[simp] theorem State.clearObj_pending (idx sub : Nat) : (s.clearObj idx sub).pending = s.pending := rfl
@[simp] theorem State.clearObj_free (idx sub : Nat) : (s.clearObj idx sub).free = s.free := rfl
@[simp] theorem State.clearObj_stamp (idx sub : Nat) : (s.clearObj idx sub).stamp = s.stamp := rfl
@[simp] theorem State.clearObj_out (idx sub : Nat) : (s.clearObj idx sub).out = s.out := rfl
@[simp] theorem State.clearObj_grade (idx sub : Nat) : (s.clearObj idx sub).grade = s.grade := rfl
@[simp] theorem State.clearObj_now (idx sub : Nat) : (s.clearObj idx sub).now = s.now := rfl
@[simp] theorem State.clearObj_dict (idx sub : Nat) : (s.clearObj idx sub).dict = sclear s.dict (dkey idx sub 0) (dkey idx (sub + 1) 0) := rfl
@[simp] theorem State.clearObj_regs (idx sub : Nat) : (s.clearObj idx sub).regs = s.regs := rfl
@[simp] theorem State.clearObj_cores (idx sub : Nat) : (s.clearObj idx sub).cores = s.cores := rfl
@[simp] theorem State.clearObj_coh (idx sub : Nat) : (s.clearObj idx sub).coh = s.coh := rfl
@[simp] theorem State.clearObj_mem (idx sub : Nat) : (s.clearObj idx sub).mem = s.mem := rfl
@[simp] theorem State.clearObj_sage (idx sub : Nat) : (s.clearObj idx sub).sage = s.sage := rfl
@[simp] theorem State.clearObj_host (idx sub : Nat) : (s.clearObj idx sub).host = s.host := rfl
@[simp] theorem State.clearObj_net (idx sub : Nat) : (s.clearObj idx sub).net = s.net := rfl
@[simp] theorem State.clearObj_peer (idx sub : Nat) : (s.clearObj idx sub).peer = s.peer := rfl
@[simp] theorem State.clearObj_mgmt (idx sub : Nat) : (s.clearObj idx sub).mgmt = s.mgmt := rfl
@[simp] theorem State.clearObj_power (idx sub : Nat) : (s.clearObj idx sub).power = s.power := rfl
@[simp] theorem State.clearObj_ctl (idx sub : Nat) : (s.clearObj idx sub).ctl = s.ctl := rfl

/-! ## State.setModule -/

@[simp] theorem State.setModule_pending (v : Nat) : (s.setModule v).pending = s.pending := rfl
@[simp] theorem State.setModule_free (v : Nat) : (s.setModule v).free = s.free := rfl
@[simp] theorem State.setModule_stamp (v : Nat) : (s.setModule v).stamp = s.stamp := rfl
@[simp] theorem State.setModule_out (v : Nat) : (s.setModule v).out = s.out := rfl
@[simp] theorem State.setModule_grade (v : Nat) : (s.setModule v).grade = s.grade := rfl
@[simp] theorem State.setModule_now (v : Nat) : (s.setModule v).now = s.now := rfl
@[simp] theorem State.setModule_regs (v : Nat) : (s.setModule v).regs = s.regs := rfl
@[simp] theorem State.setModule_cores (v : Nat) : (s.setModule v).cores = s.cores := rfl
@[simp] theorem State.setModule_coh (v : Nat) : (s.setModule v).coh = s.coh := rfl
@[simp] theorem State.setModule_mem (v : Nat) : (s.setModule v).mem = s.mem := rfl
@[simp] theorem State.setModule_sage (v : Nat) : (s.setModule v).sage = s.sage := rfl
@[simp] theorem State.setModule_host (v : Nat) : (s.setModule v).host = s.host := rfl
@[simp] theorem State.setModule_net (v : Nat) : (s.setModule v).net = s.net := rfl
@[simp] theorem State.setModule_peer (v : Nat) : (s.setModule v).peer = s.peer := rfl
@[simp] theorem State.setModule_mgmt (v : Nat) : (s.setModule v).mgmt = s.mgmt := rfl
@[simp] theorem State.setModule_power (v : Nat) : (s.setModule v).power = s.power := rfl
@[simp] theorem State.setModule_ctl (v : Nat) : (s.setModule v).ctl = s.ctl := rfl

/-! ## State.setFn -/

@[simp] theorem State.setFn_pending (f v : Nat) : (s.setFn f v).pending = s.pending := rfl
@[simp] theorem State.setFn_free (f v : Nat) : (s.setFn f v).free = s.free := rfl
@[simp] theorem State.setFn_stamp (f v : Nat) : (s.setFn f v).stamp = s.stamp := rfl
@[simp] theorem State.setFn_out (f v : Nat) : (s.setFn f v).out = s.out := rfl
@[simp] theorem State.setFn_grade (f v : Nat) : (s.setFn f v).grade = s.grade := rfl
@[simp] theorem State.setFn_now (f v : Nat) : (s.setFn f v).now = s.now := rfl
@[simp] theorem State.setFn_regs (f v : Nat) : (s.setFn f v).regs = s.regs := rfl
@[simp] theorem State.setFn_cores (f v : Nat) : (s.setFn f v).cores = s.cores := rfl
@[simp] theorem State.setFn_coh (f v : Nat) : (s.setFn f v).coh = s.coh := rfl
@[simp] theorem State.setFn_mem (f v : Nat) : (s.setFn f v).mem = s.mem := rfl
@[simp] theorem State.setFn_sage (f v : Nat) : (s.setFn f v).sage = s.sage := rfl
@[simp] theorem State.setFn_host (f v : Nat) : (s.setFn f v).host = s.host := rfl
@[simp] theorem State.setFn_net (f v : Nat) : (s.setFn f v).net = s.net := rfl
@[simp] theorem State.setFn_peer (f v : Nat) : (s.setFn f v).peer = s.peer := rfl
@[simp] theorem State.setFn_mgmt (f v : Nat) : (s.setFn f v).mgmt = s.mgmt := rfl
@[simp] theorem State.setFn_power (f v : Nat) : (s.setFn f v).power = s.power := rfl
@[simp] theorem State.setFn_ctl (f v : Nat) : (s.setFn f v).ctl = s.ctl := rfl

/-! ## flagReplace -/

@[simp] theorem flagReplace_pending (reason : Nat) : (flagReplace s reason).pending = s.pending := rfl
@[simp] theorem flagReplace_free (reason : Nat) : (flagReplace s reason).free = s.free := rfl
@[simp] theorem flagReplace_stamp (reason : Nat) : (flagReplace s reason).stamp = s.stamp := rfl
@[simp] theorem flagReplace_out (reason : Nat) : (flagReplace s reason).out = s.out := rfl
@[simp] theorem flagReplace_grade (reason : Nat) : (flagReplace s reason).grade = s.grade := rfl
@[simp] theorem flagReplace_now (reason : Nat) : (flagReplace s reason).now = s.now := rfl
@[simp] theorem flagReplace_regs (reason : Nat) : (flagReplace s reason).regs = s.regs := rfl
@[simp] theorem flagReplace_cores (reason : Nat) : (flagReplace s reason).cores = s.cores := rfl
@[simp] theorem flagReplace_coh (reason : Nat) : (flagReplace s reason).coh = s.coh := rfl
@[simp] theorem flagReplace_mem (reason : Nat) : (flagReplace s reason).mem = s.mem := rfl
@[simp] theorem flagReplace_sage (reason : Nat) : (flagReplace s reason).sage = s.sage := rfl
@[simp] theorem flagReplace_host (reason : Nat) : (flagReplace s reason).host = s.host := rfl
@[simp] theorem flagReplace_net (reason : Nat) : (flagReplace s reason).net = s.net := rfl
@[simp] theorem flagReplace_peer (reason : Nat) : (flagReplace s reason).peer = s.peer := rfl
@[simp] theorem flagReplace_mgmt (reason : Nat) : (flagReplace s reason).mgmt = s.mgmt := rfl
@[simp] theorem flagReplace_power (reason : Nat) : (flagReplace s reason).power = s.power := rfl
@[simp] theorem flagReplace_ctl (reason : Nat) : (flagReplace s reason).ctl = s.ctl := rfl

/-! ## State.setReg -/

@[simp] theorem State.setReg_pending (fn off v : Nat) : (s.setReg fn off v).pending = s.pending := rfl
@[simp] theorem State.setReg_free (fn off v : Nat) : (s.setReg fn off v).free = s.free := rfl
@[simp] theorem State.setReg_stamp (fn off v : Nat) : (s.setReg fn off v).stamp = s.stamp := rfl
@[simp] theorem State.setReg_out (fn off v : Nat) : (s.setReg fn off v).out = s.out := rfl
@[simp] theorem State.setReg_grade (fn off v : Nat) : (s.setReg fn off v).grade = s.grade := rfl
@[simp] theorem State.setReg_now (fn off v : Nat) : (s.setReg fn off v).now = s.now := rfl
@[simp] theorem State.setReg_dict (fn off v : Nat) : (s.setReg fn off v).dict = s.dict := rfl
@[simp] theorem State.setReg_regs (fn off v : Nat) : (s.setReg fn off v).regs = sset regDefault s.regs (rkey fn off) v := rfl
@[simp] theorem State.setReg_cores (fn off v : Nat) : (s.setReg fn off v).cores = s.cores := rfl
@[simp] theorem State.setReg_coh (fn off v : Nat) : (s.setReg fn off v).coh = s.coh := rfl
@[simp] theorem State.setReg_mem (fn off v : Nat) : (s.setReg fn off v).mem = s.mem := rfl
@[simp] theorem State.setReg_sage (fn off v : Nat) : (s.setReg fn off v).sage = s.sage := rfl
@[simp] theorem State.setReg_host (fn off v : Nat) : (s.setReg fn off v).host = s.host := rfl
@[simp] theorem State.setReg_net (fn off v : Nat) : (s.setReg fn off v).net = s.net := rfl
@[simp] theorem State.setReg_peer (fn off v : Nat) : (s.setReg fn off v).peer = s.peer := rfl
@[simp] theorem State.setReg_mgmt (fn off v : Nat) : (s.setReg fn off v).mgmt = s.mgmt := rfl
@[simp] theorem State.setReg_power (fn off v : Nat) : (s.setReg fn off v).power = s.power := rfl
@[simp] theorem State.setReg_ctl (fn off v : Nat) : (s.setReg fn off v).ctl = s.ctl := rfl

/-! ## sqcEvent -/

@[simp] theorem sqcEvent_pending (fn off bitNo : Nat) : (sqcEvent s fn off bitNo).pending = s.pending := rfl
@[simp] theorem sqcEvent_free (fn off bitNo : Nat) : (sqcEvent s fn off bitNo).free = s.free := rfl
@[simp] theorem sqcEvent_stamp (fn off bitNo : Nat) : (sqcEvent s fn off bitNo).stamp = s.stamp := rfl
@[simp] theorem sqcEvent_out (fn off bitNo : Nat) : (sqcEvent s fn off bitNo).out = s.out := rfl
@[simp] theorem sqcEvent_grade (fn off bitNo : Nat) : (sqcEvent s fn off bitNo).grade = s.grade := rfl
@[simp] theorem sqcEvent_now (fn off bitNo : Nat) : (sqcEvent s fn off bitNo).now = s.now := rfl
@[simp] theorem sqcEvent_dict (fn off bitNo : Nat) : (sqcEvent s fn off bitNo).dict = s.dict := rfl
@[simp] theorem sqcEvent_cores (fn off bitNo : Nat) : (sqcEvent s fn off bitNo).cores = s.cores := rfl
@[simp] theorem sqcEvent_coh (fn off bitNo : Nat) : (sqcEvent s fn off bitNo).coh = s.coh := rfl
@[simp] theorem sqcEvent_mem (fn off bitNo : Nat) : (sqcEvent s fn off bitNo).mem = s.mem := rfl
@[simp] theorem sqcEvent_sage (fn off bitNo : Nat) : (sqcEvent s fn off bitNo).sage = s.sage := rfl
@[simp] theorem sqcEvent_host (fn off bitNo : Nat) : (sqcEvent s fn off bitNo).host = s.host := rfl
@[simp] theorem sqcEvent_net (fn off bitNo : Nat) : (sqcEvent s fn off bitNo).net = s.net := rfl
@[simp] theorem sqcEvent_peer (fn off bitNo : Nat) : (sqcEvent s fn off bitNo).peer = s.peer := rfl
@[simp] theorem sqcEvent_mgmt (fn off bitNo : Nat) : (sqcEvent s fn off bitNo).mgmt = s.mgmt := rfl
@[simp] theorem sqcEvent_power (fn off bitNo : Nat) : (sqcEvent s fn off bitNo).power = s.power := rfl
@[simp] theorem sqcEvent_ctl (fn off bitNo : Nat) : (sqcEvent s fn off bitNo).ctl = s.ctl := rfl

/-! ## State.setCore -/

@[simp] theorem State.setCore_pending (c : Nat) (k : Core) : (s.setCore c k).pending = s.pending := rfl
@[simp] theorem State.setCore_free (c : Nat) (k : Core) : (s.setCore c k).free = s.free := rfl
@[simp] theorem State.setCore_stamp (c : Nat) (k : Core) : (s.setCore c k).stamp = s.stamp := rfl
@[simp] theorem State.setCore_out (c : Nat) (k : Core) : (s.setCore c k).out = s.out := rfl
@[simp] theorem State.setCore_grade (c : Nat) (k : Core) : (s.setCore c k).grade = s.grade := rfl
@[simp] theorem State.setCore_now (c : Nat) (k : Core) : (s.setCore c k).now = s.now := rfl
@[simp] theorem State.setCore_dict (c : Nat) (k : Core) : (s.setCore c k).dict = s.dict := rfl
@[simp] theorem State.setCore_regs (c : Nat) (k : Core) : (s.setCore c k).regs = s.regs := rfl
@[simp] theorem State.setCore_cores (c : Nat) (k : Core) : (s.setCore c k).cores = sset (fun _ => Core.idle) s.cores c k := rfl
@[simp] theorem State.setCore_coh (c : Nat) (k : Core) : (s.setCore c k).coh = s.coh := rfl
@[simp] theorem State.setCore_mem (c : Nat) (k : Core) : (s.setCore c k).mem = s.mem := rfl
@[simp] theorem State.setCore_sage (c : Nat) (k : Core) : (s.setCore c k).sage = s.sage := rfl
@[simp] theorem State.setCore_host (c : Nat) (k : Core) : (s.setCore c k).host = s.host := rfl
@[simp] theorem State.setCore_net (c : Nat) (k : Core) : (s.setCore c k).net = s.net := rfl
@[simp] theorem State.setCore_peer (c : Nat) (k : Core) : (s.setCore c k).peer = s.peer := rfl
@[simp] theorem State.setCore_mgmt (c : Nat) (k : Core) : (s.setCore c k).mgmt = s.mgmt := rfl
@[simp] theorem State.setCore_power (c : Nat) (k : Core) : (s.setCore c k).power = s.power := rfl
@[simp] theorem State.setCore_ctl (c : Nat) (k : Core) : (s.setCore c k).ctl = s.ctl := rfl

/-! ## State.tickStamp -/

@[simp] theorem State.tickStamp_pending : (s.tickStamp).pending = s.pending := rfl
@[simp] theorem State.tickStamp_free : (s.tickStamp).free = s.free := rfl
@[simp] theorem State.tickStamp_stamp : (s.tickStamp).stamp = s.stamp + 1 := rfl
@[simp] theorem State.tickStamp_out : (s.tickStamp).out = s.out := rfl
@[simp] theorem State.tickStamp_grade : (s.tickStamp).grade = s.grade := rfl
@[simp] theorem State.tickStamp_now : (s.tickStamp).now = s.now := rfl
@[simp] theorem State.tickStamp_dict : (s.tickStamp).dict = s.dict := rfl
@[simp] theorem State.tickStamp_regs : (s.tickStamp).regs = s.regs := rfl
@[simp] theorem State.tickStamp_cores : (s.tickStamp).cores = s.cores := rfl
@[simp] theorem State.tickStamp_coh : (s.tickStamp).coh = s.coh := rfl
@[simp] theorem State.tickStamp_mem : (s.tickStamp).mem = s.mem := rfl
@[simp] theorem State.tickStamp_sage : (s.tickStamp).sage = s.sage := rfl
@[simp] theorem State.tickStamp_host : (s.tickStamp).host = s.host := rfl
@[simp] theorem State.tickStamp_net : (s.tickStamp).net = s.net := rfl
@[simp] theorem State.tickStamp_peer : (s.tickStamp).peer = s.peer := rfl
@[simp] theorem State.tickStamp_mgmt : (s.tickStamp).mgmt = s.mgmt := rfl
@[simp] theorem State.tickStamp_power : (s.tickStamp).power = s.power := rfl
@[simp] theorem State.tickStamp_ctl : (s.tickStamp).ctl = s.ctl := rfl

/-! ## State.emit -/

@[simp] theorem State.emit_pending (o : Output) : (s.emit o).pending = s.pending := rfl
@[simp] theorem State.emit_free (o : Output) : (s.emit o).free = s.free := rfl
@[simp] theorem State.emit_stamp (o : Output) : (s.emit o).stamp = s.stamp := rfl
@[simp] theorem State.emit_out (o : Output) : (s.emit o).out = s.out ++ [o] := rfl
@[simp] theorem State.emit_grade (o : Output) : (s.emit o).grade = s.grade := rfl
@[simp] theorem State.emit_now (o : Output) : (s.emit o).now = s.now := rfl
@[simp] theorem State.emit_dict (o : Output) : (s.emit o).dict = s.dict := rfl
@[simp] theorem State.emit_regs (o : Output) : (s.emit o).regs = s.regs := rfl
@[simp] theorem State.emit_cores (o : Output) : (s.emit o).cores = s.cores := rfl
@[simp] theorem State.emit_coh (o : Output) : (s.emit o).coh = s.coh := rfl
@[simp] theorem State.emit_mem (o : Output) : (s.emit o).mem = s.mem := rfl
@[simp] theorem State.emit_sage (o : Output) : (s.emit o).sage = s.sage := rfl
@[simp] theorem State.emit_host (o : Output) : (s.emit o).host = s.host := rfl
@[simp] theorem State.emit_net (o : Output) : (s.emit o).net = s.net := rfl
@[simp] theorem State.emit_peer (o : Output) : (s.emit o).peer = s.peer := rfl
@[simp] theorem State.emit_mgmt (o : Output) : (s.emit o).mgmt = s.mgmt := rfl
@[simp] theorem State.emit_power (o : Output) : (s.emit o).power = s.power := rfl
@[simp] theorem State.emit_ctl (o : Output) : (s.emit o).ctl = s.ctl := rfl

/-! ## State.at -/

@[simp] theorem State.at_pending (ns : Nat) : (s.at ns).pending = s.pending := rfl
@[simp] theorem State.at_free (ns : Nat) : (s.at ns).free = s.free := rfl
@[simp] theorem State.at_stamp (ns : Nat) : (s.at ns).stamp = s.stamp := rfl
@[simp] theorem State.at_out (ns : Nat) : (s.at ns).out = s.out := rfl
@[simp] theorem State.at_grade (ns : Nat) : (s.at ns).grade = s.grade := rfl
@[simp] theorem State.at_now (ns : Nat) : (s.at ns).now = ns := rfl
@[simp] theorem State.at_dict (ns : Nat) : (s.at ns).dict = s.dict := rfl
@[simp] theorem State.at_regs (ns : Nat) : (s.at ns).regs = s.regs := rfl
@[simp] theorem State.at_cores (ns : Nat) : (s.at ns).cores = s.cores := rfl
@[simp] theorem State.at_coh (ns : Nat) : (s.at ns).coh = s.coh := rfl
@[simp] theorem State.at_mem (ns : Nat) : (s.at ns).mem = s.mem := rfl
@[simp] theorem State.at_sage (ns : Nat) : (s.at ns).sage = s.sage := rfl
@[simp] theorem State.at_host (ns : Nat) : (s.at ns).host = s.host := rfl
@[simp] theorem State.at_net (ns : Nat) : (s.at ns).net = s.net := rfl
@[simp] theorem State.at_peer (ns : Nat) : (s.at ns).peer = s.peer := rfl
@[simp] theorem State.at_mgmt (ns : Nat) : (s.at ns).mgmt = s.mgmt := rfl
@[simp] theorem State.at_power (ns : Nat) : (s.at ns).power = s.power := rfl
@[simp] theorem State.at_ctl (ns : Nat) : (s.at ns).ctl = s.ctl := rfl

/-! ## queueEvent -/

@[simp] theorem queueEvent_pending (fn : Fn) (kind code queue stepId : Nat) : (queueEvent s fn kind code queue stepId).pending = s.pending := rfl
@[simp] theorem queueEvent_free (fn : Fn) (kind code queue stepId : Nat) : (queueEvent s fn kind code queue stepId).free = s.free := rfl
@[simp] theorem queueEvent_stamp (fn : Fn) (kind code queue stepId : Nat) : (queueEvent s fn kind code queue stepId).stamp = s.stamp := rfl
@[simp] theorem queueEvent_out (fn : Fn) (kind code queue stepId : Nat) : (queueEvent s fn kind code queue stepId).out = s.out := rfl
@[simp] theorem queueEvent_grade (fn : Fn) (kind code queue stepId : Nat) : (queueEvent s fn kind code queue stepId).grade = s.grade := rfl
@[simp] theorem queueEvent_now (fn : Fn) (kind code queue stepId : Nat) : (queueEvent s fn kind code queue stepId).now = s.now := rfl
@[simp] theorem queueEvent_dict (fn : Fn) (kind code queue stepId : Nat) : (queueEvent s fn kind code queue stepId).dict = s.dict := rfl
@[simp] theorem queueEvent_regs (fn : Fn) (kind code queue stepId : Nat) : (queueEvent s fn kind code queue stepId).regs = s.regs := rfl
@[simp] theorem queueEvent_cores (fn : Fn) (kind code queue stepId : Nat) : (queueEvent s fn kind code queue stepId).cores = s.cores := rfl
@[simp] theorem queueEvent_coh (fn : Fn) (kind code queue stepId : Nat) : (queueEvent s fn kind code queue stepId).coh = s.coh := rfl
@[simp] theorem queueEvent_mem (fn : Fn) (kind code queue stepId : Nat) : (queueEvent s fn kind code queue stepId).mem = s.mem := rfl
@[simp] theorem queueEvent_sage (fn : Fn) (kind code queue stepId : Nat) : (queueEvent s fn kind code queue stepId).sage = s.sage := rfl
@[simp] theorem queueEvent_net (fn : Fn) (kind code queue stepId : Nat) : (queueEvent s fn kind code queue stepId).net = s.net := rfl
@[simp] theorem queueEvent_peer (fn : Fn) (kind code queue stepId : Nat) : (queueEvent s fn kind code queue stepId).peer = s.peer := rfl
@[simp] theorem queueEvent_mgmt (fn : Fn) (kind code queue stepId : Nat) : (queueEvent s fn kind code queue stepId).mgmt = s.mgmt := rfl
@[simp] theorem queueEvent_power (fn : Fn) (kind code queue stepId : Nat) : (queueEvent s fn kind code queue stepId).power = s.power := rfl
@[simp] theorem queueEvent_ctl (fn : Fn) (kind code queue stepId : Nat) : (queueEvent s fn kind code queue stepId).ctl = s.ctl := rfl

/-! ## updStep -/

@[simp] theorem updStep_pending (key : Nat) (f : Step → Step) : (updStep s key f).pending = s.pending := rfl
@[simp] theorem updStep_free (key : Nat) (f : Step → Step) : (updStep s key f).free = s.free := rfl
@[simp] theorem updStep_stamp (key : Nat) (f : Step → Step) : (updStep s key f).stamp = s.stamp := rfl
@[simp] theorem updStep_out (key : Nat) (f : Step → Step) : (updStep s key f).out = s.out := rfl
@[simp] theorem updStep_grade (key : Nat) (f : Step → Step) : (updStep s key f).grade = s.grade := rfl
@[simp] theorem updStep_now (key : Nat) (f : Step → Step) : (updStep s key f).now = s.now := rfl
@[simp] theorem updStep_dict (key : Nat) (f : Step → Step) : (updStep s key f).dict = s.dict := rfl
@[simp] theorem updStep_regs (key : Nat) (f : Step → Step) : (updStep s key f).regs = s.regs := rfl
@[simp] theorem updStep_cores (key : Nat) (f : Step → Step) : (updStep s key f).cores = s.cores := rfl
@[simp] theorem updStep_coh (key : Nat) (f : Step → Step) : (updStep s key f).coh = s.coh := rfl
@[simp] theorem updStep_mem (key : Nat) (f : Step → Step) : (updStep s key f).mem = s.mem := rfl
@[simp] theorem updStep_host (key : Nat) (f : Step → Step) : (updStep s key f).host = s.host := rfl
@[simp] theorem updStep_net (key : Nat) (f : Step → Step) : (updStep s key f).net = s.net := rfl
@[simp] theorem updStep_peer (key : Nat) (f : Step → Step) : (updStep s key f).peer = s.peer := rfl
@[simp] theorem updStep_mgmt (key : Nat) (f : Step → Step) : (updStep s key f).mgmt = s.mgmt := rfl
@[simp] theorem updStep_power (key : Nat) (f : Step → Step) : (updStep s key f).power = s.power := rfl
@[simp] theorem updStep_ctl (key : Nat) (f : Step → Step) : (updStep s key f).ctl = s.ctl := rfl

/-! ## stopCommand -/

@[simp] theorem stopCommand_pending (step idx : Nat) : (stopCommand s step idx).pending = s.pending := rfl
@[simp] theorem stopCommand_free (step idx : Nat) : (stopCommand s step idx).free = s.free := rfl
@[simp] theorem stopCommand_stamp (step idx : Nat) : (stopCommand s step idx).stamp = s.stamp := rfl
@[simp] theorem stopCommand_out (step idx : Nat) : (stopCommand s step idx).out = s.out := rfl
@[simp] theorem stopCommand_grade (step idx : Nat) : (stopCommand s step idx).grade = s.grade := rfl
@[simp] theorem stopCommand_now (step idx : Nat) : (stopCommand s step idx).now = s.now := rfl
@[simp] theorem stopCommand_dict (step idx : Nat) : (stopCommand s step idx).dict = s.dict := rfl
@[simp] theorem stopCommand_regs (step idx : Nat) : (stopCommand s step idx).regs = s.regs := rfl
@[simp] theorem stopCommand_coh (step idx : Nat) : (stopCommand s step idx).coh = s.coh := rfl
@[simp] theorem stopCommand_mem (step idx : Nat) : (stopCommand s step idx).mem = s.mem := rfl
@[simp] theorem stopCommand_sage (step idx : Nat) : (stopCommand s step idx).sage = s.sage := rfl
@[simp] theorem stopCommand_host (step idx : Nat) : (stopCommand s step idx).host = s.host := rfl
@[simp] theorem stopCommand_net (step idx : Nat) : (stopCommand s step idx).net = s.net := rfl
@[simp] theorem stopCommand_peer (step idx : Nat) : (stopCommand s step idx).peer = s.peer := rfl
@[simp] theorem stopCommand_mgmt (step idx : Nat) : (stopCommand s step idx).mgmt = s.mgmt := rfl
@[simp] theorem stopCommand_power (step idx : Nat) : (stopCommand s step idx).power = s.power := rfl
@[simp] theorem stopCommand_ctl (step idx : Nat) : (stopCommand s step idx).ctl = s.ctl := rfl

/-! ## setPhase -/

@[simp] theorem setPhase_pending (step idx : Nat) (p : CmdPhase) : (setPhase s step idx p).pending = s.pending := rfl
@[simp] theorem setPhase_free (step idx : Nat) (p : CmdPhase) : (setPhase s step idx p).free = s.free := rfl
@[simp] theorem setPhase_stamp (step idx : Nat) (p : CmdPhase) : (setPhase s step idx p).stamp = s.stamp := rfl
@[simp] theorem setPhase_out (step idx : Nat) (p : CmdPhase) : (setPhase s step idx p).out = s.out := rfl
@[simp] theorem setPhase_grade (step idx : Nat) (p : CmdPhase) : (setPhase s step idx p).grade = s.grade := rfl
@[simp] theorem setPhase_now (step idx : Nat) (p : CmdPhase) : (setPhase s step idx p).now = s.now := rfl
@[simp] theorem setPhase_dict (step idx : Nat) (p : CmdPhase) : (setPhase s step idx p).dict = s.dict := rfl
@[simp] theorem setPhase_regs (step idx : Nat) (p : CmdPhase) : (setPhase s step idx p).regs = s.regs := rfl
@[simp] theorem setPhase_cores (step idx : Nat) (p : CmdPhase) : (setPhase s step idx p).cores = s.cores := rfl
@[simp] theorem setPhase_coh (step idx : Nat) (p : CmdPhase) : (setPhase s step idx p).coh = s.coh := rfl
@[simp] theorem setPhase_mem (step idx : Nat) (p : CmdPhase) : (setPhase s step idx p).mem = s.mem := rfl
@[simp] theorem setPhase_host (step idx : Nat) (p : CmdPhase) : (setPhase s step idx p).host = s.host := rfl
@[simp] theorem setPhase_net (step idx : Nat) (p : CmdPhase) : (setPhase s step idx p).net = s.net := rfl
@[simp] theorem setPhase_peer (step idx : Nat) (p : CmdPhase) : (setPhase s step idx p).peer = s.peer := rfl
@[simp] theorem setPhase_mgmt (step idx : Nat) (p : CmdPhase) : (setPhase s step idx p).mgmt = s.mgmt := rfl
@[simp] theorem setPhase_power (step idx : Nat) (p : CmdPhase) : (setPhase s step idx p).power = s.power := rfl
@[simp] theorem setPhase_ctl (step idx : Nat) (p : CmdPhase) : (setPhase s step idx p).ctl = s.ctl := rfl

/-! ## aer -/

@[simp] theorem aer_pending (fn : Fn) (error : String) (severity ref : Nat) : (aer s fn error severity ref).pending = s.pending := rfl
@[simp] theorem aer_free (fn : Fn) (error : String) (severity ref : Nat) : (aer s fn error severity ref).free = s.free := rfl
@[simp] theorem aer_stamp (fn : Fn) (error : String) (severity ref : Nat) : (aer s fn error severity ref).stamp = s.stamp := rfl
@[simp] theorem aer_grade (fn : Fn) (error : String) (severity ref : Nat) : (aer s fn error severity ref).grade = s.grade := rfl
@[simp] theorem aer_now (fn : Fn) (error : String) (severity ref : Nat) : (aer s fn error severity ref).now = s.now := rfl
@[simp] theorem aer_dict (fn : Fn) (error : String) (severity ref : Nat) : (aer s fn error severity ref).dict = s.dict := rfl
@[simp] theorem aer_regs (fn : Fn) (error : String) (severity ref : Nat) : (aer s fn error severity ref).regs = s.regs := rfl
@[simp] theorem aer_cores (fn : Fn) (error : String) (severity ref : Nat) : (aer s fn error severity ref).cores = s.cores := rfl
@[simp] theorem aer_coh (fn : Fn) (error : String) (severity ref : Nat) : (aer s fn error severity ref).coh = s.coh := rfl
@[simp] theorem aer_mem (fn : Fn) (error : String) (severity ref : Nat) : (aer s fn error severity ref).mem = s.mem := rfl
@[simp] theorem aer_sage (fn : Fn) (error : String) (severity ref : Nat) : (aer s fn error severity ref).sage = s.sage := rfl
@[simp] theorem aer_host (fn : Fn) (error : String) (severity ref : Nat) : (aer s fn error severity ref).host = s.host := rfl
@[simp] theorem aer_net (fn : Fn) (error : String) (severity ref : Nat) : (aer s fn error severity ref).net = s.net := rfl
@[simp] theorem aer_peer (fn : Fn) (error : String) (severity ref : Nat) : (aer s fn error severity ref).peer = s.peer := rfl
@[simp] theorem aer_mgmt (fn : Fn) (error : String) (severity ref : Nat) : (aer s fn error severity ref).mgmt = s.mgmt := rfl
@[simp] theorem aer_power (fn : Fn) (error : String) (severity ref : Nat) : (aer s fn error severity ref).power = s.power := rfl
@[simp] theorem aer_ctl (fn : Fn) (error : String) (severity ref : Nat) : (aer s fn error severity ref).ctl = s.ctl := rfl

end Sys2Proof.Machine
end

