-- ==== Sys2Proof/Laws/Store.lean ====
section
/-!
SUPPORT. The laws of sparse tables and byte memories: a read after a write to the same place gives the value written,
a write leaves every other place alone, and every write keeps the canonical form.
-/
namespace Sys2Proof.Machine

variable {α : Type}

/-! ## Reads after writes -/

theorem sget_sdel_same (d : Nat → α) (m : Sparse α) (k : Nat) : sget d (sdel m k) k = d k := by
  induction m with
  | nil => rfl
  | cons p t ih =>
    obtain ⟨j, v⟩ := p
    by_cases h : j = k
    · subst h; simpa [sdel] using ih
    · have : sdel ((j, v) :: t) k = (j, v) :: sdel t k := by simp [sdel, h]
      rw [this, sget, if_neg h, ih]

theorem sget_sdel_other (d : Nat → α) (m : Sparse α) {k j : Nat} (h : j ≠ k) : sget d (sdel m k) j = sget d m j := by
  induction m with
  | nil => rfl
  | cons p t ih =>
    obtain ⟨i, v⟩ := p
    by_cases hi : i = k
    · subst hi
      have : sdel ((i, v) :: t) i = sdel t i := by simp [sdel]
      rw [this, sget, if_neg (Ne.symm h), ih]
    · have : sdel ((i, v) :: t) k = (i, v) :: sdel t k := by simp [sdel, hi]
      rw [this, sget, sget, ih]

theorem sget_sins_other (d : Nat → α) (m : Sparse α) {k j : Nat} (v : α) (h : j ≠ k) :
    sget d (sins m k v) j = sget d m j := by
  induction m with
  | nil => simp [sins, sget, Ne.symm h]
  | cons p t ih =>
    obtain ⟨i, w⟩ := p
    unfold sins
    split
    · simp [sget, Ne.symm h]
    · simp [sget, ih]

theorem sget_sins_same (d : Nat → α) (m : Sparse α) (k : Nat) (v : α) (h : ∀ p ∈ m, p.1 ≠ k) :
    sget d (sins m k v) k = v := by
  induction m with
  | nil => simp [sins, sget]
  | cons p t ih =>
    unfold sins
    split
    · simp [sget]
    · have hp : p.1 ≠ k := h p (by simp)
      simp [sget, hp, ih fun q hq => h q (by simp [hq])]

theorem sdel_key_ne (m : Sparse α) (k : Nat) : ∀ p ∈ sdel m k, p.1 ≠ k := by
  intro p hp
  simpa [sdel] using (List.mem_filter.mp hp).2

@[simp] theorem sget_sset_same [DecidableEq α] (d : Nat → α) (m : Sparse α) (k : Nat) (v : α) :
    sget d (sset d m k v) k = v := by
  unfold sset
  split
  · rename_i h; rw [sget_sdel_same, h]
  · exact sget_sins_same d _ k v (sdel_key_ne m k)

theorem sget_sset_other [DecidableEq α] (d : Nat → α) (m : Sparse α) {k j : Nat} (v : α) (h : j ≠ k) :
    sget d (sset d m k v) j = sget d m j := by
  unfold sset
  split
  · exact sget_sdel_other d m h
  · rw [sget_sins_other d _ v h, sget_sdel_other d m h]

theorem sget_sset [DecidableEq α] (d : Nat → α) (m : Sparse α) (k j : Nat) (v : α) :
    sget d (sset d m k v) j = if j = k then v else sget d m j := by
  split
  · rename_i h; subst h; simp
  · rename_i h; exact sget_sset_other d m v h

theorem sget_sclear (d : Nat → α) (m : Sparse α) (lo hi k : Nat) :
    sget d (sclear m lo hi) k = if lo ≤ k ∧ k < hi then d k else sget d m k := by
  induction m with
  | nil => simp [sclear, sget]
  | cons p t ih =>
    obtain ⟨j, v⟩ := p
    by_cases hj : lo ≤ j ∧ j < hi
    · have e : sclear ((j, v) :: t) lo hi = sclear t lo hi := by simp [sclear, hj.1, hj.2]
      rw [e, ih]
      split
      · rfl
      · rename_i hk
        have : j ≠ k := fun h => hk (h ▸ hj)
        simp [sget, this]
    · have e : sclear ((j, v) :: t) lo hi = (j, v) :: sclear t lo hi := by
        have : ¬lo ≤ j ∨ ¬j < hi := by omega
        simp only [sclear, List.filter_cons]
        rcases this with h | h <;> simp [h]
      rw [e, sget, ih, sget]
      by_cases hk : j = k
      · subst hk; simp [hj]
      · simp [hk]

/-! ## The canonical form -/

theorem swf_weaken [DecidableEq α] (d : Nat → α) {lo lo' : Nat} (m : Sparse α) (hl : lo' ≤ lo) (h : swf d lo m = true) :
    swf d lo' m = true := by
  cases m with
  | nil => rfl
  | cons p t =>
    obtain ⟨k, v⟩ := p
    simp only [swf, Bool.and_eq_true, decide_eq_true_eq] at h ⊢
    exact ⟨⟨by omega, h.1.2⟩, h.2⟩

theorem swf_sdel [DecidableEq α] (d : Nat → α) (m : Sparse α) (k : Nat) : ∀ lo, swf d lo m = true →
    swf d lo (sdel m k) = true := by
  induction m with
  | nil => intro lo h; exact h
  | cons p t ih =>
    intro lo h
    obtain ⟨j, v⟩ := p
    simp only [swf, Bool.and_eq_true, decide_eq_true_eq] at h
    by_cases hj : j = k
    · have : sdel ((j, v) :: t) k = sdel t k := by simp [sdel, hj]
      rw [this]
      exact ih lo (swf_weaken d t (by omega) h.2)
    · have : sdel ((j, v) :: t) k = (j, v) :: sdel t k := by simp [sdel, hj]
      rw [this]
      simp only [swf, Bool.and_eq_true, decide_eq_true_eq]
      exact ⟨h.1, ih _ h.2⟩

theorem swf_sins [DecidableEq α] (d : Nat → α) (m : Sparse α) (k : Nat) (v : α) (hv : v ≠ d k) :
    ∀ lo, lo ≤ k → (∀ p ∈ m, p.1 ≠ k) → swf d lo m = true → swf d lo (sins m k v) = true := by
  induction m with
  | nil => intro lo hl _ _; simp [sins, swf, hl, hv]
  | cons p t ih =>
    intro lo hl hk h
    obtain ⟨j, w⟩ := p
    have hj : j ≠ k := hk (j, w) (by simp)
    simp only [swf, Bool.and_eq_true, decide_eq_true_eq] at h
    unfold sins
    split
    · rename_i hlt
      simp only [swf, Bool.and_eq_true, decide_eq_true_eq]
      exact ⟨⟨hl, hv⟩, ⟨hlt, h.1.2⟩, h.2⟩
    · rename_i hlt
      simp only [swf, Bool.and_eq_true, decide_eq_true_eq]
      exact ⟨h.1, ih (j + 1) (by simp at hlt; omega) (fun q hq => hk q (by simp [hq])) h.2⟩

/-- Writing a key keeps the canonical form of a sparse table. -/
theorem swf_sset [DecidableEq α] (d : Nat → α) (m : Sparse α) (k : Nat) (v : α) (h : swf d 0 m = true) :
    swf d 0 (sset d m k v) = true := by
  unfold sset
  split
  · exact swf_sdel d m k 0 h
  · rename_i hv
    exact swf_sins d _ k v hv 0 (Nat.zero_le k) (sdel_key_ne m k) (swf_sdel d m k 0 h)

/-! ## Byte memories -/

@[simp] theorem memGet_memSet_same (m : List Host.Cell) (a : Nat) (b : Byte) : memGet (memSet m a b) a = b :=
  sget_sset_same zeroByte m a b

theorem memGet_memSet_other (m : List Host.Cell) {a c : Nat} (b : Byte) (h : c ≠ a) :
    memGet (memSet m a b) c = memGet m c := sget_sset_other zeroByte m b h

theorem memGet_memSet (m : List Host.Cell) (a c : Nat) (b : Byte) :
    memGet (memSet m a b) c = if c = a then b else memGet m c := sget_sset zeroByte m a c b

theorem Memory.wf_memSet (m : List Host.Cell) (a : Nat) (b : Byte) (h : Memory.wf m = true) :
    Memory.wf (memSet m a b) = true := swf_sset zeroByte m a b h

theorem Memory.wf_memWrite (n : Nat) : ∀ (m : List Host.Cell) (a v : Nat), Memory.wf m = true →
    Memory.wf (memWrite m a n v) = true := by
  induction n with
  | zero => intro m a v h; exact h
  | succ n ih => intro m a v h; exact ih _ _ _ (Memory.wf_memSet m a _ h)

theorem Memory.wf_memWriteMask (n : Nat) : ∀ (m : List Host.Cell) (a v mask : Nat), Memory.wf m = true →
    Memory.wf (memWriteMask m a n v mask) = true := by
  induction n with
  | zero => intro m a v mask h; exact h
  | succ n ih =>
    intro m a v mask h
    unfold memWriteMask
    apply ih
    split
    · exact Memory.wf_memSet m a _ h
    · exact h

/-- Every memory that nothing has written has the canonical form. -/
@[simp] theorem Memory.wf_nil : Memory.wf [] = true := rfl

/-- A wide write leaves every byte outside its own alone. -/
theorem memGet_memWrite_outside (n : Nat) : ∀ (m : List Host.Cell) (a v c : Nat), c < a ∨ a + n ≤ c →
    memGet (memWrite m a n v) c = memGet m c := by
  induction n with
  | zero => intro m a v c _; rfl
  | succ n ih =>
    intro m a v c h
    unfold memWrite
    rw [ih _ _ _ _ (by omega), memGet_memSet_other _ _ (by omega)]

/-- A wide write puts each byte of its value at its place, the lowest first. -/
theorem memGet_memWrite_inside (n : Nat) : ∀ (m : List Host.Cell) (a v i : Nat), i < n →
    memGet (memWrite m a n v) (a + i) = BitVec.ofNat 8 (v / 256 ^ i) := by
  induction n with
  | zero => intro m a v i h; omega
  | succ n ih =>
    intro m a v i h
    unfold memWrite
    cases i with
    | zero => rw [memGet_memWrite_outside _ _ _ _ _ (by omega)]; simp
    | succ i =>
      have e : a + (i + 1) = a + 1 + i := by omega
      rw [e, ih _ _ _ _ (by omega), Nat.div_div_eq_div_mul, Nat.pow_succ, Nat.mul_comm]

/-- A masked write changes exactly the bytes whose mask bit is set. -/
theorem memGet_memWriteMask (n : Nat) : ∀ (m : List Host.Cell) (a v mask c : Nat),
    memGet (memWriteMask m a n v mask) c =
      if a ≤ c ∧ c < a + n ∧ mask.testBit (c - a) = true then BitVec.ofNat 8 (v / 256 ^ (c - a)) else memGet m c := by
  induction n with
  | zero => intro m a v mask c; simp [memWriteMask]; omega
  | succ n ih =>
    intro m a v mask c
    unfold memWriteMask
    rw [ih]
    rcases Nat.lt_trichotomy c a with hc | hc | hc
    · have h1 : ¬(a + 1 ≤ c) := by omega
      have h2 : ¬(a ≤ c) := by omega
      simp only [h1, h2, false_and, if_false]
      split
      · exact memGet_memSet_other _ _ (by omega)
      · rfl
    · subst hc
      have h1 : ¬(c + 1 ≤ c) := by omega
      simp only [h1, false_and, if_false, Nat.sub_self, Nat.testBit_zero, Nat.pow_zero, Nat.div_one, Nat.le_refl, true_and,
        Nat.lt_add_of_pos_right (Nat.succ_pos n), decide_eq_true_eq]
      split <;> simp_all
    · have e : c - a = (c - (a + 1)) + 1 := by omega
      have h1 : a + 1 ≤ c := by omega
      have h2 : a ≤ c := by omega
      have h3 : c < a + 1 + n ↔ c < a + (n + 1) := by omega
      have hd : v / 256 / 256 ^ (c - (a + 1)) = v / 256 ^ (c - a) := by
        rw [e, Nat.div_div_eq_div_mul, Nat.pow_succ, Nat.mul_comm]
      have hm : (mask / 2).testBit (c - (a + 1)) = mask.testBit (c - a) := by rw [e, Nat.testBit_succ]
      simp only [h1, h2, h3, true_and, hd, hm]
      split
      · rfl
      · split
        · exact memGet_memSet_other _ _ (by omega)
        · rfl

end Sys2Proof.Machine
end

