-- ==== Sys2Proof/Laws/Ops.lean ====
section
/-!
SUPPORT. One lemma for each shared operation that says what it can do: outcomes, objects, registers, cores, groups, the
register file, issue and the vector rows.
-/
namespace Sys2Proof.Machine

/-! ## Outcomes -/

theorem guarded_true {b : Bool} (t : State) (h : b = true) : guarded b t = .next t := by subst h; rfl

/-- A guarded effect answers a next state exactly where its event can occur. -/
theorem guarded_eq_next {b : Bool} {t u : State} : guarded b t = .next u ↔ b = true ∧ t = u := by
  cases b <;> simp [guarded, cannot]

theorem guarded_false {b : Bool} (t : State) (h : b = false) : guarded b t = cannot := by subst h; rfl

/-- A guarded effect never refuses. -/
theorem guarded_ne_refused (b : Bool) (t : State) (r : Refusal) : guarded b t ≠ .refused r := by
  cases b <;> simp [guarded, cannot]

/-! ## Objects and registers -/

/-- Two objects share no key as long as their subindexes and elements are in range. -/
theorem dkey_inj {i sub e i' sub' e' : Nat} (hs : sub < 256) (hs' : sub' < 256) (he : e < 2 ^ 20) (he' : e' < 2 ^ 20) :
    dkey i sub e = dkey i' sub' e' ↔ i = i' ∧ sub = sub' ∧ e = e' := by
  unfold dkey
  constructor
  · intro h
    omega
  · rintro ⟨rfl, rfl, rfl⟩
    rfl

@[simp] theorem State.obj_setObj_same (s : State) (i sub e v : Nat) : (s.setObj i sub e v).obj i sub e = v := by
  simp [State.obj, State.setObj]

theorem State.obj_setObj (s : State) {i sub e i' sub' e' : Nat} (v : Nat) (hs : sub < 256) (hs' : sub' < 256)
    (he : e < 2 ^ 20) (he' : e' < 2 ^ 20) :
    (s.setObj i sub e v).obj i' sub' e' = if i' = i ∧ sub' = sub ∧ e' = e then v else s.obj i' sub' e' := by
  simp only [State.obj, State.setObj, sget_sset, dkey_inj hs' hs he' he]

theorem State.obj_eq_of_dict {s t : State} (hd : t.dict = s.dict) (hg : t.grade = s.grade) (i sub e : Nat) :
    t.obj i sub e = s.obj i sub e := by simp [State.obj, hd, hg]

@[simp] theorem State.obj_setReg (s : State) (fn off v i sub e : Nat) : (s.setReg fn off v).obj i sub e = s.obj i sub e := rfl
@[simp] theorem State.obj_setCore (s : State) (c : Nat) (k : Core) (i sub e : Nat) :
    (s.setCore c k).obj i sub e = s.obj i sub e := rfl
@[simp] theorem State.obj_emit (s : State) (o : Output) (i sub e : Nat) : (s.emit o).obj i sub e = s.obj i sub e := rfl
@[simp] theorem State.obj_at (s : State) (ns i sub e : Nat) : (s.at ns).obj i sub e = s.obj i sub e := rfl
@[simp] theorem State.obj_tickStamp (s : State) (i sub e : Nat) : s.tickStamp.obj i sub e = s.obj i sub e := rfl
@[simp] theorem State.obj_updStep (s : State) (key : Nat) (f : Step → Step) (i sub e : Nat) :
    (updStep s key f).obj i sub e = s.obj i sub e := rfl
@[simp] theorem State.obj_queueEvent (s : State) (fn : Fn) (a b c d i sub e : Nat) :
    (queueEvent s fn a b c d).obj i sub e = s.obj i sub e := rfl

/-- Clearing an object returns its elements to their defaults and leaves every other object alone. -/
theorem State.obj_clearObj (s : State) {i sub i' sub' e' : Nat} (hs : sub < 256) (hs' : sub' < 256) (he' : e' < 2 ^ 20) :
    (s.clearObj i sub).obj i' sub' e' =
      if i' = i ∧ sub' = sub then dictDefault s.grade (dkey i' sub' e') else s.obj i' sub' e' := by
  simp only [State.obj, State.clearObj_dict, State.clearObj_grade, sget_sclear]
  have h : (dkey i sub 0 ≤ dkey i' sub' e' ∧ dkey i' sub' e' < dkey i (sub + 1) 0) ↔ (i' = i ∧ sub' = sub) := by
    unfold dkey
    omega
  simp only [h]

@[simp] theorem State.reg_setReg_same (s : State) (fn off v : Nat) : (s.setReg fn off v).reg fn off = v := by
  simp [State.reg, State.setReg]

/-- Two registers share no key as long as their offsets are within a function's space. -/
theorem rkey_inj {f o f' o' : Nat} (ho : o < 2 ^ 25) (ho' : o' < 2 ^ 25) : rkey f o = rkey f' o' ↔ f = f' ∧ o = o' := by
  unfold rkey
  omega

theorem State.reg_setReg (s : State) {fn off fn' off' : Nat} (v : Nat) (ho : off < 2 ^ 25) (ho' : off' < 2 ^ 25) :
    (s.setReg fn off v).reg fn' off' = if fn' = fn ∧ off' = off then v else s.reg fn' off' := by
  simp only [State.reg, State.setReg, sget_sset, rkey_inj ho' ho]

@[simp] theorem State.reg_setObj (s : State) (i sub e v fn off : Nat) : (s.setObj i sub e v).reg fn off = s.reg fn off := rfl
@[simp] theorem State.reg_setCore (s : State) (c : Nat) (k : Core) (fn off : Nat) :
    (s.setCore c k).reg fn off = s.reg fn off := rfl
@[simp] theorem State.reg_emit (s : State) (o : Output) (fn off : Nat) : (s.emit o).reg fn off = s.reg fn off := rfl

/-! ## Cores and groups -/

@[simp] theorem State.core_setCore_same (s : State) (c : Nat) (k : Core) : (s.setCore c k).core c = k := by
  simp [State.core, State.setCore]

theorem State.core_setCore (s : State) (c d : Nat) (k : Core) :
    (s.setCore c k).core d = if d = c then k else s.core d := by
  simp only [State.core, State.setCore, sget_sset]

@[simp] theorem State.core_setObj (s : State) (i sub e v c : Nat) : (s.setObj i sub e v).core c = s.core c := rfl
@[simp] theorem State.core_setReg (s : State) (fn off v c : Nat) : (s.setReg fn off v).core c = s.core c := rfl
@[simp] theorem State.core_emit (s : State) (o : Output) (c : Nat) : (s.emit o).core c = s.core c := rfl

@[simp] theorem Core.group_setGroup_same (k : Core) (n : Nat) (g : Group) : (k.setGroup n g).group n = g := by
  simp [Core.group, Core.setGroup]

theorem Core.group_setGroup (k : Core) (n m : Nat) (g : Group) :
    (k.setGroup n g).group m = if m = n then g else k.group m := by
  simp only [Core.group, Core.setGroup, sget_sset]

@[simp] theorem Core.v_setGroup (k : Core) (n : Nat) (g : Group) (slot row lane : Nat) :
    (k.setGroup n g).v slot row lane = k.v slot row lane := rfl
@[simp] theorem Core.u_setGroup (k : Core) (n : Nat) (g : Group) (slot m : Nat) :
    (k.setGroup n g).u slot m = k.u slot m := rfl

/-! ## The register file (R109) -/

theorem rfKey_inj {sl r t sl' r' t' : Nat} (hr : r < 64) (ht : t < 32) (hr' : r' < 64) (ht' : t' < 32) :
    rfKey sl r t = rfKey sl' r' t' ↔ sl = sl' ∧ r = r' ∧ t = t' := by
  unfold rfKey
  omega

theorem Core.v_setV (k : Core) {slot row lane sl r t : Nat} (w : Word) (hr : row < 64) (hl : lane < 32) (hr' : r < 64)
    (ht : t < 32) : (k.setV slot row lane w).v sl r t = if sl = slot ∧ r = row ∧ t = lane then w else k.v sl r t := by
  simp only [Core.v, Core.setV, sget_sset, rfKey_inj hr' ht hr hl]

theorem Core.setV_eq (k : Core) (slot row lane : Nat) (w : Word) :
    k.setV slot row lane w = { k with rf := (k.setV slot row lane w).rf } := rfl

theorem Core.foldl_setV_eq (slot row : Nat) (f : Nat → Word) (l : List Nat) : ∀ k : Core,
    l.foldl (fun k t => k.setV slot row t (f t)) k =
      { k with rf := (l.foldl (fun k t => k.setV slot row t (f t)) k).rf } := by
  induction l with
  | nil => intro k; rfl
  | cons a l ih => intro k; rw [List.foldl_cons, ih]; rfl

theorem Core.foldl_setV_v (slot row : Nat) (f : Nat → Word) {sl r t : Nat} (hr : row < 64) (hr' : r < 64) (ht : t < 32)
    (l : List Nat) : ∀ k : Core, (∀ x ∈ l, x < 32) →
    (l.foldl (fun k t => k.setV slot row t (f t)) k).v sl r t =
      if sl = slot ∧ r = row ∧ t ∈ l then f t else k.v sl r t := by
  induction l with
  | nil => intro k _; simp
  | cons a l ih =>
    intro k hl
    have ha : a < 32 := hl a (by simp)
    rw [List.foldl_cons, ih _ fun x hx => hl x (by simp [hx]), Core.v_setV k _ hr ha hr' ht]
    by_cases h : sl = slot ∧ r = row
    · obtain ⟨rfl, rfl⟩ := h
      by_cases hta : t = a
      · subst hta; simp
      · simp [hta]
    · have h1 : ∀ p : Prop, ¬(sl = slot ∧ r = row ∧ p) := fun p hp => h ⟨hp.1, hp.2.1⟩
      simp [h1]

theorem mem_lanesOf {mask : Word} {t : Nat} : t ∈ lanesOf mask ↔ t < 32 ∧ mask.getLsbD t = true := by
  simp [lanesOf, lanes]

/-- Writing a row changes nothing of a core but its register file. -/
theorem Core.setVs_eq (k : Core) (slot row : Nat) (mask : Word) (f : Nat → Word) :
    k.setVs slot row mask f = { k with rf := (k.setVs slot row mask f).rf } := Core.foldl_setV_eq slot row f _ k

/-- Writing a row writes the threads of the mask and no other register-file word. -/
theorem Core.setVs_v (k : Core) {slot row sl r t : Nat} (mask : Word) (f : Nat → Word) (hr : row < 64) (hr' : r < 64)
    (ht : t < 32) : (k.setVs slot row mask f).v sl r t =
      if sl = slot ∧ r = row ∧ mask.getLsbD t = true then f t else k.v sl r t := by
  unfold Core.setVs
  rw [Core.foldl_setV_v slot row f hr hr' ht _ k fun x hx => (mem_lanesOf.mp hx).1]
  simp [mem_lanesOf, ht]

theorem regNo_lt_of_isV {spec : BitVec 7} (h : isV spec = true) : regNo spec < 64 := by
  revert h
  revert spec
  decide

/-! ## Issue -/

/-- A legal instruction of a group that may issue, none of whose registers a load will write, acts. -/
theorem issue_acts {s : State} {g : GroupRef} {regs : List (BitVec 7)} {act : State → Core → Group → Effect}
    (hi : canIssue s g = true) (hw : (s.core g.core).waitTag g.slot regs = none) :
    issue s g none regs act = .next (applyEffect s g (act s (s.core g.core) ((s.core g.core).group g.slot))) := by
  simp [issue, hi, hw, guarded]

/-- An instruction that names a register which a load will write moves its group to the pending set. -/
theorem issue_waits {s : State} {g : GroupRef} {regs : List (BitVec 7)} {act : State → Core → Group → Effect} {tag : Nat}
    (hi : canIssue s g = true) (hw : (s.core g.core).waitTag g.slot regs = some tag) :
    issue s g none regs act = .next (s.setCore g.core ((s.core g.core).setGroup g.slot
      (((s.core g.core).group g.slot).pend waitLoad tag))) := by
  simp [issue, hi, hw, guarded, applyEffect]

/-- An ill-formed instruction faults its group. -/
theorem issue_faults {s : State} {g : GroupRef} {regs : List (BitVec 7)} {act : State → Core → Group → Effect} {cause : Nat}
    (hi : canIssue s g = true) :
    issue s g (some cause) regs act =
      .next (takeFault s g.core g.slot cause 0 ((s.core g.core).group g.slot).pc) := by
  simp [issue, hi, guarded]

/-- Issuing answers a next state exactly where the group may issue. -/
theorem issue_next_iff {s t : State} {g : GroupRef} {legal : Option Nat} {regs : List (BitVec 7)}
    {act : State → Core → Group → Effect} (h : issue s g legal regs act = .next t) : canIssue s g = true := by
  unfold issue at h
  exact (guarded_eq_next.mp h).1

/-- A vector row of legal operands writes DST of each active thread and advances its group. -/
theorem vecRun_acts {s : State} {g : GroupRef} {v : VArgs} {op : Word → Word → Word → Word}
    (hv : v.illegal = false) (hi : canIssue s g = true) (hw : (s.core g.core).waitTag g.slot v.regs = none) :
    vecRun s g v false op = .next (s.setCore g.core
      ((vecWrite (s.core g.core) ((s.core g.core).group g.slot) g.slot v op).setGroup g.slot
        ((s.core g.core).group g.slot).advance)) := by
  unfold vecRun
  rw [show firstFault v.illegal false = none by simp [firstFault, hv]]
  exact issue_acts hi hw

end Sys2Proof.Machine
end

