-- ==== Sys2Proof/Tests/Slice0.lean ====
section
/-!
SUPPORT. Tests of the model on small states: ill-formed terms that WellFormed refuses, worked examples of the spec, and
for every obligation with hypotheses a state and operands that meet them (`wit_…`), with the command completing there.
-/
namespace Sys2Proof.Tests
set_option Elab.async false
open Sys2Proof Sys2Proof.Machine Sys2Proof.Claims

/-! ## Small states -/

/-- Whether a command completes. -/
def ok : Out → Bool
  | .next _ => true
  | _ => false

/-- The state after a command that completes. -/
def post : Out → State
  | .next t => t
  | _ => State.reset

/-- A command of one resident group with 64 KiB of local memory. -/
def aCmd : CoreCmd := ⟨1, 0, 0, 0x10000, 0, 1, 0, 1, 1, 64, 1, 0, false, 0, true, false, false, false⟩

/-- An active group of 32 threads at instruction 16. -/
def aGroup : Group := { Group.empty with pc := 16, mask := BitVec.allOnes 32, status := 1 }

/-- A core that runs the command with the group. -/
def aCore : Core := { Core.idle with cmd := some aCmd, groups := [(0, aGroup)] }

/-- The module with core 0 as given. -/
def withCore (k : Core) : State := { State.reset with cores := [(0, k)] }

/-- The module with a core that runs a group. -/
def busy : State := withCore aCore

/-- The group. -/
def g0 : GroupRef := ⟨0, 0⟩

/-- R fields without GUARD or MOD. -/
def rf (dst sa sb sc : Nat) (mod : Nat := 0) (guard : Nat := 0) : RFields :=
  ⟨BitVec.ofNat 5 guard, BitVec.ofNat 7 dst, BitVec.ofNat 7 sa, BitVec.ofNat 7 sb, BitVec.ofNat 7 sc, BitVec.ofNat 16 mod⟩

/-- B fields without GUARD. -/
def bf (ps : Nat) (ta tb : Int) : BFields := ⟨0, BitVec.ofNat 3 ps, BitVec.ofInt 20 ta, BitVec.ofInt 20 tb, 0⟩

/-- M fields without GUARD or attributes. -/
def mf (data addr width : Nat) (hi : Nat := 0) (off : Nat := 0) : MFields :=
  ⟨0, BitVec.ofNat 7 data, BitVec.ofNat 7 addr, BitVec.ofNat 3 width, BitVec.ofNat 3 hi, ⟨0, false, false, false, false⟩,
    BitVec.ofNat 25 off⟩


/-- X fields without GUARD. -/
def xf (kt tile da db : Nat) (pd : Nat := 0) : XFields :=
  ⟨0, BitVec.ofNat 4 kt, BitVec.ofNat 4 tile, BitVec.ofNat 6 da, BitVec.ofNat 6 db, BitVec.ofNat 3 pd, 0⟩

/-- Atomic fields without GUARD or attributes. -/
def af (data addr : Nat) (ret : Bool := false) : AFields :=
  ⟨0, BitVec.ofNat 7 data, BitVec.ofNat 7 addr, ret, ⟨0, false, false, false, false⟩, 0⟩

/-- A home line that memory alone shares, with the low bytes of a number. -/
def held (v : Nat) : HomeLine := { HomeLine.none with st := 2, data := BitVec.ofNat 4096 v }

/-- Function 0 with page 0 of its space mapped writable on frame 16: the level-1 table at 0, the level-2 table at 2^19, the
first line of the frame held at its home with value 0, the translation cached. -/
def mapped (s : State) : State :=
  { s with
    coh := { s.coh with home := [(0, held (2 ^ 19 + 1)), (2048, held (16 * 2 ^ 16 + 3)), (4096, held 0)] }
    host := { s.host with ctxSet := [(0, true)], tlb := [(0, 16 * 2 ^ 16 + 3)] } }

/-- The first line of frame 16. -/
def line16 : Line := ⟨2048, false⟩

/-- A core whose group has one active thread, with 5 in v1 of thread 0. -/
def oneThread : Core := { aCore with rf := [(32, 5)], groups := [(0, { aGroup with mask := 1 })] }

/-- A core whose group holds `st` in STATUS, with entries on the path stack. -/
def stacked (depth : Nat) (es : List (Nat × PathEntry)) (mask exited : Nat) : Core :=
  es.foldl (fun k e => k.setEntry aCmd 0 e.1 e.2)
    { aCore with groups := [(0, { aGroup with
        mask := BitVec.ofNat 32 mask
        exited := BitVec.ofNat 32 exited
        status := BitVec.ofNat 32 (1 + 256 * depth) })] }

/-- A load of two threads' words from line 16, which has arrived. -/
def aLoad : LoadRec :=
  ⟨7, false, 0, 0, false, 0, 3, 1, 3, false, false, [⟨0, line16, 0, 0⟩, ⟨1, line16, 4, 0⟩],
    [⟨line16, 0, true, true, 0x55AA, 0⟩], [], false⟩

/-- A word of an inbox. -/
def aWord (last : Bool) : InWord := ⟨0x77, last, false, 0, 3⟩

/-- A reduction packet with nothing in it. -/
def default_red : RedPacket := ⟨0, 0, 0, 0, 0, line16, 0, 0, 0, 0⟩

/-- A packet of a partner with nothing in it. -/
def default_packet : PeerPacket := ⟨0, false, false, 0, 0, 0, 0, 0, 0, 0, 0, 0, 0, .addU32, [], default_red⟩

/-! ## Kernel code -/

theorem wit_VectorIntegerResults : let f := rf 1 0x68 0x40 2
    let v := vArgsR f true true 0
    (∃ op, integerRow (.imad g0 f) = some (g0, v, op)) ∧ v.illegal = false ∧ Ready busy g0 v.regs ∧
      ok (exec (.imad g0 f) busy) = true := by
  refine ⟨⟨_, rfl⟩, ?_, ?_, ?_⟩ <;> (try unfold Ready) <;> decide

theorem wit_BitFieldAndSelectResults : let f := rf 1 2 3 0 (32 * 32)
    (vArgsR f false false 0xFFF).illegal = false ∧ 0 < f.mod.toNat / 32 % 64 ∧ f.mod.toNat % 32 + f.mod.toNat / 32 % 64 ≤ 32 ∧
      Ready busy g0 (vArgsR f false false 0xFFF).regs ∧ (vArgsR f true false 0x7FF).illegal = false ∧
      Ready busy g0 (vArgsR f true false 0x7FF).regs ∧ (vArgsR (rf 1 2 3 0 7) true false 7).illegal = false ∧
      Ready busy g0 (vArgsR (rf 1 2 3 0 7) true false 7).regs ∧ ok (exec (.bfe g0 f) busy) = true ∧
      ok (exec (.bfi g0 f) busy) = true ∧ ok (exec (.sel g0 (rf 1 2 3 0 7)) busy) = true := by
  unfold Ready; decide +kernel

theorem wit_VectorFloatResults : let f := rf 63 0x5F 0x68 0x41 0x0D
    let v := vArgsR f true true 15
    (∃ op, floatRow (.ffma g0 (.r f)) = some (g0, v, false, op)) ∧ v.illegal = false ∧ Ready busy g0 v.regs ∧
      ok (exec (.exp2 g0 (rf 1 2 0 0)) busy) = true := by
  refine ⟨⟨_, rfl⟩, ?_, ?_, ?_⟩ <;> (try unfold Ready) <;> decide

theorem wit_RoundToNearestIsNearest : Fmt.fp16 ∈ floatFormats ∧ (Fmt.fp16.narrow .rne (.fin false 2049 0)).sat = false ∧
    Fmt.fp16.decode (Fmt.fp16.encode .rne (.fin false 2049 0)) = .fin false 1024 1 ∧
    Fmt.fp16.decode 0x6801 = .fin false 1025 1 := by decide

/-- A VC word: FMT, SCALED and a rounding code. -/
def vc (fmt : Nat) (scaled : Bool) (rnd : Nat) : RFields := rf 1 2 (if scaled then 0x41 else 3) 0x40 (rnd + 4 * fmt + (if scaled then 64 else 0))

theorem wit_ConversionResults : ∀ f ∈ [vc 3 true 1, vc 2 false 0],
    Ready busy g0 ((vArgsR f false false 0x7F).regs ++ (if vcScaled f then [f.sc] else [])) ∧
      (vArgsR f false false 0x7F).illegal = false ∧ (vcScaled f = true → isU f.sc = true) ∧ vcFmt f ≠ 0 ∧
      scaleAllowed (vcFmt f) (vcScaled f) = true ∧ vcRound f ≠ 3 ∧ ok (exec (.cvt g0 f) busy) = true := by
  unfold Ready; decide +kernel

theorem wit_ConversionResults_widen : ∀ f ∈ [vc 5 true 0, vc 7 false 0],
    Ready busy g0 ((vArgsR f false false 0x7F).regs ++ (if vcScaled f then [f.sb] else [])) ∧
      (vArgsR f false false 0x7F).illegal = false ∧ (vcScaled f = true → isU f.sb = true) ∧ vcFmt f ≠ 0 ∧
      scaleAllowed (vcFmt f) (vcScaled f) = true ∧ vcRound f = 0 ∧ ok (exec (.cvtw g0 f) busy) = true := by
  unfold Ready; decide +kernel

theorem wit_ConversionResults_packed : let f := vc 1 false 0
    Ready busy g0 (vArgsR f true false 0x7F).regs ∧ (vArgsR f true false 0x7F).illegal = false ∧
      Ready busy g0 (vArgsR f false false 0xFF).regs ∧ (vArgsR f false false 0xFF).illegal = false ∧ vcFmt f = 1 ∧
      vcScaled f = false ∧ vcRound f = 0 ∧ ok (exec (.cvtp g0 f) busy) = true ∧ ok (exec (.cvtu g0 f) busy) = true ∧
      vcFmt (vc 0 false 1) = 0 ∧ vcRound (vc 0 false 1) < 2 ∧ ok (exec (.cvti g0 (vc 0 false 1)) busy) = true := by
  unfold Ready; decide +kernel

theorem wit_PredicateResults : let c := rf 0x67 0x40 0x68 0 7
    let i := rf 0x60 3 4 0 13
    let l := rf 0x61 0x62 0x63 0 3
    (isP c.dst = true ∧ isVUZ c.sa = true ∧ isVUZ c.sb = true ∧ c.mod.toNat < 8 ∧ Ready busy g0 [c.sa, c.sb] ∧
      ok (exec (.fsetp g0 c) busy) = true) ∧
    (isP i.dst = true ∧ isVUZ i.sa = true ∧ isVUZ i.sb = true ∧ i.mod.toNat < 16 ∧ i.mod.toNat % 8 < 6 ∧
      Ready busy g0 [i.sa, i.sb] ∧ ok (exec (.isetp g0 i) busy) = true) ∧
    (isP l.dst = true ∧ isP l.sa = true ∧ isP l.sb = true ∧ l.mod.toNat < 4 ∧ l.guard = 0 ∧ Ready busy g0 [] ∧
      ok (exec (.plop g0 l) busy) = true) ∧
    (∀ m ∈ [rf 0x60 0x5F 0 0, rf 0x40 0x67 0 0], Ready busy g0 [m.sa, m.dst] ∧ m.guard = 0 ∧
      ok (exec (.pmov g0 m) busy) = true) ∧ ok (exec (.vote g0 (rf 0x40 0x67 0 0)) busy) = true := by
  unfold Ready; decide +kernel

theorem wit_ScalarResults : let f := rf 0x5F 0x40 0x68 0x40
    let v := scArgs (.r f) true
    (∃ op, scalarRow (.scFfma g0 (.r f)) = some (g0, v, op)) ∧ v.illegal = false ∧ Ready busy g0 v.regs ∧
      ok (exec (.scAdd g0 (.i ⟨0, 0x40, 0x41, 7⟩)) busy) = true := by
  refine ⟨⟨_, rfl⟩, ?_, ?_, ?_⟩ <;> (try unfold Ready) <;> decide

theorem wit_MoveResults :
    (∀ f ∈ [rf 1 0x67 0 0, rf 1 0x68 0 0], (regOf f.sa).isSome = true ∧ isV f.dst = true ∧ f.mod = 0 ∧
      Ready busy g0 [f.sa, f.dst] ∧ ok (exec (.mov g0 f) busy) = true) ∧
    (∀ f ∈ [rf 0x41 0x40 0 0, rf 0x41 0x40 0 0 0 0x10], isUZ f.sa = true ∧ isU f.dst = true ∧ f.mod = 0 ∧
      Ready busy g0 [f.sa, f.dst] ∧ ok (exec (.mov g0 f) busy) = true) ∧
    emask busy g0 0 ≠ 0 ∧ emask busy g0 0x10 = 0 ∧
    (vArgsR (rf 1 2 3 0) true false 0).illegal = false ∧ Ready busy g0 (vArgsR (rf 1 2 3 0) true false 0).regs ∧
    ok (exec (.shfl g0 (rf 1 2 3 0)) busy) = true ∧
    (let f := rf 0x40 63 0x5F 0
     isU f.dst = true ∧ isV f.sa = true ∧ isU f.sb = true ∧ f.mod = 0 ∧ Ready busy g0 [f.sa, f.sb, f.dst] ∧
       ok (exec (.rdlane g0 f) busy) = true) := by
  unfold Ready; decide +kernel

theorem wit_LocalMemoryAccesses : ∀ w ∈ [0, 3, 5], let f := mf 4 0x68 w
    let act := lanesOf (emask busy g0 f.guard)
    Ready busy g0 (specRun f.data (widthRegs f.width) ++ [f.addr]) ∧ ldlLegal f true = none ∧ ldlLegal f false = none ∧
      ldlFault aCore aGroup 0 f = none ∧ aCore.holders (accessOrder busy g0) true (act.map (ldlSpan aCore aGroup 0 f)) = [] ∧
      aCore.holders (accessOrder busy g0) false (act.map (ldlSpan aCore aGroup 0 f)) = [] ∧
      (act.map (ldlSpan aCore aGroup 0 f)).any aCore.spanMarked = false ∧ aCore.heldOf g0.slot = none ∧
      ok (exec (.ldlStore g0 f) busy) = true ∧ ok (exec (.ldlLoad g0 f) busy) = true := by
  unfold Ready; decide +kernel

/-- A transfer of site 5 from line 16 to local address 0, and a core that holds the accesses to its span. -/
def aXfer : XferRec :=
  ⟨9, 0, 5, 0, false, false, 4, 0, 0, false, [⟨0, line16, 0, 0⟩], [⟨line16, 0, true, true, 0x1234, 0⟩]⟩

def holding : State := { withCore { aCore with xfers := [aXfer] } with stamp := 10 }

theorem wit_HeldAccessWaits : let f := mf 4 0x68 3
    let spans := (lanesOf (emask holding g0 f.guard)).map (ldlSpan (holding.core 0) aGroup 0 f)
    Ready holding g0 (specRun f.data (widthRegs f.width) ++ [f.addr]) ∧ ldlFault (holding.core 0) aGroup 0 f = none ∧
      (holding.core 0).holders (accessOrder holding g0) true spans = [9] ∧
      (holding.core 0).holders (accessOrder holding g0) false spans = [9] ∧
      (post (exec (.ldlStore g0 f) holding)).obj 0x3060 4 0 = 1 ∧ (grp (post (exec (.ldlLoad g0 f) holding)) g0).state = 2 := by
  unfold Ready; decide +kernel

theorem wit_DeviceLoadIssues : ∀ ro ∈ [false, true],
    let f := { mf 4 0x68 5 with attrs := ⟨0, ro, false, false, false⟩, addr := 2 }
    let s := mapped busy
    let vas := ldgVas s g0 f.guard f.addr f.offset
    let as := (locateAll (s.setCore 0 ((s.core 0).leaveRoQueue 0)) (s.core 0) 0 f.attrs vas).1
    Ready s g0 (specRun f.data (widthRegs f.width) ++ [f.addr, f.addr + 1]) ∧ ldgLegal f false = none ∧
      (∀ p ∈ vas, p.2 % widthBytes f.width = 0) ∧ placeFault false as = none ∧ as ≠ [] ∧
      (ro = true → roMayIssue (s.core 0) 0 (linesOf (accesses s g0 f.attrs vas).1) = true ∧
        roMayIssue ({ s.core 0 with roQueue := [1] }) 0 (linesOf (accesses s g0 f.attrs vas).1) = false ∧
        allHit (s.core 0) (linesOf as) = false) ∧ ok (exec (.ldgLoad g0 f) s) = true := by
  unfold Ready; decide +kernel

theorem wit_DeviceStoreIssues : ∀ m ∈ [0, 1],
    let f := mf 4 2 5
    let s := mapped (withCore { aCore with groups := [(0, { aGroup with mask := BitVec.ofNat 32 m })] })
    let as := (accesses s g0 f.attrs (ldgVas s g0 f.guard f.addr f.offset)).1
    Ready s g0 (specRun f.data (widthRegs f.width) ++ [f.addr, f.addr + 1]) ∧ ldgLegal f true = none ∧
      (∀ p ∈ ldgVas s g0 f.guard f.addr f.offset, p.2 % widthBytes f.width = 0) ∧ placeFault true as = none ∧
      (m = 0 → as = []) ∧ ok (exec (.ldgStore g0 f) s) = true := by
  unfold Ready; decide +kernel

theorem wit_TranslationIsCached : Cached (mapped busy) 0 4 ∧ sget (fun _ => 0) (mapped busy).host.tlb (tlbKey 0 4) ≠ 0 ∧
    walkGives (walkNow (mapped busy) 0 4) (sget (fun _ => 0) (mapped busy).host.tlb (tlbKey 0 4)) = true := by
  unfold Cached; decide +kernel

theorem wit_AtomicIssues : ∀ ret ∈ [false, true], let f := { af 4 2 ret with attrs := ⟨0, false, false, false, false⟩ }
    let s := mapped busy
    let as := (accesses s g0 f.attrs (ldgVas s g0 f.guard f.addr f.offset)).1
    atomicRow (.atomCasU64 g0 f) = some (g0, f, .casU64) ∧
      Ready s g0 (specRun f.data (atomRegs .casU64) ++ [f.addr, f.addr + 1]) ∧ atomLegal f .casU64 = none ∧
      (∀ p ∈ ldgVas s g0 f.guard f.addr f.offset, p.2 % atomSize .casU64 = 0) ∧ placeFault true as = none ∧ as ≠ [] ∧
      ok (exec (.atomCasU64 g0 f) s) = true := by
  unfold Ready; decide +kernel

/-- Two threads that write 16 bytes each at the end of line 16. -/
def twoAt : List LaneAt := [⟨0, 496, .line line16 true⟩, ⟨1, 496, .line line16 true⟩]

theorem wit_LineWrites : (∀ a ∈ twoAt, a.va % 512 + 16 ≤ 512) ∧
    (lineWrites twoAt 16 (fun n => n + 0x10) fun _ _ => false).length = 1 ∧
    ∀ w ∈ lineWrites twoAt 16 (fun n => n + 0x10) fun _ _ => false, twoAt[1]?.map LaneAt.key = some w.line ∧
      lineBytes w.data 496 1 = 0x11 ∧ w.mask.getLsbD 511 = true ∧ w.mask.getLsbD 495 = false := by
  decide +kernel

theorem wit_AtomicAtLine : let o : LaneOp := ⟨0, 496, 7, 0⟩
    o.off.val % atomSize .casU128 = 0 ∧ touched (maskOf o.off (atomSize .casU128)) &&& 7 = 0 ∧
      atomValue .casU128 (lineBytes 0 o.off (atomSize .casU128)) o.val o.cmp = some 7 ∧
      lineBytes (runOps .casU128 7 [o] 0).1 496 16 = 7 := by decide +kernel

theorem wit_AcquireTakesFreeLock : let f := af 1 2
    let s := mapped (withCore oneThread)
    let k := s.core 0
    let gr := grp s g0
    let a : LaneAt := ⟨0, 0, .line line16 true⟩
    Ready s g0 [f.data, f.addr, f.addr + 1] ∧ acqLegal gr.pc f = none ∧ lanesOf gr.mask = [0] ∧
      k.src gr 0 f.data 0 ≠ 0 ∧ devAddr k gr 0 f.addr 0 0 % 4 = 0 ∧
      locateAll s k 0 f.attrs [(0, devAddr k gr 0 f.addr 0 0)] = ([a], s) ∧ a.va % 512 + 4 ≤ 512 ∧
      sget (fun _ => 0) s.host.dirty k.fn.val = 0 ∧ (k.writes.all fun w => w.msg.line != line16) = true ∧
      unsettled s line16 = false ∧ (homeLine s line16).st = 2 ∧ (homeLine s line16).busy = none ∧
      (homeLine s line16).presence = 0 ∧ (homeLine s line16).marks = 0 ∧ (homeLine s line16).discarded = false ∧
      lineBytes (homeLine s line16).data (a.va % 512) 4 = 0 ∧ ok (exec (.acq g0 f) s) = true ∧
      (grp (post (exec (.acq g0 f) s)) g0).pc = 17 ∧
      lineBytes (homeLine (post (exec (.acq g0 f) s)) line16).data 0 4 = 5 := by
  unfold Ready; decide +kernel

theorem wit_TransfersIssue : let f := mf 0x68 2 5
    let s := mapped busy
    let act := lanesOf (emask s g0 f.guard)
    let as := (accesses s g0 f.attrs (xferVas s g0 f)).1
    Ready s g0 [f.data, f.addr, f.addr + 1] ∧ xferFault aCore aGroup 0 f act = none ∧ xferLegal f false = none ∧
      xferLegal f true = none ∧ placeFault false as = none ∧ placeFault true as = none ∧ act ≠ [] ∧
      ok (exec (.xferIn g0 f) s) = true ∧ ok (exec (.xferOut g0 f) s) = true := by
  unfold Ready; decide +kernel

theorem wit_MatrixOperationsIssue : let f := xf 15 3 0 0
    let k := { aCore with tickets := [(15, 254)] }
    matrixRow (.tzero g0 f) = some (g0, f, .tzero) ∧ Ready (withCore k) g0 [] ∧ k.mq.length < 16 ∧ k.ticket 15 < 255 ∧
      matLegal .tzero f (k.desc 0) (k.desc 0) 65280 = none ∧ aCmd.window = 65280 ∧
      ok (exec (.tzero g0 f) (withCore k)) = true ∧ ((post (exec (.tzero g0 f) (withCore k))).core 0).ticket 15 = 255 := by
  unfold Ready; decide

theorem wit_TicketsAndDescriptors : let k := { aCore with tickets := [(1, 3)] }
    let d : DFields := ⟨0, 63, 0x68, 7, 0xABCD⟩
    Ready (withCore k) g0 [] ∧ k.ticket 0 = 0 ∧ k.ticket 1 ≠ 0 ∧ ok (exec (.twait g0 (xf 0 0 0 0)) (withCore k)) = true ∧
      ok (exec (.twait g0 (xf 1 0 0 0)) (withCore k)) = true ∧ ok (exec (.ttest g0 (xf 1 0 0 0 7)) (withCore k)) = true ∧
      d.dst.toNat < 64 ∧ d.func.toNat < 8 ∧ isUZ d.sa = true ∧ Ready (withCore k) g0 [d.sa] ∧
      ok (exec (.dwr g0 d) (withCore k)) = true := by
  unfold Ready; decide

theorem wit_JoinPopsTheTopEntry : ∀ d ∈ [0, 1], let k := stacked d [(0, ⟨true, 40, 0xF⟩)] 1 0
    Ready (withCore k) g0 [] ∧ k.cmd = some aCmd ∧ ok (exec (.join g0 (bf 0 0 0)) (withCore k)) = true ∧
      (grp (post (exec (.join g0 (bf 0 0 0)) (withCore k))) g0).pc = if d = 0 then 17 else 40 := by
  unfold Ready; decide +kernel

theorem wit_SplitPushes : ∀ p ∈ [0, 5, 15], let k := { stacked 30 [] 15 0 with groups :=
      [(0, { aGroup with mask := 15, status := 1 + 256 * 30, preds := Vector.replicate 8 (BitVec.ofNat 32 p) })] }
    let s := withCore k
    let f := bf 1 4 (-16)
    Ready s g0 [] ∧ k.cmd = some aCmd ∧ 0 ≤ ((grp s g0).pc.toNat : Int) + f.ta.toInt ∧
      0 ≤ ((grp s g0).pc.toNat : Int) + f.tb.toInt ∧ (grp s g0).mask &&& (grp s g0).pred 1 = BitVec.ofNat 32 p ∧
      aCmd.resident * 256 ≤ aCmd.lmemBytes ∧ (grp s g0).depth + 2 ≤ 32 ∧ g0.slot.val < aCmd.resident ∧
      (grp s g0).pc.toNat + 1 < 2 ^ 31 ∧
      (BitVec.ofInt 32 ((grp s g0).pc.toNat + f.tb.toInt) : Word).toNat < 2 ^ 31 ∧ ok (exec (.split g0 f) s) = true ∧
      (grp (post (exec (.split g0 f) s)) g0).depth = if p = 5 then 32 else 30 := by
  unfold Ready; decide +kernel

theorem wit_ExitEndsAGroup : ∀ d ∈ [0, 1], let k := stacked d [(0, ⟨false, 40, 3⟩)] 1 0
    Ready (withCore k) g0 [] ∧ k.cmd = some aCmd ∧
      (d = 1 → (k.entry aCmd 0 0).mask &&& ~~~((k.group 0).exited ||| (k.group 0).mask) ≠ 0) ∧
      ok (exec (.exit g0 (bf 0 0 0)) (withCore k)) = true ∧
      (grp (post (exec (.exit g0 (bf 0 0 0)) (withCore k))) g0).state = d := by
  unfold Ready; decide +kernel

theorem wit_Barrier : ∀ e ∈ [0, 1, 2, 300], ∀ two ∈ [false, true],
    let gs := if two then [(0, aGroup), (1, aGroup)] else [(0, aGroup)]
    let k := { aCore with rf := if e = 0 then [] else [(63 * 32, BitVec.ofNat 32 e)], groups := gs }
    let f := rf 0 0x40 0 0 15
    Ready (withCore k) g0 [f.sa] ∧ k.cmd = some aCmd ∧ f.guard = 0 ∧ f.mod.toNat < 16 ∧ isUZ f.sa = true ∧
      ((k.group 0).mask = ~~~(k.group 0).exited ∨ aCmd.strict = false) ∧ k.atBarrier 15 = [] ∧
      (k.usrc (k.group 0) 0 f.sa).toNat = e ∧ ok (exec (.bar g0 f) (withCore k)) = true ∧
      (grp (post (exec (.bar g0 f) (withCore k))) g0).atBarrier = (decide (1 < e) || (decide (e = 0) && two)) := by
  unfold Ready; decide +kernel

theorem wit_PartialBarrier : let c := { aCmd with strict := false }
    let k := { aCore with cmd := some c, groups := [(0, { aGroup with mask := 1 })], rf := [(63 * 32, 2)] }
    let f := rf 0 0x40 0 0 15
    Ready (withCore k) g0 [f.sa] ∧ c.strict = false ∧ k.atBarrier 15 = [] ∧
      (post (exec (.bar g0 f) (withCore k))).obj 0x3050 1 0 = 1 := by
  unfold Ready; decide +kernel

theorem wit_BranchesAndControl : let f := bf 0 (-16) 0
    Ready busy g0 [] ∧ 0 ≤ ((grp busy g0).pc.toNat : Int) + f.ta.toInt ∧ ok (exec (.bra g0 f) busy) = true ∧
      ok (exec (.bany g0 f) busy) = true ∧ ok (exec (.bnone g0 f) busy) = true ∧ ok (exec (.ball g0 f) busy) = true ∧
      (grp (post (exec (.bnone g0 f) busy)) g0).pc = 0 ∧ (grp (post (exec (.ball g0 f) busy)) g0).pc = 17 ∧
      ok (exec (.ctlNop g0 (rf 0 0 0 0)) busy) = true ∧ isU (rf 0 0x5F 0 0).sa = true ∧
      Ready busy g0 [(rf 0 0x5F 0 0).sa] ∧ ok (exec (.jr g0 (rf 0 0x5F 0 0)) busy) = true ∧
      (let d := rf 0x5E 0 0 0
       isU d.dst = true ∧ regNo d.dst % 2 = 0 ∧ Ready busy g0 [d.dst, d.dst + 1] ∧ ok (exec (.rdtime g0 d) busy) = true ∧
         ok (exec (.rdtick g0 d) busy) = true ∧ Ready busy g0 [d.dst] ∧ aCore.cycles ≤ 2 ^ 32 + 7 ∧
         ((post (exec (.rdcyc g0 d (2 ^ 32 + 7)) busy)).core 0).u 0 (regNo d.dst) = 7) := by
  unfold Ready; decide

theorem wit_InboxReads : let f := rf 0x57 0 0 0
    let k := { aCore with inbox := { Inbox.empty with fifo := [aWord true] } }
    Ready (withCore k) g0 (specRun f.dst 9) ∧ isU f.dst = true ∧ regNo f.dst ≤ 23 ∧
      k.inbox.wide = some ([aWord true], []) ∧ k.firstReader = none ∧ ok (exec (.inrd g0 f) (withCore k)) = true ∧
      Ready busy g0 (specRun f.dst 9) ∧ aCore.inbox.wide = none ∧ ok (exec (.inrd g0 f) busy) = true ∧
      ((post (exec (.inrd g0 f) (withCore k))).core 0).u 0 23 = 0x77 ∧
      ((post (exec (.inrd g0 f) (withCore k))).core 0).u 0 31 = wideTag [aWord true] := by
  unfold Ready; decide +kernel

theorem wit_InboxSends :
    (let d := rf 0x5F 0 0 0
     isU d.dst = true ∧ Ready busy g0 [d.dst] ∧ ok (exec (.instat g0 d) busy) = true) ∧
    Ready busy g0 [] ∧ ok (exec (.inflush g0 (rf 0 0 0 0)) busy) = true ∧
    (let d := rf 0x60 0x40 0x41 0 1
     isP d.dst = true ∧ isU d.sa = true ∧ isU d.sb = true ∧ Ready busy g0 [d.sa, d.sb] ∧ ok (exec (.snd g0 d) busy) = true) ∧
    (let d := rf 0x67 0x50 0x41 0x42 0x1F
     isP d.dst = true ∧ isU d.sa = true ∧ regNo d.sa + d.mod.toNat % 16 + 1 ≤ 32 ∧ isU d.sb = true ∧ isU d.sc = true ∧
       Ready busy g0 (specRun d.sa (d.mod.toNat % 16 + 1) ++ [d.sb, d.sc]) ∧ ok (exec (.sndv g0 d) busy) = true) := by
  unfold Ready; decide +kernel

/-- Core 0 with an inbox, in service. -/
def boxed (b : Inbox) : State := (withCore { aCore with inbox := b }).setObj 0x4010 1 0 0

theorem wit_InboxArrivals : let s := boxed Inbox.empty
    let lk := boxed { Inbox.empty with lock := some ⟨0, 9, 0⟩ }
    let fl := boxed { Inbox.empty with flush := true, fifo := [aWord true] }
    let from0 (c : State) : Out := exec (.inboxWordArrival 0 0 0 0 0 7 false) c
    inService s 0 = true ∧ inService lk 0 = true ∧ inboxOwner (s.core 0) 0 0 = true ∧ inboxOwner (lk.core 0) 0 0 = true ∧
      senderOk s 0 0 0 0 = true ∧ senderOk lk 0 0 0 0 = true ∧ senderOk s 1 9 0 9 = true ∧ senderOk s 2 0 0 5 = true ∧
      (s.core 0).hw.fenced = false ∧ inboxOwner (s.core 0) 1 9 = false ∧
      (s.core 0).firstReader = none ∧ (lk.core 0).firstReader = none ∧ (fl.core 0).firstReader = none ∧
      (⟨0, 9, 0⟩ : Sender) ≠ ⟨0, 0, 0⟩ ∧ ok (from0 s) = true ∧
      ((post (from0 s)).core 0).inbox.lock = some ⟨0, 0, 0⟩ ∧ (post (from0 lk)).obj 0x3050 4 0 = 1 ∧
      (post (exec (.inboxWordArrival 0 1 9 0 9 7 true) s)).obj 0x3050 4 0 = 1 ∧
      ok (exec (.inboxPacketTimeout 0) lk) = true ∧ ok (exec (.flushEffect 0 false) fl) = true ∧
      (fl.core 0).inbox.partRead = false ∧ ((post (exec (.flushEffect 0 false) fl)).core 0).inbox.fifo = [] ∧
      ok (exec (.flushEffect 0 true) s) = true := by
  decide +kernel

theorem wit_LoadDataReaches : let s := withCore { aCore with loads := [aLoad] }
    let k := s.core 0
    let x := { aLoad with lines := [⟨line16, 0, true, true, 0x55AA, 1⟩] }
    let p := withCore { aCore with loads := [x] }
    (k.loads.find? fun x => x.slot == g0.slot && x.arrived) = some aLoad ∧ aLoad.poisoned = none ∧ (grp s g0).state = 1 ∧
      aLoad.ret = false ∧ isV aLoad.dst = true ∧ groupOk aLoad.dst (widthRegs aLoad.width) = true ∧
      (aLoad.lanes.map LaneAddr.lane).Nodup ∧ ok (exec (.loadDataReturn g0) s) = true ∧
      ((post (exec (.loadDataReturn g0) s)).core 0).v 0 1 0 = 0x55AA ∧
      ((p.core 0).loads.find? fun x => x.slot == g0.slot && x.arrived) = some x ∧ x.poisoned ≠ none ∧
      (p.core 0).cmd.isSome = true ∧ grp (post (exec (.loadDataReturn g0) p)) g0 = Group.empty := by decide +kernel

/-- A miss register whose line is at hand. -/
def aMiss : MissReg := ⟨31, line16, 15, 2, true, 0, 9, 0, false, [], false⟩

theorem wit_RoMissFill : let s := withCore { aCore with miss := [aMiss] }
    (((s.core 0).miss.find? fun m => m.no == 31) = some aMiss) ∧ aMiss.avail = true ∧ (15 : Marks) &&& aMiss.got = 0 ∧
      aMiss.got ||| 15 = sectorsUpTo aMiss.crit 4 ∧ aMiss.got ||| 12 = sectorsUpTo aMiss.crit 2 ∧
      (s.core 0).loads = [] ∧ (s.core 0).writes = [] ∧ (s.core 0).xfers = [] ∧ ok (exec (.roMissFill 0 31 12) s) = true ∧
      ok (exec (.roMissFill 0 31 15) s) = true ∧ ((post (exec (.roMissFill 0 31 15) s)).core 0).miss = [] := by
  decide +kernel

/-- An operation of the matrix queue in a phase. -/
def anOp (p : MatPhase) : MatOp := ⟨.tzero, 2, 0, 0, 0, 0, 5, 0, 0, p, 0, false, false⟩

theorem wit_PipesAndTransfers :
    let s (p : MatPhase) := withCore { aCore with mq := [anOp p], tickets := [(2, 1)] }
    let t := withCore { aCore with xfers := [aXfer] }
    ok (exec (.occupancyEnd 0 (anOp .running).array) (s .running)) = true ∧
      ok (exec (.matrixOpRetire 0 (anOp .draining).array) (s .draining)) = true ∧
      (anOp .draining).bad = false ∧ ((s .draining).core 0).xfers = [] ∧ ((s .draining).core 0).live ≠ [] ∧
      (post (exec (.matrixOpRetire 0 (anOp .draining).array) (s .draining))).obj 0x3060 1 0 = 1 ∧
      (((s .running).core 0).mq.find? fun o => o.array == (anOp .running).array && o.phase == .running) =
        some (anOp .running) ∧
      (((s .draining).core 0).mq.find? fun o => o.array == (anOp .draining).array && o.phase == .draining) =
        some (anOp .draining) ∧
      ((t.core 0).xfers.filter fun x => !x.out)[0]? = some aXfer ∧ aXfer.lines.all LineWait.got = true ∧
      (t.core 0).inHeld aXfer = false ∧ ok (exec (.xferSpanWritten 0 0) t) = true ∧
      memGet ((post (exec (.xferSpanWritten 0 0) t)).core 0).lmem 0 = 0x34 := by decide +kernel

theorem wit_GroupFaultStops : ∀ c ∈ [1, 11], (busy.core 0).cmd.isSome = true ∧ (grp busy g0).state = 1 ∧
    ok (exec (.groupFault g0 (BitVec.ofNat 8 c) 0) busy) = true ∧ ok (exec (.watchdog g0) busy) = true ∧
    ((post (exec (.groupFault g0 (BitVec.ofNat 8 c) 0) busy)).mgmt.logPend.map LogRec.cause) = [c] := by decide +kernel

theorem wit_IllegalWordFaults : let i := rf 0x40 2 3 0
    canIssue busy g0 = true ∧ (∃ op, integerRow (.isub g0 i) = some (g0, vArgsR i true false 0, op)) ∧
      (vArgsR i true false 0).illegal = true ∧ ok (exec (.isub g0 i) busy) = true ∧
      (∃ op, floatRow (.hadd2 g0 i) = some (g0, vArgsR i true false 0x17, false, op)) ∧
      (vArgsR i true false 0x17).illegal = true ∧
      ((post (exec (.hadd2 g0 i) busy)).mgmt.logPend.map LogRec.cause) = [1] ∧
      (∃ op, floatRow (.fadd g0 (.r (rf 1 2 3 0 2))) = some (g0, vArgs (.r (rf 1 2 3 0 2)) false 7, true, op)) ∧
      (vArgs (.r (rf 1 2 3 0 2)) false 7).illegal = false ∧
      ((post (exec (.fadd g0 (.r (rf 1 2 3 0 2))) busy)).mgmt.logPend.map LogRec.cause) = [2] := by
  refine ⟨by decide, ⟨_, rfl⟩, by decide, by decide +kernel, ⟨_, rfl⟩, by decide, by decide +kernel, ⟨_, rfl⟩, by decide,
    by decide +kernel⟩

theorem wit_SourceOfALoad : let s := withCore { aCore with loads := [aLoad] }
    let f := rf 2 1 3 0
    (∃ op, integerRow (.isub g0 f) = some (g0, vArgsR f true false 0, op)) ∧ (vArgsR f true false 0).illegal = false ∧
      canIssue s g0 = true ∧ (s.core g0.core).waitTag g0.slot (vArgsR f true false 0).regs = some 7 ∧
      (grp (post (exec (.isub g0 f) s)) g0).cause = 1 := by
  refine ⟨⟨_, rfl⟩, by decide, by decide, by decide, by decide +kernel⟩

/-! ## Ticks, steps and queues -/

/-- A released module whose function 0 is READY, with its page 0 mapped and the link up. -/
def live (s : State) : State :=
  let t := mapped ((s.setModule 0).setFn 0 2)
  { t with host := { t.host with linkUp := true } }

/-- A step of class `cls` with key 1, in the loaded plan, whose one command is as given. -/
def aStep (cls : Nat) (c : Cmd) : Step :=
  { key := 1, fn := 0, sq := 0, raw := BitVec.ofNat 1024 (77 + 2 ^ 64 * cls + 2 ^ 96 + 2 ^ 224 + 2 ^ 240), doorbell := 0
    phase := .running, admTick := 0, start := some 0, startNs := 0, lastTick := 0, endAt := 0, preempts := 0, usedUs := 0
    statuses := [], errRef := 0, degraded := false, replan := false, voided := false, readBad := none, prev := 0
    deposits := [], cmds := [c] }

/-- A command of a type, with the fields of its header from offset 8 and its payload. -/
def cmdOf (typ hi : Nat) (phase : CmdPhase) (payload : List (BitVec 256) := []) : Cmd :=
  ⟨0, BitVec.ofNat 256 (typ + 2 ^ 64 * hi), payload, none, phase, [], 0, 0, none, 0, []⟩

/-- The module with a step whose command has its place on core 0 and die 0. -/
def stepping (s : State) (t : Step) : State :=
  { s with sage := { s.sage with steps := [t], loaded := [⟨1, 100⟩], placedNow := [⟨⟨1, 0⟩, [0], 0⟩] } }

/-- The step's command. -/
def c0 : CmdRef := ⟨1, 0⟩

theorem wit_TickBoundary : let s := live { (withCore { aCore with cmd := some { aCmd with paused := true } }) with
      sage := { State.reset.sage with plan := [⟨1, 5⟩], planTick := 1 } }
    let r := { s with sage := { s.sage with steps := [{ aStep 1 (cmdOf 0 0 .running) with replan := true }] } }
    s.released = true ∧ s.now ≤ nextBoundary s ∧ slicesEnded s = true ∧ s.sage.timeStep = 0 ∧ s.sage.planTick = s.tick + 1 ∧
      ok (exec (.tickBoundary []) s) = true ∧ (post (exec (.tickBoundary []) s)).sage.loaded = [⟨1, 5⟩] ∧
      slicesEnded r = true ∧ ((post (exec (.tickBoundary []) r)).sage.loaded.map PlanItem.step).contains 1 = true := by
  decide +kernel

/-- A state with one step that has just arrived. -/
def arriving : State :=
  ((stepping (live State.reset) { aStep 1 (cmdOf 0 0 .waiting) with phase := .fresh, start := none }).setObj 0x4010 1 0 0).setReg 0
    (cqOff 0 + 8) (4 + 256)

theorem wit_PlanningCutoff : ∀ s ∈ [live State.reset, arriving],
    s.released = true ∧ s.sage.planTick ≠ s.tick + 1 ∧ s.now < nextBoundary s ∧
      (let s1 := latchStrict (s.at (max s.now (cutoff s)))
       let keys := arrived s1 (cutoff s1)
       match admitAll 0 0 keys (keys.length + 1) [] s1 with
       | some a => (match rereadPlan ((plannable s1).map Step.key) (setPlan a 0 0) with
         | some b => placesOk b []
         | none => false)
       | none => false) = true ∧ ok (exec (.planningCutoff 0 0 []) s) = true := by
  decide +kernel

theorem wit_NothingToPlan : (∀ x ∈ (live State.reset).sage.steps, x.phase = .ended) ∧
    (post (exec (.planningCutoff 0 0 []) arriving)).sage.steps.map Step.phase = [.admitted] := by decide +kernel

/-- A KERNEL command whose slice began at time 0. -/
def sliced : Cmd := { cmdOf 1 0 .running with sliceNs := some 0 }

theorem wit_SliceEnds : let s := stepping (live busy) (aStep 1 sliced)
    let b := setSlice (pauseCmd (useTime (s.at 5) 1 9) c0 true) c0 none
    let fits := { s with sage := { s.sage with spillNow := [(0, 0x10000), (256, 14)] } }
    let f := setSlice (pauseCmd (useTime (fits.at 5) 1 9) c0 true) c0 none
    findStep s 1 = some (aStep 1 sliced) ∧ (aStep 1 sliced).command 0 = some sliced ∧ s.now ≤ 5 ∧ cmdCores s c0 = [0] ∧
      sliceMayEnd s sliced 5 9 false = true ∧ ok (exec (.sliceEnd c0 5 9 false) s) = true ∧
      (aStep 1 sliced).cls ≠ 0 ∧ sliceMayEnd s sliced 5 9 true = true ∧ ((cmdCores s c0).all fun k => (s.core k).still) = true ∧
      (spillFree b 0).length < cmdPages b c0 ∧ ok (exec (.sliceEnd c0 5 9 true) s) = true ∧
      cmdPages f c0 ≤ (spillFree f 0).length ∧ ok (exec (.sliceEnd c0 5 9 true) fits) = true ∧
      ((findStep (post (exec (.sliceEnd c0 5 9 true) fits)) 1).map Step.statuses) = some [.faultUnrecovered] := by decide +kernel

theorem wit_SliceStarts :
    let x := aStep 1 (cmdOf 1 0 .running)
    let s := stepping (live (withCore { aCore with cmd := some { aCmd with paused := true } })) x
    let t := stepping ((live State.reset).setObj 0x4010 1 0 0) x
    let r : SpillRec := ⟨[], 1, 0, 0, aCore⟩
    let saved := { t with sage := { t.sage with spills := [r] } }
    let w : SliceWork := ⟨0, 0, []⟩
    inPlan s x = true ∧ sliceMayStart s (cmdOf 1 0 .running) 5 = true ∧ s.sage.spills = [] ∧ cmdCores s c0 ≠ [] ∧
      ((post (exec (.sliceStart c0 5 [] w) s)).core 0).cmd = some aCmd ∧ inPlan saved x = true ∧
      sliceMayStart saved (cmdOf 1 0 .running) 5 = true ∧ homeFor saved [0] (r, 0) = true ∧
      (coresOf saved 1).length + 1 ≤ x.coresMax ∧ (match (resumeAll [(r, 0)] (saved.at 5)).1 with
        | .ok _ => true
        | .error _ => false) = true ∧
      ((post (exec (.sliceStart c0 5 [0] w) saved)).core 0).groups = aCore.groups := by decide +kernel

theorem wit_Overrun : let x := aStep 0 (cmdOf 1 0 .running)
    let s := stepping (live busy) x
    findStep s 1 = some x ∧ s.now ≤ 5 ∧ x.phase = .running ∧ x.cls = 0 ∧ x.cost ≤ x.usedUs + x.cost ∧
      ok (exec (.overrun 1 5 x.cost) s) = true ∧
      ((findStep (post (exec (.overrun 1 5 x.cost) s)) 1).map Step.statuses) = some [.overrun] := by decide +kernel

theorem wit_SlowCoreFlagged : let s := (State.reset.setObj 0x4010 1 287 287).setObj 0x4030 2 255 64
    inService (s.setObj 0x4010 1 255 1) 255 = true ∧ s.obj 0x4030 2 255 = 64 ∧ s.obj 0x4030 3 255 = 0 ∧
      ok (exec (.slowCoreFlag 255) (s.setObj 0x4010 1 255 1)) = true := by decide +kernel

/-- A page that acts, with submission queue 63 and completion queues 63 and 64 of 16 entries, or closed. -/
def rings (enabled : Bool) : State :=
  let v := if enabled then 4 + 256 else 0
  (((live State.reset).setReg 0 (sqOff 63 + 8) v).setReg 0 (cqOff 63 + 8) v).setReg 0 (cqOff 64 + 8) v

theorem wit_Doorbells :
    (rings true).host.linkUp = true ∧ fnPresent (rings true) 0 = true ∧ fnActs (rings true) 0 = true ∧
      fnActs ((rings true).setFn 0 1) 0 = false ∧ ok (exec (.sqTail 0 63 15 9) ((rings true).setFn 0 1)) = true ∧
      ctlEnable ((rings false).reg 0 (sqOff 63 + 8)) = false ∧ ok (exec (.sqTail 0 63 15 9) (rings false)) = true ∧
      ctlEnable ((rings true).reg 0 (sqOff 63 + 8)) = true ∧ 2 ^ ctlLog2 ((rings true).reg 0 (sqOff 63 + 8)) = 16 ∧
      bit ((post (exec (.sqTail 0 63 16 9) (rings true))).reg 0 (sqOff 63 + 16)) 17 = true ∧
      ((post (exec (.sqTail 0 63 15 9) (rings true))).sage.doorbells.map Doorbell.idx) = List.range 15 := by decide +kernel

theorem wit_HeadDoorbells : ∀ q ∈ [63, 64],
    let i (v : Word) : Instr := if q = 64 then .evqHead 0 v else .cqHead 0 63 v
    PageActs (rings true) 0 ∧ PageActs (rings false) 0 ∧ ctlEnable ((rings true).reg 0 (cqOff q + 8)) = true ∧
      ctlEnable ((rings false).reg 0 (cqOff q + 8)) = false ∧ ok (exec (i 3) (rings false)) = true ∧
      2 ^ ctlLog2 ((rings true).reg 0 (cqOff q + 8)) = 16 ∧ cqHead (post (exec (i 15) (rings true))) 0 q = 15 ∧
      bit ((post (exec (i 16) (rings true))).reg 0 (cqStatus q)) 17 = true := by
  unfold PageActs; decide +kernel

theorem wit_QueueControls : ∀ v ∈ [0x104, 0x103, 0x111],
    let good := decide (v = 0x104)
    let w := BitVec.ofNat 32 v
    PageActs (rings false) 0 ∧
      ((post (exec (.sqCtl 0 63 w 15) (rings false))).reg 0 (sqOff 63 + 8) = if good then v else 0) ∧
      ((post (exec (.cqCtl 0 63 w 15) (rings false))).reg 0 (cqOff 63 + 8) = if good then v else 0) ∧
      ((post (exec (.evqCtl 0 w 15) (rings false))).reg 0 (cqOff 64 + 8) = if good then v else 0) := by
  unfold PageActs; decide +kernel

theorem wit_DescriptorRead : let d : Doorbell := ⟨0, 63, 0, 9⟩
    let s := { rings true with sage := { (rings true).sage with doorbells := [d] } }
    let bad := s.setReg 0 (sqOff 63) 0x10000
    nextDoorbell s 0 63 = some d ∧ mayRead s 0 63 = true ∧
      (vread s (ownAccess 0) (ringBase s 0 (sqOff 63) + 128 * d.idx) 128).1 = .ok (0, false) ∧
      ok (exec (.descriptorRead 0 63) s) = true ∧ nextDoorbell bad 0 63 = some d ∧ mayRead bad 0 63 = true ∧
      (vread bad (ownAccess 0) (ringBase bad 0 (sqOff 63) + 128 * d.idx) 128).1 = .error (.unmapped 0x10000 0) ∧
      queueStopped (post (exec (.descriptorRead 0 63) bad)) 0 63 = true := by decide +kernel

theorem wit_StepCompletion : let x := aStep 1 (cmdOf 0 0 .done)
    let no := stepping (live State.reset) x
    let yes := no.setReg 0 (cqOff 0 + 8) (4 + 256)
    let a := markEnded (yes.at 5) x
    findStep no 1 = some x ∧ no.now ≤ 5 ∧ stepOver no x = true ∧ x.phase ≠ .ended ∧ (findStep (markEnded (no.at 5) x) 1).isSome = true ∧
      cqOpen (markEnded (no.at 5) x) 0 x.cq = false ∧ ok (exec (.stepCompletion 1 5) no) = true ∧
      cqOpen a 0 x.cq = true ∧
      (match findStep a 1 with
       | some y => !entryWaits a y && decide ((vwrite a { ownAccess 0 with fin := true } (ringBase a 0 (cqOff 0)) 32
             (completionEntry a y)).1 = .ok ())
       | none => false) = true ∧
      findStep (post (exec (.stepCompletion 1 5) yes)) 1 = none ∧
      cqTail (post (exec (.stepCompletion 1 5) yes)) 0 0 = 1 := by decide +kernel

/-- The entry of a step that has ended: STEP_ID 77, PHASE 1, status DONE. -/
theorem test_completion_entry : let x := aStep 1 (cmdOf 0 0 .done)
    bits (completionEntry State.reset x) 0 64 = 77 ∧ bits (completionEntry State.reset x) 64 8 = 0 ∧
      bits (completionEntry State.reset x) 72 1 = 1 := by decide +kernel

theorem wit_EventPost : let e : EvRec := ⟨0, 4, 1, 0, 77, 0, 0, 1⟩
    let pend (s : State) : State := { s with host := { s.host with evPend := [e] } }
    let no := pend (rings false)
    let yes := pend ((rings true).setReg 0 0x2004 0)
    takeFirst (fun e : EvRec => e.fn == 0) no.host.evPend = some (e, []) ∧ (fnActs no 0 && cqOpen no 0 64) = false ∧
      sget (fun _ => 0) (post (exec (.eventPost 0) no)).host.evLost 0 = 1 ∧ (fnActs yes 0 && cqOpen yes 0 64) = true ∧
      (vwrite yes (ownAccess 0) (ringBase yes 0 0x2004 + 64 * cqTail yes 0 64) 64 (eventEntry yes e)).1 = .ok () ∧
      cqTail (post (exec (.eventPost 0) yes)) 0 64 = 1 := by decide +kernel

theorem wit_MsixSend : let w : IrqWait := ⟨0, 63⟩
    let waits := { rings true with host := { (rings true).host with irq := [w] } }
    let pba := ((rings true).setReg 0 (pbaWord 0 2047) (2 ^ 31)).setReg 0 (msixEntry 0 2047 + 12) 0
    takeFirst (fun w : IrqWait => w.fn == 0 && decide (ctlVector (waits.reg 0 (cqOff w.queue + 8)) = 0)) waits.host.irq =
        some (w, []) ∧ bit (waits.reg 0 (msixEntry 0 0 + 12)) 0 = true ∧
      bit ((post (exec (.msixSend 0 0) waits)).reg 0 (pbaWord 0 0)) 0 = true ∧
      (post (exec (.msixSend 0 0) (waits.setReg 0 (msixEntry 0 0 + 12) 0))).out = [.msix 0 0] ∧ 2047 < vectorCount 0 ∧
      bit (pba.reg 0 (pbaWord 0 2047)) 31 = true ∧ (post (exec (.msixSend 0 2047) pba)).out = [.msix 0 2047] := by
  decide +kernel

theorem wit_GroupsStartPromoteAndResume :
    let c := { aCmd with next := 0 }
    let s := withCore { aCore with groups := [], cmd := some c }
    let w := withCore { aCore with groups := [(0, { aGroup.pend waitYield 0 with resolved := some 3 })] }
    let y := withCore { aCore with groups := [(0, aGroup.pend waitYield 0)] }
    (s.core 0).cmd = some c ∧ (s.core 0).runs = true ∧ c.stopping = false ∧ 0 < c.resident ∧ (grp s g0).state = 0 ∧
      c.next < c.first + c.count ∧ ok (exec (.groupStart g0) s) = true ∧
      (w.core 0).activeCount 0 < 4 ∧ (earliest ((w.core 0).resolvedGroups 0)).map Prod.fst = some 0 ∧
      (grp (post (exec (.groupPromote 0 0) w)) g0).state = 1 ∧ (grp y g0).state = 2 ∧ (grp y g0).cause = 5 ∧
      (grp y g0).resolved = none ∧ (grp (post (exec (.yieldTimeout g0) y)) g0).resolved = some 0 := by decide +kernel

theorem wit_KernelSetsUp : let y := cmdOf 1 (2 ^ 32) .waiting [BitVec.ofNat 256 (64 + 2 ^ 16)]
    let x := aStep 1 y
    let s := stepping ((live State.reset).setObj 0x4010 1 0 0) x
    startable s c0 1 = some (x, y) ∧ rangesOk s x 0 y [⟨0, 0, 1⟩] = true ∧ ok (exec (.kernel c0 [⟨0, 0, 1⟩]) s) = true ∧
      (((post (exec (.kernel c0 [⟨0, 0, 1⟩]) s)).core 0).cmd.map CoreCmd.count) = some 1 := by
  refine ⟨?_, ?_, ?_, ?_⟩ <;> decide +kernel

theorem wit_EventCommands : let hi := 7 * 2 ^ 32 + 5 * 2 ^ 64 + 1 * 2 ^ 128
    let s (t : Nat) (p : CmdPhase) := stepping (live State.reset) (aStep 1 (cmdOf t hi p))
    let met := { s 4 .running with host := { (s 4 .running).host with evc := [(7, 5)] } }
    let late := (s 4 .running).setObj 0x2010 3 0 1
    startable (s 0 .waiting) c0 0 = some (aStep 1 (cmdOf 0 hi .waiting), cmdOf 0 hi .waiting) ∧
      cmdPhase (post (exec (.nop c0) (s 0 .waiting))) c0 = some .done ∧ (startable (s 4 .waiting) c0 4).isSome = true ∧
      cmdPhase (post (exec (.waitEvent c0) (s 4 .waiting))) c0 = some .running ∧
      (runningCmd met c0 4).isSome = true ∧ evCounter met 0 7 = 5 ∧
      cmdPhase (post (exec (.waitEventRelease c0) met)) c0 = some .done ∧ (runningCmd late c0 4).isSome = true ∧
      evCounter late 0 7 < (cmdOf 4 hi .running).field 0x10 8 ∧ (cmdOf 4 hi .running).field 0x18 4 = 1 ∧ late.tick = 1 ∧
      cmdPhase (post (exec (.eventTimeout c0) late)) c0 = some .cancelled ∧ (startable (s 5 .waiting) c0 5).isSome = true ∧
      earlierDone (aStep 1 (cmdOf 5 hi .waiting)) 0 = true ∧
      evCounter (post (exec (.signalEvent c0) (s 5 .waiting))) 0 7 = 5 := by decide +kernel

theorem wit_HintedPhases : let s := stepping (live State.reset) (aStep 1 (cmdOf 8 (9 * 2 ^ 32) .waiting))
    let h : HintPhase := ⟨1, 0, 9, 0, 0, false⟩
    let t := { s with power := { s.power with hints := [h] } }
    (startable s c0 8).isSome = true ∧ s.now ≤ 5 ∧ 5 < guardStart s ∧ (post (exec (.hint c0 5) s)).obj 0x9010 3 0 = 1 ∧ h.of c0 = true ∧
      (post (exec (.hintPhaseLead c0) t)).power.hints = [{ h with raised := true }] ∧
      (post (exec (.hintPhaseEnd c0) t)).power.hints = [] := by decide +kernel

/-- A copy of 64 bytes from offset 64 of a page to its start. -/
def aSeg (src : Nat) : BitVec 256 := BitVec.ofNat 256 (src + 64 * 2 ^ 128)

/-- A COPY of one segment, and a broadcast of one copy. -/
def aCopy (src : Nat) : Cmd := cmdOf 2 0 .waiting [aSeg src]

def aCast (src : Nat) : Cmd := cmdOf 3 (2 * 2 ^ 32 + src * 2 ^ 64) .waiting [BitVec.ofNat 256 (64 + 2 ^ 64)]

/-- The segment of that broadcast. -/
def castSegs (y : Cmd) : List Seg := (List.range (bits y.block 64 16)).map fun n =>
  ⟨y.field 0x10 8, y.field 0x18 8 + n * bits y.block 0 64, bits y.block 0 64, 0, 0⟩

/-- A step with one of them, from a mapped page and from one that is not, with core 0 in service. -/
def copyRuns : State := stepping (live State.reset) (aStep 1 (aCopy 64))

def copyStops : State := stepping (live State.reset) (aStep 1 (aCopy 0x10000))

def castRuns : State := stepping ((live State.reset).setObj 0x4010 1 0 0) (aStep 1 (aCast 64))

def castStops : State := stepping ((live State.reset).setObj 0x4010 1 0 0) (aStep 1 (aCast 0x10000))

/-- A slice of one unit at time 7. -/
def oneUnit : SliceWork := ⟨1, 7, []⟩

/-- The state in which the units of a COPY run, and that of a broadcast. -/
def copyBase (s : State) (y : Cmd) : State := (y.payload.map segOf).foldl (openDeposit 1 0) (beginCmd s c0 (aStep 1 y))

def castBase (s : State) (y : Cmd) : State := noteRan (beginCmd s c0 (aStep 1 y)) 0 0

theorem wit_CopyRuns : let y := aCopy 64
    startable copyRuns c0 2 = some (aStep 1 y, y) ∧ copyRuns.now ≤ 7 ∧
      (partsOf (y.payload.map segOf)).map (fun p => (p.src, p.a, p.n)) = [(64, 0, 64)] ∧
      Machine.workOk (copyBase copyRuns y) copyRuns.now 1 oneUnit = true ∧ lineParts 64 64 = [(64, 64)] ∧
      TouchableNow (copyBase copyRuns y) 0 64 false ∧ TouchableNow (copyBase copyRuns y) 0 0 true ∧
      cmdPhase (post (exec (.copy c0 oneUnit) copyRuns)) c0 = some .done := by
  unfold TouchableNow
  refine ⟨?_, ?_, ?_, ?_, ?_, ?_, ?_, ?_⟩ <;> decide +kernel

theorem wit_BroadcastRuns : let y := aCast 64
    startable castRuns c0 3 = some (aStep 1 y, y) ∧ y.field 0xC 1 = 2 ∧
      (placeOf castRuns c0).elim [] Placement.cores = [0] ∧ givenOk castRuns (aStep 1 y) 0 y [0] = true ∧
      (partsOf (castSegs y)).map (fun p => (p.src, p.a, p.n)) = [(64, 0, 64)] ∧
      TouchableNow (castBase castRuns y) 0 64 false ∧ TouchableNow (castBase castRuns y) 0 0 true ∧
      cmdPhase (post (exec (.collectiveBroadcast c0) castRuns)) c0 = some .done := by
  unfold TouchableNow
  refine ⟨?_, ?_, ?_, ?_, ?_, ?_, ?_, ?_⟩ <;> decide +kernel

theorem wit_CopiesStop :
    startable copyStops c0 2 = some (aStep 1 (aCopy 0x10000), aCopy 0x10000) ∧
      Machine.workOk (copyBase copyStops (aCopy 0x10000)) copyStops.now 1 oneUnit = true ∧
      ok (exec (.copy c0 oneUnit) copyStops) = true ∧
      startable castStops c0 3 = some (aStep 1 (aCast 0x10000), aCast 0x10000) ∧
      givenOk castStops (aStep 1 (aCast 0x10000)) 0 (aCast 0x10000) [0] = true ∧
      ok (exec (.collectiveBroadcast c0) castStops) = true := by
  refine ⟨?_, ?_, ?_, ?_, ?_, ?_⟩ <;> decide +kernel

theorem wit_UnitsEnd : cmdPhase copyRuns c0 = some .waiting ∧ peerPending copyRuns c0 = false ∧
    peerPending { copyRuns with peer := { copyRuns.peer with sent := [⟨7, 9, 3, default_packet, 0, 1, 0, 256, 0, line16, 0, false⟩] } } c0 =
      true := by decide +kernel

theorem wit_CacheOperationsRun : ∀ bad ∈ [false, true], ∀ p ∈ [(1, Instr.pin c0 oneUnit), (2, .unpin c0 oneUnit),
      (3, .prefetch c0 oneUnit), (4, .writeBack c0 oneUnit), (5, .discard c0 oneUnit)],
    let va := if bad then 0x10000 else 0
    let y := cmdOf 6 (p.1 * 2 ^ 32 + va * 2 ^ 64 + 512 * 2 ^ 128) .waiting
    let s := stepping (live State.reset) (aStep 1 y)
    startable s c0 6 = some (aStep 1 y, y) ∧ earlierDone (aStep 1 y) 0 = true ∧ y.field 0xC 1 = p.1 ∧
      pagesOf (y.field 0x10 8) (y.field 0x18 8) - y.units = 1 ∧ pageLines (y.field 0x10 8) (y.field 0x18 8) y.units = [va] ∧
      Machine.workOk (beginCmd s c0 (aStep 1 y)) s.now 1 oneUnit = true ∧
      cmdPhase (post (exec p.2 s)) c0 = some (if bad && p.1 != 3 then .cancelled else if p.1 = 4 then .running else .done) := by
  decide +kernel

theorem wit_CacheLineIsTouchable : ∀ write ∈ [false, true],
    let y := cmdOf 6 (2 ^ 32 + 512 * 2 ^ 128) .waiting
    let s := stepping (live State.reset) (aStep 1 y)
    TouchableNow (beginCmd s c0 (aStep 1 y)) 0 0 write ∧ cmdPhase s c0 = some .waiting ∧ y.field 0xC 1 ≠ 4 := by
  unfold TouchableNow; decide +kernel

theorem wit_OneLine : let s := live State.reset
    let pinned := setHome s line16 { held 9 with pins := [(0, 15)] }
    let gone := setHome s line16 HomeLine.none
    (homeLine s line16).st = 2 ∧ (homeLine s line16).pinCount < 15 ∧
      (homeLine (pinLine 0 s line16) line16).pinCount = 1 ∧ 15 ≤ (homeLine pinned line16).pinCount ∧
      (homeLine (pinLine 0 pinned line16) line16).pins = [(0, 15)] ∧ replicaOf s 2048 = none ∧
      pageLost s 2048 = false ∧ (homeLine (writeBackLine s line16) line16).st = 1 ∧
      (homeLine (discardLine s line16) line16).discarded = true ∧ (homeLine gone line16).st = 0 ∧
      memDiscard (discardLine gone line16) 2048 = true := by decide +kernel

theorem wit_HomeSliceIsTheFold : 2 ^ 40 - 1 < 2 ^ 40 ∧ homeOfPa (2 ^ 40 - 1) = 0 ∧ homeOfPa 0x30000 = 3 := by decide +kernel

theorem wit_MinMaxAndFields :
    Fmt.fp32.decode 0x7F800001 = .nan ∧ Fmt.fp16.decode 0x7C01 = .nan ∧ Fmt.bf16.decode 0x7F81 = .nan ∧
      (vArgs (.r (rf 1 2 3 0)) false 7).illegal = false ∧ roundBad (vArgs (.r (rf 1 2 3 0)) false 7).mod = false ∧
      Ready busy g0 (vArgs (.r (rf 1 2 3 0)) false 7).regs ∧ (vArgsR (rf 1 2 3 0 0x10) true false 0x17).illegal = false ∧
      Ready busy g0 (vArgsR (rf 1 2 3 0 0x10) true false 0x17).regs ∧ ok (exec (.fmin g0 (.r (rf 1 2 3 0))) busy) = true ∧
      ok (exec (.hmax2 g0 (rf 1 2 3 0 0x10)) busy) = true ∧
      (∀ m ∈ [0, 32 * 32 + 1, 33 * 32], ((post (exec (.bfe g0 (rf 1 2 3 0 m)) busy)).mgmt.logPend.map LogRec.cause) = [1] ∧
        ((post (exec (.bfi g0 (rf 1 2 3 0 m)) busy)).mgmt.logPend.map LogRec.cause) = [1]) := by
  unfold Ready; decide +kernel

theorem wit_StepKeepsMemoryCanonical : (live State.reset).memWf = true ∧ ok (step (live State.reset)) = true := by
  decide +kernel

/-! ## Coherence -/

/-- A message about line 16 between two agents, for site 5, with tag 7. -/
def aMsg (src dst : Nat) : Msg := bareMsg src dst 5 line16 0 0 false false 7

/-- The module with one message in flight. -/
def sent (s : State) (k : MsgKind) (m : Msg) : State := { s with coh := { s.coh with net := [⟨k, m⟩] } }

/-- Function 0 live, site 5 serving core 0, 2 ways of near partition. -/
def net0 : State := ((live State.reset).setObj 0x4010 1 0 5).setObj 0x2030 1 0 2

/-- Near partition 0 asks the home of line 16, slice 1. -/
def ask : Msg := { aMsg 0x121 0x128 with kind := .addU32 }

/-- The home's line as given. -/
def homed (h : HomeLine) : State := setHome net0 line16 h

/-- The transaction of a request. -/
def txn (k : MsgKind) (invs : List Nat) (o : Option Nat) : Txn := ⟨k, ask, invs, o, none⟩

/-- The transaction of a request of another agent. -/
def other (k : MsgKind) (invs : List Nat) (o : Option Nat) : Txn := ⟨k, aMsg 0x131 0x128, invs, o, none⟩

/-- A message that its sender has not had answered. -/
def keeping (s : State) (k : MsgKind) (m : Msg) : State :=
  { s with net := { s.net with e2e := [⟨m.src, m.dst, m.seq, k, m, 0, 0⟩] } }

/-- Whether a message comes for the first time. -/
def first (s : State) (k : MsgKind) (m : Msg) : Bool := (keptReply s k m).isNone && !inProgress s m

/-- Whether a request may reach its home, as MayRequest says. -/
def mayAsk (s : State) (k : MsgKind) (m : Msg) : Bool :=
  requestOk s k m && (decide (k ≠ .rdo) || (!m.line.host && decide ((portOf m.src).map Fin.val ≠ some (homeSlice m.line)) &&
    decide (nearWays s ≠ 0)))

theorem wit_HomesServeRequests : ∀ p ∈ [(MsgKind.rd, Instr.rd ask, MsgKind.data), (.rdo, .rdo ask, .grant),
      (.wr, .wr { ask with mask := 1, data := 0x55 }, .ack), (.atom, .atom { ask with ops := [⟨0, 0, 3, 0⟩] }, .ack)],
    let m := { ask with mask := if p.1 = .wr then 1 else 0, data := if p.1 = .wr then 0x55 else 0, ops := if p.1 = .atom then [⟨0, 0, 3, 0⟩] else [] }
    let s := sent net0 p.1 m
    let b := sent (homed { held 0 with busy := some (other .rd [] (some 0x129)) }) p.1 m
    let r := { b with coh := { b.coh with raceMode := 1 } }
    let w := sent (homed { held 0 with busy := some (txn p.1 [] (some 0x129)) }) p.1 m
    let k := { s with net := { s.net with e2eDone := [⟨0x121, 0x128, 0, p.2.2, replyOf m⟩] } }
    requestRow p.2.1 = some (p.1, m) ∧ mayAsk s p.1 m = true ∧ inFlight s p.1 m = true ∧ first s p.1 m = true ∧
      (homeLine s line16).busy = none ∧ (homeLine s line16).st = 2 ∧
      (homeLine s line16).presence = 0 ∧ (homeLine s line16).discarded = false ∧ ok (exec p.2.1 s) = true ∧
      inFlight net0 p.1 m = false ∧ mayAsk net0 p.1 m = true ∧ ok (exec p.2.1 net0) = true ∧
      mayAsk b p.1 m = true ∧ first b p.1 m = true ∧ (homeLine b line16).busy.isSome = true ∧
      (post (exec p.2.1 b)).coh.conflictQ = [⟨p.1, m⟩] ∧ mayAsk r p.1 m = true ∧ (post (exec p.2.1 r)).coh.refused.length = 1 ∧
      mayAsk w p.1 m = true ∧ keptReply w p.1 m = none ∧ inProgress w m = true ∧ ok (exec p.2.1 w) = true ∧
      mayAsk k p.1 m = true ∧ (keptReply k p.1 m).isSome = true ∧ (post (exec p.2.1 k)).coh.net = [⟨p.2.2, replyOf m⟩] ∧
      (homeLine (post (exec p.2.1 s)) line16).data = (if p.1 = .wr then 0x55 else if p.1 = .atom then 3 else 0) ∧
      (homeLine (post (exec p.2.1 s)) line16).st = (if p.1 = .rdo then 3 else 2) := by decide +kernel

theorem wit_AbsentLineIsRead : let s := sent (homed HomeLine.none) .rd ask
    mayAsk s .rd ask = true ∧ first s .rd ask = true ∧ (homeLine s line16).busy = none ∧ (homeLine s line16).st = 0 ∧
      ((homeLine (post (exec (.rd ask) s)) line16).busy.map Txn.fill) = some (some 2048) := by decide +kernel

theorem wit_HomesTakeAnswers :
    let own := { held 0 with st := 3, presence := setBit 0 0 true }
    let back := { ask with data := 0x99 }
    let two := keeping (homed { held 0 with st := 1, busy := some (txn .wr [0x121, 0x131] none) }) .inv (aMsg 0x128 0x121)
    let fwd := keeping (homed { own with busy := some (txn .rd [] (some 0x121)) }) .fwdRd (aMsg 0x128 0x121)
    let mov := keeping (homed { own with busy := some (other .rdo [] (some 0x121)) }) .fwdOwn (aMsg 0x128 0x121)
    let r : Refused := ⟨0, .rd, ask, true⟩
    let ref := { net0 with coh := { net0.coh with refused := [r], credits := [(1, 31)] } }
    mayArrive (sent net0 .pres ask) .pres ask = true ∧ first (sent net0 .pres ask) .pres ask = true ∧
      ok (exec (.pres ask) (sent net0 .pres ask)) = true ∧ agentNear (ownerOf own) = back.src ∧
      mayArrive (sent (homed own) .dwn back) .dwn back = true ∧ first (sent (homed own) .dwn back) .dwn back = true ∧
      mayArrive (sent (homed own) .wb back) .wb back = true ∧ first (sent (homed own) .wb back) .wb back = true ∧
      (homeLine (post (exec (.dwn back) (sent (homed own) .dwn back))) line16).presence = own.presence ∧
      (homeLine (post (exec (.wb back) (sent (homed own) .wb back))) line16).data = 0x99 ∧
      mayArrive (sent two .invAck ask) .invAck ask = true ∧ awaited (sent two .invAck ask) .invAck ask = true ∧
      ((homeLine (post (exec (.invAck ask) (sent two .invAck ask))) line16).busy.map Txn.invs) = some [0x131] ∧
      mayArrive (sent fwd .ownData back) .ownData back = true ∧ awaited (sent fwd .ownData back) .ownData back = true ∧
      fwd.coh.conflictQ = [] ∧ (homeLine (post (exec (.ownData back) (sent fwd .ownData back))) line16).data = 0x99 ∧
      mayArrive (sent mov .ownDone ask) .ownDone ask = true ∧ awaited (sent mov .ownDone ask) .ownDone ask = true ∧
      (homeLine (post (exec (.ownDone ask) (sent mov .ownDone ask))) line16).presence = setBit 0 (agentPlace 0x131) true ∧
      takeFirst (fun r : Refused => r.port == 0 && r.msg.line == line16 && r.told) ref.coh.refused = some (r, []) ∧
      sget (fun _ => 0) ref.coh.credits (0 * 4 + homeSlice line16) = 31 ∧ unanswered ref ask.src ask.dst < 64 ∧
      (post (exec (.creditedResend 0 line16) ref)).coh.credits = [(1, 32)] := by decide +kernel

/-- Near partition 0 with line 16 as given. -/
def near0 (n : NearLine) : State := setNear net0 0 line16 n

/-- The home of line 16 tells near partition 0; the final requester is near partition 2. -/
def tell : Msg := { aMsg 0x128 0x121 with hint := 0x131 }

theorem wit_HoldersAnswer :
    let n : NearLine := { NearLine.none with st := 2, data := 0x42 }
    let come (k : MsgKind) : Bool := mayArrive (sent (near0 n) k tell) k tell && first (sent (near0 n) k tell) k tell
    let acked (s : State) (k : MsgKind) (r : MsgKind) : State := sent (keeping s k (aMsg 0x121 0x128)) r tell
    let pa := acked (near0 { n with pres := 3 }) .pres .presAck
    let wa := acked (near0 { n with st := 3 }) .wb .wbAck
    come .inv = true ∧ come .fwdRd = true ∧ come .fwdOwn = true ∧ come .recall = true ∧
      portOf tell.dst = some 0 ∧ (nearLine (near0 n) 0 line16).pres = 0 ∧ grantTo (sent (near0 n) .recall tell) tell.dst line16 = false ∧
      nearLine (post (exec (.inv tell) (sent (near0 n) .inv tell))) 0 line16 = NearLine.none ∧
      (nearLine (post (exec (.fwdRd tell) (sent (near0 n) .fwdRd tell))) 0 line16).st = 1 ∧
      nearLine (post (exec (.fwdOwn tell) (sent (near0 n) .fwdOwn tell))) 0 line16 = NearLine.none ∧
      nearLine (post (exec (.recall tell) (sent (near0 n) .recall tell))) 0 line16 = NearLine.none ∧
      mayArrive pa .presAck tell = true ∧ awaited pa .presAck tell = true ∧ pa.coh.accepted = [] ∧
      (nearLine (post (exec (.presAck tell) pa)) 0 line16).pres = 2 ∧
      mayArrive wa .wbAck tell = true ∧ awaited wa .wbAck tell = true ∧
      nearLine (post (exec (.wbAck tell) wa)) 0 line16 = NearLine.none := by
  decide +kernel

/-- Core 0, at site 5, with a load that waits for line 16 and a request of near partition 0 for it. -/
def waiting0 : State :=
  let x := { aLoad with lines := [⟨line16, 0, true, false, 0, 0⟩] }
  let s := keeping (net0.setCore 0 { aCore with loads := [x] }) .rd ask
  { s with coh := { s.coh with nearWait := [⟨0, .rd, aMsg 5 0x121, true, false⟩] } }

theorem wit_RequestersAnswer : let d := { aMsg 0x128 0x121 with data := 0x55AA }
    let s := sent waiting0 .data d
    let g := sent (keeping net0 .rdo ask) .grant d
    let w : WriteRec := ⟨7, .wr, ask, false, false, 0, 3, 0, 0, false, none⟩
    let a := sent (keeping (net0.setCore 0 { aCore with writes := [w] }) .wr ask) .ack (aMsg 0x128 0x121)
    let r := sent (keeping { net0 with coh := { net0.coh with refused := [⟨0, .rd, ask, false⟩] } } .rd ask) .retry (replyOf ask)
    mayArrive s .data d = true ∧ awaited s .data d = true ∧ replyCore s d = some 0 ∧ portOf d.dst = some 0 ∧ d.hint = 0 ∧
      takeRead s 0 d = some (⟨0, .rd, aMsg 5 0x121, true, false⟩, []) ∧ (aMsg 5 0x121).hint = 0 ∧
      (((post (exec (.data d) s)).core 0).loads.map fun x => x.lines.map LineWait.data) = [[0x55AA]] ∧
      mayArrive g .grant d = true ∧ awaited g .grant d = true ∧ g.coh.accepted = [] ∧ g.coh.nearWait = [] ∧
      (nearLine (post (exec (.grant d) g)) 0 line16).data = 0x55AA ∧
      answeredPacket a (aMsg 0x128 0x121) = none ∧ mayArrive a .ack (aMsg 0x128 0x121) = true ∧
      awaited a .ack (aMsg 0x128 0x121) = true ∧ replyCore a (aMsg 0x128 0x121) = some 0 ∧
      ((post (exec (.ack (aMsg 0x128 0x121)) a)).core 0).writes = [] ∧ mayArrive r .retry (replyOf ask) = true ∧
      awaited r .retry (replyOf ask) = true ∧
      (post (exec (.retry (replyOf ask)) r)).coh.refused.map Refused.told = [true] := by decide +kernel

theorem wit_PartnerAnswers : let p : PeerSent := ⟨0, 9, 3, default_packet, 0, 1, 0, 256, 0, line16, 0, false⟩
    let s := ({ net0 with peer := { net0.peer with sent := [p] } }).setObj 0x8010 4 0 9
    let m := { aMsg 0x140 0x121 with tag := 3 }
    answeredPacket s m = some p ∧ ok (exec (.ack m) s) = true := by decide +kernel

/-! ## Reduction, links and fail-over -/

/-- A reduction packet of site 5 for line 16 with tag 1. -/
def aRed : RedPacket := ⟨5, 0, 1, 0, 1, line16, 0x3F800000, 0xF, 0, 4⟩

/-- The module with the packet in flight, and a tag entry of FAN_IN 2 at unit 150h. -/
def redding (tags : List ChiveTag) (es : List ChiveEntry) : State :=
  { net0 with net := { net0.net with redNet := [aRed], chiveTags := tags, chive := es } }

theorem wit_ReductionPackets : let tg : List ChiveTag := [⟨0x155, 0, 1, 2⟩]
    let e : ChiveEntry := ⟨0x155, { aRed with seq := 1 }, 1, [(5, 1)], 0⟩
    let e3 : ChiveTag := ⟨0x155, 0, 1, 3⟩
    let s := redding [] []
    aRed ∈ s.net.redNet ∧ isUnit 0x155 = true ∧ (redUnits s aRed).contains 0x155 = true ∧ fanInOf (redding tg []) 0x155 aRed = some 2 ∧
      (redUnits (redding tg []) aRed).contains 0x155 = true ∧ (redUnits (redding [e3] [e]) aRed).contains 0x155 = true ∧
      (post (exec (.radd 0x155 aRed) (redding tg []))).net.chive = [⟨0x155, aRed, 1, [(5, 4)], 0⟩] ∧ 0 < unitEntries 0x155 ∧
      ((redding [e3] [e]).net.chive.find? fun e => decide (e.unit = 0x155) && sameKey e.packet aRed) = some e ∧
      e.local + 1 < 3 ∧ (post (exec (.radd 0x155 aRed) (redding [e3] [e]))).net.chive.map ChiveEntry.absorbed = [2] ∧
      fanInOf s 0x155 aRed = none ∧ fromPort aRed.src = false ∧ (post (exec (.radd 0x155 aRed) s)).obj 0x3090 5 0 = 1 ∧
      isPeerLine line16 = false ∧ lineBusy s line16 = false ∧ lineBusy (settle s line16) line16 = false ∧
      unsettled s line16 = false ∧ (homeLine s line16).st = 2 ∧ (homeLine s line16).presence = 0 ∧
      lineBytes (homeLine (post (exec (.radd (agentHome (homeSlice line16)) aRed) s)) line16).data 0 4 = 0x3F800000 ∧
      aRed ∉ net0.net.redNet ∧ redKnown { net0 with net := { net0.net with redDone := [⟨0x155, 5, 4, line16, 0⟩] } } aRed = true ∧
      ((redding tg [e]).net.chive.find? fun e => decide (e.unit = 0x155) && e.packet.fn == 0 && e.packet.tag == 1 &&
        e.packet.line == line16) = some e ∧ e.sinceNs + netLimit (redding tg [e]) 2 ≤ 100000 ∧
      (post (exec (.chiveHoldExpiry 0x155 0 1 line16 100000) (redding tg [e]))).net.chive = [] := by decide +kernel

/-- A packet for a partner, in flight to a port. -/
def portRed : RedPacket := { aRed with line := peerLine 0x10000 }

theorem wit_ReductionAtPort : let s := { net0 with net := { net0.net with redNet := [portRed] } }
    portRed ∈ s.net.redNet ∧ isUnit 0x140 = false ∧ isPeerLine portRed.line = true ∧ redDst s portRed = 0x140 ∧
      ok (exec (.radd 0x140 portRed) s) = true := by decide +kernel

/-- A reduce of one buffer at an address, which waits for the ports of a mask. -/
def aReduce (src ports : Nat) : Cmd :=
  cmdOf 3 (2 ^ 32 + 3 * 2 ^ 48 + src * 2 ^ 64) .waiting [BitVec.ofNat 256 (64 + 2 ^ 64 + ports * 2 ^ 80)]

def reduceRuns : State := stepping net0 (aStep 1 (aReduce 64 1))

def reduceStops : State := stepping net0 (aStep 1 (aReduce 0x10000 0))

/-- The only unit of the reduce. -/
def reduceUnit (s : State) (y : Cmd) : List (Nat × Nat × Nat) :=
  (redParts s (aStep 1 y) y [0]).map fun q => (q.2.src, q.2.a, q.2.n)

theorem wit_ReduceStarts : let y := aReduce 64 1
    let b := redStart reduceRuns c0 (aStep 1 y) y [0]
    startable reduceRuns c0 3 = some (aStep 1 y, y) ∧ y.field 0xC 1 = 1 ∧ givenOk reduceRuns (aStep 1 y) 0 y [0] = true ∧
      bits y.block 80 8 = 1 ∧ reduceUnit reduceRuns y = [(64, 0, 64)] ∧ lineParts 64 64 = [(64, 64)] ∧
      TouchableNow b 0 64 false ∧ TouchableNow b 0 0 true ∧ windowOf reduceRuns 0 0 = none ∧ b.peer.tags = [] ∧
      findRed b 1 0 = none ∧
      (findRed (post (exec (.collectiveReduce c0 [0]) reduceRuns)) 1 0).map RedCmd.waiting = some 1 := by
  unfold TouchableNow
  refine ⟨?_, ?_, ?_, ?_, ?_, ?_, ?_, ?_, ?_, ?_, ?_, ?_⟩ <;> decide +kernel

theorem wit_ReduceStops : let y := aReduce 0x10000 0
    startable reduceStops c0 3 = some (aStep 1 y, y) ∧ givenOk reduceStops (aStep 1 y) 0 y [0] = true ∧
      ok (exec (.collectiveReduce c0 [0]) reduceStops) = true := by
  refine ⟨?_, ?_, ?_⟩ <;> decide +kernel

/-- A reduce that waits for port 7. -/
def aWait : RedCmd := ⟨1, 0, 0, 3, 0x80, 0, none, 0, false⟩

theorem wit_TagDone : let up := net0.setObj 0x8010 3 7 3
    let w := { up with net := { up.net with reds := [aWait] } }
    let full := { up with peer := { up.peer with tags := List.replicate 256 (7, 0, 9) } }
    let late := { w with net := { w.net with limits := [(3, 0)] } }
    portUp up 7 = true ∧ (waitingRed w 7 0 3).isSome = true ∧
      (post (exec (.tagDone 7 0 3) w)).out = [.tagDoneReply 7 0 3 true] ∧ waitingRed up 7 0 3 = none ∧
      (post (exec (.tagDone 7 0 3) up)).peer.tags = [(7, 0, 3)] ∧ waitingRed full 7 0 3 = none ∧
      (full.peer.tags.filter fun t => t.1 = 7 ∧ t.2.1 = 0).length = 256 ∧
      (post (exec (.tagDone 7 0 3) full)).out = [.tagDoneReply 7 0 3 false] ∧ findRed late 1 0 = some aWait ∧
      aWait.waiting ≠ 0 ∧ aWait.start + netLimit late 3 ≤ late.tick ∧
      findRed (post (exec (.collPeerTimeout c0) late)) 1 0 = none := by
  decide +kernel

theorem wit_EndToEndRetry :
    let e (n : Nat) : E2e := ⟨5, 0x128, 7, .rd, { ask with req := 0x125 }, n, 0⟩
    let s (n : Nat) := { net0 with net := { net0.net with e2e := [e n] } }
    let h : E2e := ⟨0x128, 0x121, 7, .inv, { ask with src := 0x128, dst := 0x121 }, 16, 0⟩
    let hs := { net0 with net := { net0.net with e2e := [h] } }
    let r (n : Nat) : RedSent := ⟨aRed, 0x128, [(5, 1)], 0, 0, n, 0, false⟩
    let t (n : Nat) := { net0 with net := { net0.net with redSent := [r n], redNet := [aRed] } }
    0 + 1000 * netLimit (s 15) 1 ≤ 10000000 ∧ isKept .rd = true ∧ isKept .inv = false ∧
      (post (exec (.e2eTimeout 5 0x128 7 10000000 false) (s 15))).net.e2e.map E2e.resends = [16] ∧ coreOfSite (s 16) 0x125 = none ∧
      (post (exec (.e2eTimeout 5 0x128 7 10000000 false) (s 16))).net.e2e = [] ∧
      (post (exec (.e2eTimeout 0x128 0x121 7 10000000 false) hs)).net.e2e = [h] ∧
      (post (exec (.e2eTimeout 5 0x128 4 10000000 false) (t 15))).net.redSent.map RedSent.resends = [16] ∧
      (post (exec (.e2eTimeout 5 0x128 4 10000000 false) (t 16))).net.redSent = [] := by decide +kernel

/-- A DATA flit with a sequence number. -/
def aFlit (seq : Nat) : Flit := ⟨BitVec.ofNat 16 seq, 0, 0, 0, 0xFFFF, 0, 0, 0, 0⟩

theorem wit_FlitsAndTimeouts : ∀ l ∈ [LinkId.bundle 95, .port 7],
    let d : LinkDir := { LinkDir.fresh with unacked := [(0, aFlit 4095), (1, aFlit 0)], next := 1, expect := 0 }
    let s := setLink net0 (linkKey l) d
    flitGood (aFlit 0) = false ∧ (linkOf (post (exec (.flitReceive l (aFlit 0) 3 1) s)) (linkKey l)).nakSent = true ∧
      linkOf s (linkKey l) = d ∧ d.wait = [] ∧ ackSeen s (linkKey l) 4095 = true ∧
      (linkOf (post (exec (.nak l 4095) s)) (linkKey l)).unacked.length = 1 ∧
      (linkOf (post (exec (.linkAckTimeout l) s)) (linkKey l)).resends = 1 := by decide +kernel

theorem wit_GoodFlit : ∀ l ∈ [LinkId.bundle 0, .port 7], let f := flitSealed (aFlit 0)
    let s := setLink net0 (linkKey l) { LinkDir.fresh with unacked := [(0, f)], next := 1 }
    flitGood f = true ∧ flitSent s (linkKey l) f = true ∧ flitKind f = 0 ∧ flitSeq f = 0 ∧
      (linkOf (post (exec (.flitReceive l f 2 0) s)) (linkKey l)).expect = 1 := by decide +kernel

/-- The module with flagged lanes of bundle 95. -/
def flags (n used st : Nat) : State :=
  (({ net0 with net := { net0.net with laneFlags := (List.range n).map fun i => (95 * 136 + i, true) } }).setObj 0x4060 2 95
    used).setObj 0x4060 1 95 st

theorem wit_LanesAndBundles : let hit := setLink net0 95 { LinkDir.fresh with resends := 16 }
    bundleState net0 95 ≠ 3 ∧ ok (exec (.laneFlag 95 135 0 true) net0) = true ∧ netLimit net0 4 < 10000 ∧
    ok (exec (.laneFlag 95 135 10000 false) net0) = true ∧ bundleState net0 95 ≤ 1 ∧
    flagged net0 95 = 0 ∧ netLimit net0 5 < 10000 ∧ 16 ≤ (linkOf hit 95).resends ∧ ok (exec (.laneTest 95 0 []) hit) = true ∧
    flagged (post (exec (.laneTest 95 10000 [0, 135]) net0)) 95 = 2 ∧ flagged (flags 8 0 0) 95 = 8 ∧
    bundleState (post (exec (.laneSwap 95) (flags 8 0 0))) 95 = 2 ∧ bundleState (flags 8 0 2) 95 = 2 ∧
    (post (exec (.laneSwapDone 95) (flags 8 0 2))).obj 0x4060 2 95 = 8 ∧ 8 < flagged (flags 1 8 1) 95 + 8 ∧
    4095 = ((linkOf (flags 1 8 1) 95).expect + 4095) % 4096 ∧
    bundleState (post (exec (.bundleRetired 95 4095) (flags 1 8 1))) 95 = 3 ∧
    (post (exec (.bundleRetired 95 4095) (flags 1 8 1))).obj 0x4060 3 7 = 11 ∧
    slotBundle (flags 1 8 1) 7 11 = 11 ∧ slotBundle (post (exec (.bundleRetired 95 4095) (flags 1 8 1))) 7 11 ≠ 11 := by
  decide +kernel

theorem wit_SlotsLinksElevators : let d := { net0 with net := { net0.net with drainSlots := [(1, 63)] } }
    let l := (stepping net0 (aStep 1 (cmdOf 1 0 .running))).setObj 0x4060 3 7 0
    let one := [0, 1, 2, 3, 4, 5, 6].foldl (fun s i => s.setObj 0x4010 3 (56 + i) 1) net0
    pairWaits d 1 63 = false ∧
      (post (exec (.slotDrainDone 1 63) d)).net.drainSlots = [] ∧ bit (d.obj 0x4060 5 1) 63 = true ∧
      bit ((post (exec (.slotDrainDone 1 63) d)).obj 0x4060 5 1) 63 = false ∧
      l.obj 0x4060 3 7 = 0 ∧ l.net.lost = false ∧ (post (exec (.linkLost 7) l)).net.lost = true ∧
      ((post (exec (.linkLost 7) l)).sage.steps.map Step.statuses) = [[.faultUnrecovered]] ∧
      (post (exec (.meshSilence 287) net0)).net.reported = [287] ∧ net0.obj 0x4010 3 63 = 0 ∧ usableElevators net0 7 = 8 ∧
      (post (exec (.elevatorFault 63 17) net0)).obj 0x3090 6 63 = 17 ∧ usableElevators one 7 = 1 ∧
      (post (exec (.elevatorFault 63 17) one)).net.lost = true := by decide +kernel

/-- Core 0 fenced at site 5, its take-over in progress. -/
def fenced0 : State :=
  let s := net0.setCore 0 { Core.idle with hw := { Core.idle.hw with fenced := true } }
  { s with ctl := { s.ctl with takeover := [blockOf 1 5] } }

theorem wit_FailOver :
    coreLive net0 0 = true ∧ siteOfCore net0 0 = 5 ∧ ((post (exec (.coreFault 0 9) net0)).core 0).hw.fenced = true ∧
      inService fenced0 0 = true ∧ (fenced0.core 0).hw.fenced = true ∧ fenced0.now = fenced0.tickStart ∧
      blockOf 1 5 ∈ fenced0.ctl.takeover ∧ siteDue fenced0 5 = true ∧
      chooseSpare fenced0 0 = some 32 ∧ siteOfCore (post (exec (.spareTakeover 0) fenced0)) 0 = 32 ∧
      chooseSpare ((fenced0.setObj 0x4010 2 32 3).setObj 0x4010 2 33 3) 0 = none ∧
      inService (post (exec (.spareTakeover 0) ((fenced0.setObj 0x4010 2 32 3).setObj 0x4010 2 33 3))) 0 = false := by
  decide +kernel

theorem wit_SparesSwapAndTakeOver :
    let sw := net0.setObj 0x4030 3 0 1
    let q := { net0 with ctl := { net0.ctl with waiting := [blockOf 1 7, blockOf 1 8] } }
    coreLive sw 0 = true ∧ sw.now = sw.tickStart ∧ sw.obj 0x4010 2 5 ≠ 1 ∧ sw.obj 0x4030 3 0 = 1 ∧
      ((freeSpares sw 0).find? fun p => decide (2700 ≤ siteCeiling sw p)) = some 32 ∧
      siteOfCore (post (exec (.coreSwap 0) sw)) 0 = 32 ∧ (post (exec (.takeoverQueued (blockOf 1 7)) q)).ctl.takeover = [blockOf 1 7] ∧
      net0.obj 0x4060 4 287 = 0 ∧ (post (exec (.routerFault 287 [] 9) net0)).obj 0x4060 4 287 = 1 := by decide +kernel

theorem wit_BanksAndAgents :
    let sp := (net0.setObj 0x4040 1 (17 * 3 + 16) 1)
    let tk := { net0 with ctl := { net0.ctl with takeover := [blockOf 7 (17 * 3 + 2)] } }
    let w := homed { held 0 with busy := some (txn .wr [0x121] none) }
    bankBusy sp 3 15 = false ∧ sp.net.lost = false ∧ bankState sp 3 15 = 0 ∧ bankState sp 3 16 = 1 ∧ numberBank sp 3 15 = 15 ∧
      bankState (post (exec (.bankFault 3 16 []) sp)) 3 16 = 2 ∧ numberBank (post (exec (.bankFault 3 15 []) sp)) 3 15 = 16 ∧
      (post (exec (.bankSpareReady 3) tk)).ctl.takeover = [] ∧ waitsFor w 0x121 = true ∧ (portOf 0x121).isSome = true ∧
      ok (exec (.agentFenced 0x121) w) = true := by decide +kernel

/-! ## Memory rows, the host interface and functions -/

/-- A replica entry in COPYING whose code pages have passed the queues: page 1 mirrors page 0. -/
def copying : State := (net0.setObj 0x2051 1 0 (65536 * 2 ^ 64 + 2 ^ 128)).setObj 0x2051 2 0 1

/-- The module with an operation on a line in a slot of its controller. -/
def slotted (s : State) (o : CtrlOp) : State := setCtrl s (chanOf s o.line) { Ctrl.idle with active := [o] }

/-- An operation on line 2048 or 5. -/
def ctrlOp (k : OpKind) (line : Nat) (data : LineData) : CtrlOp := ⟨k, line, 0, data, 0, false, 0, 0⟩

theorem wit_MemoryRows : let m := slotted net0 (ctrlOp .mark 5 0)
    let sc := { net0 with mem := { net0.mem with scrub := some ⟨0, 2048, 0⟩ } }
    (slotOp m 5 (fun o => o.kind == .mark)).isSome = true ∧ pageLost m 5 = false ∧
      memDiscard (post (exec (.markOnlyUpdate 5) m)) 5 = true ∧ copying.obj 0x2051 2 0 = 1 ∧ jobOpen copying (mirrorJob 0) = false ∧
      repPrimary copying 0 / 512 = 0 ∧ repMirror copying 0 / 512 = 128 ∧ repPages copying 0 * 128 = 128 ∧
      ((List.range 128).all fun i => !pageLost copying i && !pageLost copying (128 + i)) = true ∧
      (post (exec (.mirrorCopyDone 0) copying)).obj 0x2051 2 0 = 2 ∧
      net0.obj 0x4050 5 223 = 0 ∧ regionFull net0 95 = false ∧ (post (exec (.slowChannelLost 95) net0)).obj 0x4050 5 223 = 3 ∧
      regionFull (net0.setObj 0x4050 5 222 3) 95 = true ∧
      (post (exec (.slowChannelLost 95) (net0.setObj 0x4050 5 222 3))).obj 0x4050 5 223 = 3 ∧
      (post (exec (.fastChannelLost 127) net0)).obj 0x4050 5 127 = 3 ∧ jobOpen sc scrubJob = false ∧
      (post (exec (.scrubPassDone 9 []) sc)).mem.scrub = none := by decide +kernel

/-- A SCRUB of the first code page of a virtual page. -/
def aScrub (base rec : Nat) : Cmd := cmdOf 7 (base * 2 ^ 64 + 2048 * 2 ^ 128) .waiting [BitVec.ofNat 256 rec]

/-- A SCRUB whose step was cancelled in mid-pass, which began at time 5. -/
def halted : Cmd := { aScrub 0 0 with phase := .cancelled, sliceNs := some 5, startNs := 5 }

theorem wit_ScrubWrites : ∀ rec ∈ [0, 0x10000],
    let s := stepping net0 (aStep 1 (aScrub 0 rec))
    startable s c0 7 = some (aStep 1 (aScrub 0 rec), aScrub 0 rec) ∧ s.now ≤ 5 ∧ 5 < guardStart s ∧ pagesOf 0 2048 = 1 ∧
      Machine.workOk (beginCmd (s.at 5) c0 (aStep 1 (aScrub 0 rec))) 5 1 oneUnit = true ∧
      cmdPhase (post (exec (.scrub c0 5 false oneUnit) s)) c0 = some (if rec = 0 then .done else .cancelled) := by
  decide +kernel

theorem wit_ScrubLeavesPages : let y := cmdOf 7 (4096 * 2 ^ 128) .waiting [0]
    let s := stepping net0 (aStep 1 y)
    startable s c0 7 = some (aStep 1 y, y) ∧ pagesOf 0 4096 = 2 ∧
      Machine.workOk (beginCmd (s.at 5) c0 (aStep 1 y)) 5 2 oneUnit = true ∧
      cmdPhase (post (exec (.scrub c0 5 false oneUnit) s)) c0 = some .running := by decide +kernel

theorem wit_ScrubCancelled : let s := stepping net0 (aStep 1 halted)
    cancelledScrub s c0 = some (aStep 1 halted, halted) ∧ halted.startNs = 5 ∧
      (vwrite s { cmdAccess (agentChervil 0) (aStep 1 halted) halted with lat := false } 0 256 (scrubRecord 0 2048 5 9 1 halted.counts)).1 =
        .ok () ∧ ok (exec (.scrub c0 5 true ⟨0, 9, []⟩) s) = true := by decide +kernel

/-- A message of line 16's home to its controller. -/
def toMem : Msg := { aMsg 0x128 0 with mask := BitVec.allOnes 512, data := 7 }

theorem wit_Controllers : let q := setCtrl net0 223 { Ctrl.idle with lc := [ctrlOp .read 2048 0] }
    let r := setHome (slotted net0 (ctrlOp .read 2048 0)) line16
      { HomeLine.none with busy := some ⟨.rd, ask, [], none, some 2048⟩ }
    let w := slotted net0 (ctrlOp .write 2048 7)
    let lost := post (exec (.fastChannelLost (Fin.ofNat 128 (channelOf 2048))) net0)
    let lw := slotted lost (ctrlOp .write 2048 7)
    grantPick (ctrlOf q 223) (slotsOf 223) = some 0 ∧ (ctrlOf q 223).active.length < slotsOf 223 ∧
      (ctrlOf q 223).queue 0 = [ctrlOp .read 2048 0] ∧
      (post (exec (.controllerGrant 223) q)).obj 0x3080 4 1 = 1 ∧ ctrlMsg toMem = true ∧
      (slotOp r 2048 (fun o => o.kind == .read || o.kind == .fix)).isSome = true ∧ pageLost r 2048 = false ∧
      waitingHome r 2048 = some line16 ∧ memMarks r 2048 = 0 ∧ r.coh.conflictQ = [] ∧
      (homeLine (post (exec (.lineRead toMem none) r)) line16).busy = none ∧
      (slotOp w 2048 (fun o => o.kind == .write && o.data == toMem.data && o.marks == toMem.marks)).isSome = true ∧
      memData (post (exec (.lineWrite toMem none) w)) 2048 = 7 ∧
      pageLost lw 2048 = true ∧
      (slotOp lw 2048 (fun o => o.kind == .write && o.data == toMem.data && o.marks == toMem.marks)).isSome = true ∧
      (post (exec (.lineWrite toMem none) lw)).obj 0x3080 6 0 = 1 := by decide +kernel

/-- Nine symbols of a code page in error: one in the stored CRC of line 1, one in that of line 2, seven in its check bytes. -/
def badFlips : Nat := 2 ^ 16416 + 2 ^ 16452 + (List.range 7).foldl (fun a i => a + 2 ^ (12 * i)) 0 * 2 ^ checkBit

/-- What the array returns then. -/
def badErr : ArrayErr := ⟨BitVec.ofNat 17408 badFlips⟩

theorem badErr_flips : badErr.flips.toNat = badFlips := by decide +kernel

theorem badFlips_word : pageWord 8 badFlips =
    List.replicate 1368 0 ++ [1, 0, 0, 1, 0, 0, 0, 0, 0, 0, 0, 1, 1, 1, 1, 1, 1, 1, 0, 0, 0, 0, 0, 0, 0, 0, 0] := by
  decide +kernel

theorem badFlips_syndromes : rsSyndromes 8 (pageWord 8 badFlips) =
    [1, 2258, 2151, 3640, 3130, 1114, 2992, 939, 3879, 799, 776, 3219, 3475, 352, 1194, 2282] := by
  rw [badFlips_word]
  simp only [rsSyndromes, gfEval_zeros]
  decide +kernel

theorem badFlips_locator : (locator (rsSyndromes 8 (pageWord 8 badFlips))).l = 9 := by
  rw [badFlips_syndromes]
  decide +kernel

theorem badFlips_crcs : crcFails badFlips 1 = true ∧ failedCrcs badFlips = [1, 2] := by
  have h1 := crcFails_of_stored (flips := badFlips) (i := 1) (by decide +kernel) (by decide +kernel) (by decide +kernel)
  have h2 := crcFails_of_stored (flips := badFlips) (i := 2) (by decide +kernel) (by decide +kernel) (by decide +kernel)
  have h0 := crcFails_clean (flips := badFlips) (i := 0) (by decide +kernel) (by decide +kernel)
  have h3 := crcFails_clean (flips := badFlips) (i := 3) (by decide +kernel) (by decide +kernel)
  exact ⟨h1, by simp [failedCrcs, List.range_succ, h0, h1, h2, h3]⟩

theorem lineRead_ok {s : State} {m : Msg} {err : Option ArrayErr}
    (h : (slotOp s m.line.no fun o => o.kind == .read || o.kind == .fix).isSome = true) (hm : ctrlMsg m = true) :
    ok (exec (.lineRead m err) s) = true := by
  obtain ⟨x, hx⟩ := Option.isSome_iff_exists.mp h
  simp [exec, execLineRead, hx, guarded, hm, ok]

theorem lineWrite_ok {s : State} {m : Msg} {err : Option ArrayErr}
    (h : (slotOp s m.line.no fun o => o.kind == .write && o.data == m.data && o.marks == m.marks).isSome = true)
    (hm : ctrlMsg m = true) : ok (exec (.lineWrite m err) s) = true := by
  obtain ⟨x, hx⟩ := Option.isSome_iff_exists.mp h
  simp only [exec, execLineWrite, hx, guarded, hm, ok, ite_true]

/-- The fast tier at code strength 1. -/
def weak : State := net0.setObj 0x2050 3 0 1

theorem wit_ArrayErrors : let r := slotted weak (ctrlOp .read 2049 0)
    let f := slotted weak (ctrlOp .fix 2049 0)
    let w := slotted weak (ctrlOp .write 2049 7)
    let m := { toMem with line := ⟨2049, false⟩ }
    crcFails badErr.flips.toNat (2049 % 4) = true ∧
      decodeFlips (correctable weak (tierOf 2049)) badErr.flips.toNat = none ∧ failedCrcs badErr.flips.toNat = [1, 2] ∧
      (decodeFlips (correctable weak (tierOf 2049)) (ArrayErr.mk 0).flips.toNat).isSome = true ∧
      ctrlMsg m = true ∧ pageLost weak 2049 = false ∧
      (slotOp r 2049 (fun o => o.kind == .read || o.kind == .fix)).isSome = true ∧
      (slotOp f 2049 (fun o => o.kind == .read || o.kind == .fix)).isSome = true ∧
      (slotOp w 2049 (fun o => o.kind == .write && o.data == m.data && o.marks == m.marks)).isSome = true ∧
      ∀ e, ok (exec (.lineRead m (some e)) r) = true ∧ ok (exec (.lineRead m (some e)) f) = true ∧
        ok (exec (.lineWrite m (some e)) w) = true := by
  have h : rsDecode 8 (pageWord 8 badFlips) = none := by simp [rsDecode, badFlips_locator]
  have hd : decodeFlips 8 badFlips = none := by
    rw [decodeFlips, if_neg (by decide +kernel : badFlips ≠ 0), h]
  have h8 : correctable weak (tierOf 2049) = 8 := by decide +kernel
  intro r f w m
  rw [badErr_flips, h8]
  refine ⟨badFlips_crcs.1, hd, badFlips_crcs.2, by decide +kernel, by decide +kernel, by decide +kernel, by decide +kernel,
    by decide +kernel, by decide +kernel, fun e => ?_⟩
  have hm : ctrlMsg m = true := by decide +kernel
  exact ⟨lineRead_ok (by decide +kernel) hm, lineRead_ok (by decide +kernel) hm, lineWrite_ok (by decide +kernel) hm⟩

theorem wit_HostReads : let h : Line := ⟨5, true⟩
    let b := setHome net0 h { HomeLine.none with busy := some ⟨.rd, { ask with line := h }, [], none, none⟩ }
    lineExists h = true ∧ (homeLine net0 h).busy = none ∧ hostLine (post (exec (.hostReadCompletion 5 0 77 true) net0)) 5 = (77, 15) ∧
      (hostLine (post (exec (.hostReadFailed 5 0 0) net0)) 5).2 = 15 ∧ (homeLine b h).st = 0 ∧
      ((homeLine b h).busy.map Txn.kind) = some .rd ∧ b.coh.conflictQ = [] ∧
      (homeLine (post (exec (.hostReadCompletion 5 0 77 false) b)) h).busy = none := by decide +kernel

theorem wit_DeviceWindow : let s := net0
    let absent := net0.setFn 0 0
    let off : BitVec 40 := BitVec.ofNat 40 (2048 * 512 + 8)
    bar2Win s = 0 ∧ bar2Ok s off.toNat 504 = true ∧ bar2Ok absent off.toNat 504 = true ∧ fnActs absent 0 = false ∧
      ok (exec (.bar2Read off 504) absent) = true ∧ ok (exec (.bar2Write off 504 3 false) absent) = true ∧ fnActs s 0 = true ∧
      (homeLine s line16).st = 2 ∧ settled s line16 = true ∧ (homeLine s line16).discarded = false ∧
      (homeLine s line16).presence = 0 ∧ hintEntry s off.toNat = none ∧
      (post (exec (.bar2Read off 504) s)).out = [.completion 0 504 0 false] ∧
      (homeLine (post (exec (.bar2Write off 504 3 false) s)) line16).data = 3 <<< 64 := by decide +kernel

/-- Core 0, whose command serves function 0, with an inbox as given, and the PF's channel 7 at it. -/
def inboxed (b : Inbox) : State := (live (withCore { aCore with inbox := b })).setObj 0x4010 1 0 5

theorem wit_InboxChannels : let me : Sender := ⟨1, 0, 7⟩
    let s := inboxed Inbox.empty
    let l := inboxed { Inbox.empty with lock := some me }
    let d := { s with host := { s.host with chanDrop := [(7, true)] } }
    PageActs s 0 ∧ inService s 0 = true ∧ (s.core 0).hw.fenced = false ∧ inboxOwner (s.core 0) 1 0 = true ∧ (s.core 0).firstReader = none ∧
      (post (exec (.ibTarget 0 7 5 1) l)).reg 0 (chanOff 7) = 5 ∧ ((post (exec (.ibTarget 0 7 5 1) l)).core 0).inbox.lock = none ∧
      ok (exec (.ibTarget 0 7 0 1) s) = true ∧ bit ((post (exec (.ibWord 0 7 9) d)).reg 0 (chanOff 7 + 12)) 16 = true ∧
      ((post (exec (.ibWord 0 7 9) s)).core 0).inbox.fifo = [⟨9, false, false, 1, 0⟩] ∧
      ((post (exec (.ibWordEnd 0 7 9) s)).core 0).inbox.fifo = [⟨9, true, false, 1, 0⟩] ∧
      evCounter (post (exec (.eventAdd 0 4095 3) s)) 0 4095 = 3 := by
  unfold PageActs; decide +kernel

/-- An access of function 0's page or of the control page with all byte enables. -/
def acc (off val : Nat) : RegAccess := ⟨0, BitVec.ofNat 25 off, BitVec.ofNat 32 val, 15⟩

theorem wit_SpecialRegisterRows : let s := net0.setReg 0 0x20020 (7 * 2 ^ 16 + 9)
    reaches s 0 0x20020 4 = true ∧ regKind 0 0x20020 = some .sqc ∧ actsAt s 0 0x20020 = true ∧
      (post (exec (.sqcClear 0 0x20020 9) s)).reg 0 0x20020 = 2 ^ 16 + 9 ∧ ok (exec (.sqcClear 0 0x20020 8) s) = true ∧
      isReserved 0 0x24 1 = true ∧ (acc 0x24 0).off.toNat < barSize 0 ∧
      bits ((post (exec (.reservedAccess true (acc 0x24 5) 1) net0)).reg 0 0x21000) 24 8 = 1 ∧
      ok (exec (.reservedAccess false (acc 0x24 5) 1) net0) = true ∧ ok (exec (.partialWrite { acc 0x20020 0 with be := 1 }) s) = true := by
  decide +kernel

theorem wit_RegisterWrites : let f := { net0 with host := { net0.host with vfEnable := true, numVfs := 255 } }
    let d := net0.setReg 0 0x21020 (32 * 2 ^ 24)
    reaches net0 0 0x20004 4 = true ∧ regKind 0 0x20004 = some .wo ∧ actsAt net0 0 0x20004 = true ∧
      bits ((post (exec (.partialWrite { acc 0x20004 0 with be := 1 }) net0)).reg 0 0x21000) 24 8 = 2 ∧
      actsAt f 255 0x2014 = false ∧ ok (exec (.partialWrite ⟨255, 0x2014, 0, 1⟩) f) = true ∧
      regKind 0 0x8FFC = some .rw ∧ regKind 0 0x22000 = some .ro ∧ ownRow 0x22000 = false ∧ reaches net0 0 0x22000 4 = true ∧
      ok (exec (.registerWrite (acc 0x22000 5)) net0) = true ∧ heldReg net0 0 0x8FFC = false ∧
      (post (exec (.registerWrite (acc 0x8FFC 5)) net0)).reg 0 0x8FFC = 5 ∧ net0.host.fcmd = none ∧
      (post (exec (.registerWrite (acc 0x20004 8)) net0)).host.fcmd.isSome = true ∧
      (match indRead d with | .ok _ => true | .error _ => false) = true ∧ ok (exec .indDataRead d) = true ∧
      (match indRead { net0 with power := { net0.power with domains := 0 } } with | .ok _ => 0 | .error e => e) = 17 ∧
      bit ((post (exec .indDataRead { net0 with power := { net0.power with domains := 0 } })).reg 0 0x2102C) 17 = true ∧
      bits ((post (exec (.indDataWrite 5) net0)).reg 0 0x21000) 24 8 = 4 := by decide +kernel

theorem wit_Mailbox : let s := post (exec (.mbxSel 0x01000000) net0)
    let bad := s.setReg 0 0x21040 0x02000000
    mbxBusy net0 = false ∧ mbxBusy s = true ∧ (mbxValue s (s.reg 0 0x21040) 0).isSome = true ∧
      (post (exec .mbxCaptureDone s)).reg 0 0x21048 = 1 ∧ ok (exec (.mbxSel 0) s) = true ∧
      mbxValue net0 0x02000000 0 = none ∧ (post (exec (.mbxSel 0x02000000) net0)).reg 0 0x21048 = 5 ∧
      mbxBusy bad = true ∧ mbxValue bad (bad.reg 0 0x21040) 0 = none ∧ ok (exec .mbxCaptureDone bad) = true ∧
      bit (net0.reg 0 0x21048) 0 = false ∧ ok (exec .mbxData3Read net0) = true ∧
      (post (exec .mbxData3Read (post (exec .mbxCaptureDone s)))).reg 0 0x21048 = 0 := by decide +kernel

theorem wit_PinsAndLink : let low := { State.reset with host := { State.reset.host with perst := false } }
    let high := { State.reset with host := { State.reset.host with perst := true } }
    let up := { high with power := { high.power with domains := BitVec.allOnes 20, pllLocked := true } }
    let run := { net0 with host := { net0.host with perst := true } }
    low.host.perst = false ∧ ok (exec .perstNHigh low) = true ∧ high.host.perst = true ∧ high.released = false ∧
      (post (exec .perstN high)).host.perst = false ∧ run.host.perst = true ∧ run.released = true ∧
      (post (exec .perstN run)).moduleState = 3 ∧ up.host.linkUp = false ∧ up.power.domains.getLsbD 18 = true ∧
      (post (exec .linkUp up)).host.linkUp = true := by decide +kernel

/-- Registers of the function commands: the function and three arguments. -/
def fcmds (s : State) (fn a0 a1 a2 : Nat) : State :=
  (((s.setReg 0 0x20000 fn).setReg 0 0x20008 a0).setReg 0 0x20010 a1).setReg 0 0x20018 a2

theorem wit_FunctionCommandsElsewhere : ∀ p ∈ [(Instr.setCtx, 1), (.inval, 2), (.resume, 4), (.dirtyStart, 5), (.dirtyStop, 6), (.dirtyCollect, 7)],
    let running := { net0 with host := { net0.host with fcmd := some ⟨p.2, 0, 1, 0⟩ } }
    fcmdRow p.1 = some p.2 ∧ ok (exec p.1 running) = true ∧ fnPresent (fcmds net0 255 0 0 0) (fcmdFunc (fcmds net0 255 0 0 0)) = false ∧
      bit ((post (exec p.1 (fcmds net0 255 0 0 0))).reg 0 fcmdStat) 16 = true ∧ ok (exec (.quiesce 5) running) = true ∧
      bits ((post (exec (.quiesce 5) (fcmds net0 255 0 0 0))).reg 0 fcmdStat) 24 8 = 2 ∧
      bits ((post (exec .fcmdDone running)).reg 0 fcmdStat) 24 8 = 1 := by decide +kernel

theorem wit_FunctionCommandsAct :
    let ctx := fcmds net0 0 (2 ^ 19) 0 0
    let part := fcmds net0 0 0x10000 0x20000 0
    let logs := { fcmds net0 0 0 1 0 with host := { (fcmds net0 0 0 1 0).host with dirty := [(0, 1025)] } }
    fcmdFunc ctx = 0 ∧ fcmdArg ctx 0 = 2 ^ 19 ∧ ctxSet (post (exec .setCtx ctx)) 0 = true ∧
      sget (fun _ => 0) (post (exec .setCtx ctx)).host.ctxBase 0 = 2 ^ 19 ∧ fcmdArg part 1 = 0x20000 ∧ ok (exec .inval part) = true ∧
      (post (exec .inval (fcmds net0 0 0 0 0))).host.tlb = [] ∧
      sget (fun _ => 0) (post (exec .dirtyStart (fcmds net0 0 512 0 0))).host.dirty 0 = 513 ∧
      ok (exec .dirtyStop net0) = true ∧ (collect (lineParts 1024 2) 0 logs).1 = .ok ∧ fcmdArg logs 1 = 1 ∧
      bit ((post (exec .dirtyCollect logs)).reg 0 fcmdStat) 16 = true ∧ net0.fnState 0 = 2 ∧
      (post (exec (.quiesce 5) net0)).fnState 0 = 3 ∧ (post (exec .resume (net0.setFn 0 4))).fnState 0 = 2 := by
  decide +kernel

theorem wit_FunctionsEndAndBegin :
    let t := (stepping net0 (aStep 1 (cmdOf 1 0 .running))).setFn 0 3
    let d := { t with host := { t.host with drains := [(0, some ⟨0, 0, 1000⟩)] } }
    let en := { net0 with host := { net0.host with vfEnable := true, numVfs := 255 } }
    let v := en.setFn 255 2
    let n : State := { net0 with host := { net0.host with ctxSet := [] } }
    sget (fun _ => none) d.host.drains 0 = some ⟨0, 0, 1000⟩ ∧ d.fnState 0 = 3 ∧ 0 + 0 * (1000 * 1000) ≤ d.tickStart ∧
      (findStep (post (exec (.drainEnd 0) d)) 1).map Step.statuses = some [.abortedDisable] ∧
      (net0.setFn 0 3).sage.steps = [] ∧ sget (fun _ => none) (net0.setFn 0 3).host.drains 0 = none ∧
      (post (exec (.functionQuiesced 0) (net0.setFn 0 3))).fnState 0 = 4 ∧
      fnPresent n 0 = true ∧ ok (exec (.flr 0) n) = true ∧ fnPresent v 255 = true ∧ v.fnState 255 = 2 ∧ v.host.zeroing = [] ∧
      (post (exec (.flr 255) v)).fnState 255 = 1 ∧ (post (exec .vfEnableClear en)).host.vfEnable = false ∧
      net0.host.vfEnable = false ∧ (post (exec (.vfEnableSet 255) net0)).fnState 255 = 1 := by
  decide +kernel

theorem wit_FunctionsBecomeReady :
    let en := { net0 with host := { net0.host with vfEnable := true, numVfs := 255 } }
    let z : Zeroing := ⟨0, [1]⟩
    let q := { net0.setFn 0 1 with host := { net0.host with zeroing := [z] } }
    (en.setFn 255 1).host.zeroing = [] ∧ (en.setFn 255 1).released = true ∧ fnPresent (en.setFn 255 1) 255 = true ∧
      (post (exec (.vfReady 255) (en.setFn 255 1))).fnState 255 = 2 ∧
      takeFirst (fun z : Zeroing => z.fn == 0) q.host.zeroing = some (z, []) ∧ q.released = true ∧
      jobOpen q (zeroJob 0) = false ∧ pagesIdle q [1] = true ∧
      ((List.range 128).all fun n => !pageLost q (128 + n) && (replicaOf q (128 + n)).isNone) = true ∧
      (post (exec (.zeroingDone 0) q)).fnState 0 = 2 := by decide +kernel

/-! ## The dictionary, management, power, starts and ports -/

/-- The module with every power domain up. -/
def powered (s : State) : State := { s with power := { s.power with domains := BitVec.allOnes 20 } }

/-- A module whose dictionary is served, with a request in the PF's window. -/
def asking (s : State) (r : DictReq) : State :=
  let h := r.op.toNat + 2 ^ 16 * r.index.toNat + 2 ^ 32 * r.sub.toNat + 2 ^ 64 * r.offset.toNat + 2 ^ 96 * r.count.toNat
  let s := ((powered s).setReg 0 dwStat 0x10000).setReg 0 0x8008 r.raw
  let s := (List.range 4).foldl (fun s n => s.setReg 0 (0x8100 + 4 * n) (bits h (32 * n) 32)) s
  (List.range ((r.raw - 13) / 4)).foldl (fun s n => s.setReg 0 (0x8110 + 4 * n) (bits r.body (32 * n) 32)) s

/-- The module with the write of a row in the PF's window. -/
def asked (s : State) (i : Instr) : State :=
  match ownRequest i with
  | some (_, r) => asking s r
  | none => s

/-- Whether the write of a row stands in the PF's window, at time 0. -/
def asks (s : State) (i : Instr) : Bool :=
  served s && decide (s.now = 0) && (match ownRequest i with
    | some (.window 0, r) => windowAsks s 0 r
    | _ => false)

theorem pfAsks_of_asks {s : State} {i : Instr} (h : asks s i = true) : PfAsks s i := by
  unfold asks at h
  rw [Bool.and_eq_true, Bool.and_eq_true, decide_eq_true_eq] at h
  refine ⟨h.1.1, ⟨fun _ _ ns _ => by omega, fun _ ns _ => by omega⟩, ?_⟩
  have h2 := h.2
  split at h2
  · rename_i r hr
    exact ⟨r, hr, h2⟩
  · cases h2

/-- What a window shows of a reply: BUSY and the status. -/
def shown (o : Out) : Bool × Nat := (bit ((post o).reg 0 dwStat) 16, bits ((post o).reg 0 dwStat) 24 8)

/-- Whether a row's write stands in the window of the PF, completes and is answered with a status. -/
def answers (s : State) (i : Instr) (st : Nat) : Bool :=
  asks (asked s i) i && ok (exec i (asked s i)) && decide (shown (exec i (asked s i)) = (false, st))

/-- A datagram to the module's address and port. -/
def toModule (s : State) : Dgram := ⟨mgmtAddress, BitVec.ofNat 16 (mgmtPort s), true, 0⟩

theorem takes_toModule {s : State} (h : mgmtPort s < 65536) (all : Bool) : takesDgram s (toModule s) all = true := by
  simp [takesDgram, toModule, Nat.mod_eq_of_lt h]

/-- A datagram that breaks the layout. -/
def broken : Dgram := ⟨0, 0, false, 0⟩

theorem wit_DictionaryClears : net0.released = true ∧ ∀ i ∈ [Instr.acctClear pf 16383, .convClear pf 255, .coreCtrClear pf 0xFFFF, .matrixCtrClear pf 0,
    .roCtrClear pf 255, .cacheCtrClear pf 255, .coherenceCtrClear pf 3, .memCtrClear pf 0xFF, .ceTableClear pf 1, .netCtrClear pf 0xFF,
    .peerCtrClear pf 0xFF, .sensorClear pf 411, .monitorClear pf 31], answers net0 i 0 = true := by decide +kernel

theorem wit_DictionaryClearsRefused : ∀ i ∈ [Instr.memCtrClear pf 0, .netCtrClear pf 0xFE, .peerCtrClear pf 8], answers net0 i 4 = true := by
  decide +kernel

theorem wit_SessionWrite : let s := powered net0
    ownRequest (.convClear (.session 7 1 broken) 0) = some (.session 7 1 broken, writeReq 0x3040 4 0 2 0) ∧ served s = true ∧
      sessionAt s 7 = none ∧ ok (exec (.convClear (.session 7 1 broken) 0) s) = true := by decide +kernel

/-- A replica entry: page 0 of the fast tier, mirrored in the first page of the slow tier. -/
def aReplica : Nat := 0x4000000000 * 2 ^ 64 + 2 ^ 128

theorem wit_ControlsAllowed : monitorOk 0 = true ∧ replicaOk (asked net0 (.replicaTable pf 63 (BitVec.ofNat 256 aReplica))) aReplica = true ∧
    anyMeet replicasMeet (replaced 64 (net0.obj 0x2051 1) [(63, aReplica)]) = false ∧ clientKeyOk (2 ^ (8 * 1793)) = true ∧
    net0.obj 0x2053 3 0 = 0 ∧ net0.mem.scrub = none ∧
    ∀ i ∈ [Instr.pinWays pf 12, .lineProbeAddr pf (BitVec.ofNat 64 (2 ^ 40 - 512)), .monitorConfig pf 31 0,
      .replicaTable pf 63 (BitVec.ofNat 256 aReplica), .scrubStart pf 1, .retirePage pf (BitVec.ofNat 64 (0x4000000000 - 65536)) [],
      .clientKeys pf 15 (BitVec.ofNat 14400 (2 ^ (8 * 1793))), .portEnable pf 7 0, .portEnable pf 7 1],
    answers net0 i 0 = true := by decide +kernel

theorem wit_ControlsRefused : let sc := { net0 with mem := { net0.mem with scrub := some ⟨0, 0, 0⟩ } }
    monitorOk 0x100 = false ∧ replicaOk net0 (2 ^ 128) = false ∧ clientKeyOk (3 * 2 ^ (8 * 1793)) = false ∧
    (∀ i ∈ [Instr.pinWays pf 13, .lineProbeAddr pf 1, .lineProbeAddr pf (BitVec.ofNat 64 (2 ^ 40)), .monitorConfig pf 31 0x100,
      .replicaTable pf 63 (BitVec.ofNat 256 (2 ^ 128)), .retirePage pf 512 [], .clientKeys pf 15 (BitVec.ofNat 14400 (3 * 2 ^ (8 * 1793))),
      .portEnable pf 7 2], answers net0 i 4 = true) ∧
    answers sc (.scrubStart pf 1) 6 = true ∧ answers net0 (.evcValues pf 32760 8 5) 3 = true ∧
    answers net0 (.thermalRestart pf 1) 13 = true := by decide +kernel

theorem wit_CounterOfQuiesced : answers (net0.setFn 0 4) (.evcValues pf 32760 8 5) 0 = true ∧
    evCounter (post (exec (.evcValues pf 32760 8 5) (asked (net0.setFn 0 4) (.evcValues pf 32760 8 5)))) 0 4095 = 5 := by
  decide +kernel

/-- The module in service hold after a thermal shutdown, every junction at 0 °C. -/
def cooled : State :=
  (List.range 200).foldl (fun s n => s.setObj 0x3000 1 n 0)
    { net0.setModule 4 with ctl := { net0.ctl with thermalHold := true } }

theorem wit_ThermalRestart : let s := asked cooled (.thermalRestart pf 1)
    asks s (.thermalRestart pf 1) = true ∧ s.moduleState = 4 ∧ s.ctl.thermalHold = true ∧ junctionsCool s = true ∧
      (post (exec (.thermalRestart pf 1) s)).moduleState = 5 := by decide +kernel

theorem wit_FunctionControls : fnPresent net0 (Fin.ofNat 256 0) = true ∧ net0.fnState 0 = 2 ∧
    answers net0 (.fnQuiesce pf 0 5) 0 = true ∧ answers (net0.setFn 0 4) (.fnQuiesce pf 0 5) 13 = true ∧
    answers net0 (.fnResume pf 0) 13 = true ∧ answers (net0.setFn 0 4) (.fnResume pf 0) 0 = true ∧
    net0.moduleState = 0 ∧ answers net0 (.moduleQuiesce pf 5) 0 = true ∧ (net0.setModule 2).moduleState = 2 ∧
    serviceState net0 = 0 ∧ answers (net0.setModule 2) (.moduleResume pf) 0 = true ∧
    asks (asked net0 (.moduleWarmStart pf)) (.moduleWarmStart pf) = true ∧
    (post (exec (.moduleWarmStart pf) (asked net0 (.moduleWarmStart pf)))).moduleState = 3 ∧
    answers net0 (.configDefaults pf 1) 3 = true ∧ answers (net0.setModule 2) (.configDefaults pf 1) 0 = true ∧
    asks (asked (net0.setModule 4) (.moduleWarmStart pf)) (.moduleWarmStart pf) = true ∧ net0.ctl.thermalHold = false ∧
    (post (exec (.moduleWarmStart pf) (asked (net0.setModule 4) (.moduleWarmStart pf)))).moduleState = 5 := by decide +kernel

/-- An update that the PF owns, in a state of UPDATE_STATE. -/
def updateAt (st : Nat) : State :=
  let s := net0.setObj 0x6010 3 0 st
  { s with mgmt := { s.mgmt with updOwner := some pf } }

theorem wit_FirmwareUpdate : otherOwner net0 pf = false ∧ otherOwner (updateAt 2) pf = false ∧ answers net0 (.updBegin pf) 0 = true ∧
    answers (updateAt 1) (.updateImage pf 0 1 5) 2 = true ∧ answers (updateAt 2) (.updateImage pf (BitVec.ofNat 32 (2 ^ 25 - 1)) 1 5) 0 = true ∧
    answers (updateAt 2) (.updCommit pf) 0 = true ∧ answers (updateAt 3) (.updCommit pf) 13 = true ∧ updState (updateAt 3) = 3 ∧
    answers (updateAt 3) (.updAbort pf) 0 = true ∧ updState (post (exec .eraseDone (updateAt 1))) = 2 ∧
    imageValid (updateAt 3) (fwSlot (updateAt 3) (inactiveSlot (updateAt 3))) = false ∧
    updState (post (exec .verifyDone (updateAt 3))) = 5 := by decide +kernel

/-- A trial start, released. -/
def trial : State :=
  let s := net0.setObj 0x4001 1 1 2
  { s with mgmt := { s.mgmt with trial := true, cfgApplied := true } }

theorem wit_TrialStart : trial.mgmt.trial = true ∧ trial.released = true ∧ trial.mgmt.cfgApplied = true ∧ trial.obj 0x4001 1 1 = 2 ∧
    (post (exec .slotConfirm trial)).mgmt.trial = false ∧ (post (exec .confirmTimeout trial)).mgmt.trial = false := by
  decide +kernel

/-- A request of the PF's window. -/
def aReq (op idx sub raw : Nat) : DictReq := { writeReq idx sub 0 (raw - 16) 0 with op := BitVec.ofNat 8 op, raw := raw }

/-- The same without BUSY. -/
def unasked (r : DictReq) : State := (asking net0 r).setReg 0 dwStat 0

theorem wit_WindowRequests : let rd := aReq 1 0x1000 8 16
    let one := (asking net0 (aReq 2 0x2030 2 17)).setObj 0x4001 1 1 2
    (ok (exec (.go 0 0) (unasked rd)) && ok (exec (.go 0 1) (asking net0 rd))) = true ∧ served (unasked rd) = true ∧
      bit ((post (exec (.go 0 1) (unasked rd))).reg 0 dwStat) 16 = true ∧ (windowReq (unasked { rd with raw := 15 }) 0).raw < 16 ∧
      shown (exec (.go 0 1) (unasked { rd with raw := 15 })) = (false, 5) ∧
      shown (exec (.go 0 1) (unasked { rd with raw := 7937 })) = (false, 5) ∧
      windowReq (unasked rd) 0 = rd ∧ windowAsks (asking net0 rd) 0 rd = true ∧ windowAsks (asking net0 (aReq 3 0x1000 8 16)) 0 (aReq 3 0x1000 8 16) = true ∧
      windowAsks (asking net0 (aReq 4 0 0 48)) 0 (aReq 4 0 0 48) = true ∧ ok (exec (.info pf (aReq 3 0x1000 8 16)) (asking net0 (aReq 3 0x1000 8 16))) = true ∧
      ok (exec (.attest pf (aReq 4 0 0 48)) (asking net0 (aReq 4 0 0 48))) = true ∧
      (findObj 0x2010 1).map (fun o => (o.typ, o.esize, decide (o.acc ≠ 2))) = some (4, 4, true) ∧
      shown (exec (.read pf (aReq 1 0x2010 1 16)) (asking net0 (aReq 1 0x2010 1 16))) = (false, 0) ∧
      standbyServes one = false ∧ windowAsks one 0 (aReq 2 0x2030 2 17) = true ∧ ok (exec (.write pf (aReq 2 0x2030 2 17)) one) = true ∧
      standbyServes (one.setObj 0x4001 1 1 1) = true ∧
      (post (exec (.write pf (aReq 2 0x2030 2 17)) (one.setObj 0x4001 1 1 1))).mgmt.held.length = 1 ∧
      sessionAt one 7 = none ∧ takesDgram one broken false = false ∧
      ok (exec (.read (.session 7 1 broken) rd) one) = true := by
  decide +kernel

/-- A session of place 7 under a key slot. -/
def aSession (slot : Nat) (o : Bool) : Session := ⟨7, 9, slot, o, 0, 0, 0, [], 0, 0⟩

/-- The module with an ADMIN key in slot 0 and a session. -/
def talking (l : List Session) : State :=
  let s := (powered net0).setObj 0x6020 1 0 (2 * 2 ^ (8 * 1793))
  { s with mgmt := { s.mgmt with sessions := l } }

theorem wit_Sessions : let none_ := powered net0
    served none_ = true ∧ takesDgram none_ broken true = false ∧ ok (exec (.discover broken) none_) = true ∧
      mgmtPort none_ < 65536 ∧ adminEnrolled none_ = false ∧ ok (exec (.hello broken 0 0 0) none_) = true ∧
      freePlace (talking []) = some 0 ∧ adminEnrolled (talking []) = true ∧ aliasPending (talking []) = false ∧
      mgmtPort (talking []) < 65536 ∧ ok (exec (.auth broken 9 0) (talking [aSession 0 true])) = true ∧ keyRole (talking []) 0 = 2 ∧
      ((talking [aSession 16 false]).mgmt.sessions.find? fun x => decide (x.number = 9) && !x.open_) = some (aSession 16 false) ∧
      sessionAt (talking [aSession 0 true]) 7 = some (aSession 0 true) ∧ ok (exec (.close 7 broken) (talking [aSession 0 true])) = true ∧
      (post (exec (.sessionIdle 7) (talking [aSession 0 true]))).mgmt.sessions = [] := by decide +kernel

theorem wit_SessionsTakeDatagrams : takesDgram (talking []) (toModule (talking [])) false = true ∧
    takesDgram (talking [aSession 0 true]) (toModule (talking [aSession 0 true])) false = true ∧
    takesDgram (powered net0) (toModule (powered net0)) true = true :=
  ⟨takes_toModule (by decide +kernel) false, takes_toModule (by decide +kernel) false, takes_toModule (by decide +kernel) true⟩

/-- Whether a signature verifies is a constant without a value; a session under a key in use waits for it. -/
theorem wit_SignatureVerifies (sig : BitVec 10240) (h : Config.falconVerify (bits ((talking []).obj 0x6020 1 0) 0 14344)
    (signedText [99, 108, 105, 101, 110, 116] 0) sig.toNat = true) :
    let s := talking [aSession 0 false]
    served s = true ∧ (s.mgmt.sessions.find? fun x => decide (x.number = 9) && !x.open_) = some (aSession 0 false) ∧
      (aSession 0 false).keySlot < 16 ∧ keyRole s (aSession 0 false).keySlot ≠ 0 ∧
      Config.falconVerify (bits (s.obj 0x6020 1 (aSession 0 false).keySlot) 0 14344)
        (signedText [99, 108, 105, 101, 110, 116] (aSession 0 false).hash) sig.toNat = true :=
  ⟨by decide +kernel, by decide +kernel, by decide +kernel, by decide +kernel, h⟩

/-- A module whose standby serves, with writes that wait. -/
def paired (out : Bool) (l : List HeldWrite) : State :=
  let s := ((powered net0).setObj 0x4001 1 0 0).setObj 0x4001 1 1 1
  { s with mgmt := { s.mgmt with hbOut := out, held := l } }

theorem wit_Management : let r := aReq 2 0x2030 2 17
    let w : HeldWrite := ⟨pf, r, true⟩
    iluonUp (paired true []) = true ∧ standbyServes (paired true []) = true ∧ (paired true []).mgmt.primary = 0 ∧
      (post (exec .heartbeat (paired true []))).out = [.hb 0] ∧ (post (exec .heartbeat (paired false [⟨pf, r, false⟩]))).out = [.hb 1] ∧
      (post (exec .heartbeatAck (paired true []))).mgmt.hbAcked = true ∧ (post (exec .heartbeatAck (paired true [w]))).mgmt.held = [] ∧
      (post (exec .mgmtTakeover (paired true []))).mgmt.primary = 1 ∧ (post (exec .mgmtLost (paired true []))).obj 0x4001 1 1 = 2 := by
  decide +kernel

theorem wit_SensorsLogAndAgeing : let s := powered net0
    let l := { s with mgmt := { s.mgmt with logPend := [LogRec.blank] } }
    ok (exec (.sensorSample [(411, 0x3F800000)]) s) = true ∧ (sensorValue s 411 0x3F800000).obj 0x3000 3 411 = 0x3F800000 ∧
      (post (exec .logRecordWrite l)).mgmt.log = s.mgmt.log ++ [LogRec.blank] ∧ s.obj 0x4010 2 5 ≤ 1 ∧ coreOfSite s 5 = some 0 ∧
      iluonUp s = true ∧ (post (exec .moduleQuiesced ((net0.setModule 1).setFn 0 4))).moduleState = 2 ∧
      ((List.range 256).all fun f => decide ((net0.setFn 0 4).fnState f = 0 ∨ (net0.setFn 0 4).fnState f = 4)) = true := by
  decide +kernel

/-- The minimum margin of a site is a constant without a value: a margin below it and one that is not. -/
theorem wit_Margins (w : Word) (h : w < Config.minMargin 5) : let s := powered net0
    iluonUp s = true ∧ s.obj 0x4010 2 5 ≤ 1 ∧ w < Config.minMargin 5 ∧ Config.minMargin 5 ≤ 0xFFFFFFFF :=
  ⟨by decide +kernel, by decide +kernel, h, by bv_omega⟩

/-- A module on feed A, or on both. -/
def fed (a b : Bool) : State :=
  let s := powered net0
  { s with power := { s.power with feedA := ⟨a, false⟩, feedB := ⟨b, false⟩, refclk := true, pllLocked := true } }

theorem wit_Feeds : let one := fed true false
    let two := fed true true
    let single := (fed true true).setObj 0x9000 9 0 0
    let opened := { one with power := { one.power with feedB := ⟨false, true⟩ } }
    (feedOf (fed false false) false).valid = false ∧ anyFeed (fed false false) = false ∧
      (post (exec (.feedValid false) (fed false false))).moduleState = 5 ∧ anyFeed one = true ∧ ok (exec (.feedValid true) one) = true ∧
      feedInUse single true = false ∧ ok (exec (.feedLost true) single) = true ∧ feedInUse two true = true ∧
      anyFeed (setFeed two true ⟨false, false⟩) = true ∧ ok (exec (.feedLost true) two) = true ∧ feedInUse one false = true ∧
      anyFeed (setFeed one false ⟨true, true⟩) = false ∧ (post (exec (.feedOvervoltage false) one)).power.domains = 0 ∧
      (feedOf opened true).switchOpen = true ∧ ok (exec (.feedSwitchClose true) opened) = true ∧ iluonUp one = true ∧
      ok (exec (.feedVoltageLog false) one) = true ∧ (post (exec .bothFeedsLost one)).power.domains = 0 ∧ 0 < one.obj 0x9000 0xD 12 ∧
      (post (exec (.phaseLost 12) one)).obj 0x9000 0xD 12 + 1 = one.obj 0x9000 0xD 12 := by decide +kernel

theorem wit_CapAndHeat : let s := fed true false
    let hot := s.setObj 0x9030 1 11 1
    iluonUp s = true ∧ effectiveCap s * 102 < 100000000 * 100 ∧ powerStep (post (exec (.powerSample 100000000 false true 0) s)) 0 = 1 ∧
      powerStep s 2 < 3 ∧ powerStep (post (exec (.powerSample 100000000 false true 2) s)) 2 = 1 ∧ ¬effectiveCap s * 102 < 0 * 100 ∧
      ok (exec (.powerSample 0 true true 2) s) = true ∧ thermalState s 11 = 0 ∧
      thermalState (post (exec (.thermalLimitStart 11) s)) 11 = 1 ∧ thermalState hot 11 = 1 ∧
      ok (exec (.thermalLimitStep 11 true) hot) = true ∧ powerStep (post (exec (.thermalLimitStep 11 false) hot)) 0 = 1 ∧
      dieCut (post (exec (.thermalLimitStep 7 false) (s.setObj 0x9030 1 7 1))) 7 = 25 ∧ ok (exec (.thermalLimitEnd 11) hot) = true ∧
      dieCut (post (exec (.thermalLimitStep 7 false) ((post (exec (.thermalLimitStep 7 false) (s.setObj 0x9030 1 7 1))).setObj 0x9030 1 7 0))) 7 = 0 ∧
      (post (exec (.thermalShutdown 11) s)).moduleState = 4 ∧ (post (exec (.coolantAlarm true) s)).obj 0x9030 4 0 = 2 := by decide +kernel

theorem wit_DroopClocksAndRing : let s := (fed true false).setObj 0x9010 1 0 10
    let h := { s with cores := [(0, { Core.idle with hw := { Core.idle.hw with halved := true } })] }
    let stopped (c : Bool) := { s with power := { s.power with refclk := false, stopCause := c } }
    let run : StartRun := ⟨false, 6, 0, false, false⟩
    let counts := { s with power := { s.power with counting := true, stopCause := true } }
    let ring := { s with mgmt := { s.mgmt with ringDriven := true } }
    coreLive s 0 = true ∧ (s.core 0).hw.halved = false ∧ ((post (exec (.droop 0 11) s)).core 0).hw.halved = true ∧
      (h.core 0).hw.halved = true ∧ ok (exec (.droopRestore 0) h) = true ∧ anyFeed s = true ∧ s.power.refclk = true ∧ starting s = false ∧
      ok (exec .refclkStop s) = true ∧ starting { s with ctl := { s.ctl with start := some run } } = true ∧
      (post (exec .refclkStop { s with ctl := { s.ctl with start := some run } })).power.stopCause = true ∧ s.released = true ∧
      (post (exec .refclkHoldExpiry (stopped false))).power.selfRefresh = true ∧ ok (exec .refclkReturn (stopped false)) = true ∧
      (post (exec .refclkReturn (stopped true))).power.counting = true ∧ s.ctl.start = none ∧
      (post (exec .refclkCountEnd counts)).moduleState = 3 ∧ siteOfCore s 0 = 5 ∧
      (post (exec (.clockMux 0 true 5) s)).obj 0x4010 2 5 = 3 ∧ (post (exec .ringNotDriven ring)).mgmt.ringDriven = false := by
  decide +kernel

/-- A start at work. -/
def startingWith (cold failed done : Bool) : State :=
  let s := fed true false
  { s with ctl := { s.ctl with start := some ⟨cold, 6, 0, failed, done⟩ } }

theorem wit_StartsRunAndFail : startAtWork (startingWith true false false) true 6 = true ∧
    (post (exec (.coldStart 6 [] [] []) (startingWith true false false))).mgmt.cfgApplied = true ∧
    startAtWork (startingWith false false false) false 6 = true ∧ entriesLeft (startingWith false false false) = false ∧
    stopDone (startingWith false false false) = true ∧ ok (exec (.warmStart 6 [] []) (startingWith false false false)) = true ∧
    (post (exec (.startStepTimeout 10 (blockOf 1 5) 0) (startingWith true false false))).obj 0x5010 2 0 = 1 ∧
    ok (exec (.startStepTimeout 8 (blockOf 1 5) 0) (startingWith false false false)) = true ∧
    (startingWith true true false).obj 0x5010 2 0 < 3 ∧ (post (exec .startFailed (startingWith true true false))).moduleState = 5 ∧
    (post (exec (.serviceHold false) ((startingWith true true false).setObj 0x5010 2 0 3))).moduleState = 4 := by decide +kernel

theorem wit_ReleaseAndHold : let s := startingWith false false true
    let none_ : State := (List.range 8).foldl (fun s d => s.setObj 0x4060 3 d 0) s
    let noImage := { startingWith true false false with mgmt :=
      { (startingWith true false false).mgmt with fwA := ⟨0, 0, 0, []⟩, fwB := ⟨0, 0, 0, []⟩ } }
    startDone s = true ∧ mustHold s = false ∧ latchOpen s = false ∧ s.ctl.drainLater = false ∧ 0 < s.obj 0x2010 1 0 ∧
      (post (exec .release s)).moduleState = 0 ∧ mustHold none_ = true ∧ (post (exec (.serviceHold false) none_)).moduleState = 4 ∧
      chooseSlot (applyPrevious noImage) = none ∧ (post (exec (.serviceHold false) noImage)).moduleState = 4 ∧
      (post (exec (.serviceHold true) (startingWith true false false))).moduleState = 4 := by decide +kernel

theorem wit_ServiceRequests : let s := fed true false
    let d := (s.setModule 2).setObj 0x4080 1 0 1
    let o := s.setObj 0x4080 2 0 1
    let st := s.setModule 3
    s.released = true ∧ serviceState s = 0 ∧ serviceState (post (exec (.servicePress 5) s)) = 1 ∧ serviceState d = 1 ∧
      ok (exec (.servicePress 5) d) = true ∧ latchOpen s = false ∧ latchOpen (post (exec (.latchOpen 5) s)) = true ∧
      st.released = false ∧ st.moduleState ≠ 4 ∧ (post (exec (.latchOpen 5) st)).ctl.drainLater = true ∧ latchOpen o = true ∧
      ok (exec .serviceCancel o) = true ∧ ok (exec .latchClose o) = true ∧ latchOpen d = false ∧
      serviceState (post (exec .serviceCancel d)) = 0 ∧ serviceState (post (exec .drainSafe d)) = 3 := by decide +kernel

/-- The module with the state of port 7. -/
def port7 (st : Nat) (r : PortRt) : State :=
  let s := ((fed true false).setObj 0x8010 3 7 st).setObj 0x8010 1 7 1
  let s := s.setObj 0x8010 5 7 0xFFFF
  { s with
    mgmt := { s.mgmt with cfgApplied := true }
    power := { s.power with lasersDark := false }
    peer := { s.peer with ports := [(7, r)] } }

theorem wit_PortsTrainAndFail : let dark := PortRt.dark
    let red : PortRt := { dark with reduced := true }
    let lastRx := (port7 4 dark).setObj 0x8010 5 7 0x80FF
    let tests (n : Nat) : State := (port7 4 { dark with removed := [(fibreKey true 7, n)] }).setObj 0x8010 5 7 0x7FFF
    let limit := (port7 3 dark).obj 0x8010 6 0
    portState (port7 3 dark) 7 = 3 ∧ portUp (port7 3 dark) 7 = true ∧ portState (post (exec (.lossOfLight 7) (port7 3 dark))) 7 = 1 ∧
      portsWork (port7 1 dark) = true ∧ (port7 1 dark).obj 0x8010 1 7 ≠ 0 ∧ ok (exec (.powerReduce 7) (port7 1 dark)) = true ∧ ok (exec (.probe 7) (port7 1 red)) = true ∧
      portState (post (exec (.lightDetect 7) (port7 1 dark))) 7 = 2 ∧ portsWork (port7 2 dark) = true ∧
      portState (post (exec (.ident 7 9 3 1000 255 1) (port7 2 dark))) 7 = 5 ∧ ok (exec (.trainingTimeout 7) (port7 2 dark)) = true ∧
      bit (portFibres (port7 3 dark) 7) (fibreKey true 7) = true ∧
      portState (post (exec (.fibreRemoved 7 true 7 (limit + 1) false) (port7 3 dark))) 7 = 4 ∧
      portState (post (exec (.fibreRemoved 7 true 7 0 true) (port7 3 dark))) 7 = 4 ∧
      bits (putBits (portFibres lastRx 7) (fibreKey true 7) 1 0) 8 8 = 0 ∧
      portState (post (exec (.fibreRemoved 7 true 7 0 true) lastRx)) 7 = 1 ∧
      ok (exec (.fibreRetest 7 true 7 false) (tests 9)) = true ∧
      bit (portFibres (post (exec (.fibreRetest 7 true 7 true) (tests 9))) 7) (fibreKey true 7) = true ∧
      portState (post (exec (.opticalEngineFailed 7) (port7 3 dark))) 7 = 6 := by decide +kernel

/-- A packet on port 7 for function 0, and a grant that admits the first pages. -/
def aPacket (red : Bool) (va : Nat) : PeerPacket := { default_packet with
  port := 7, isRed := red, remoteVa := BitVec.ofNat 48 va, srcModule := 9, seq := 3, mask := 1, data := 5 }
def granting : State :=
  let s := port7 3 PortRt.dark
  { s with host := { s.host with grants := [(0, 2 ^ 17 * 2 ^ 64 + 9 * 2 ^ 128 + 2 ^ 152)] } }

theorem wit_PacketsArrive : let s := port7 3 PortRt.dark
    let g := granting
    let acc : Access := ⟨agentPort 7, 0, 6, false, false, 0⟩
    let kept := { g with peer := { g.peer with answered := [⟨9, 3, 0, []⟩] } }
    let taken := { g with peer := { g.peer with taken := [⟨7, 9, 3⟩] } }
    portUp g 7 = true ∧ keptAnswer kept (aPacket false 0) = some ⟨9, 3, 0, []⟩ ∧ ok (exec (.peerArrival (aPacket false 0)) kept) = true ∧
      keptAnswer taken (aPacket true 0) = none ∧ stillTaken taken (aPacket true 0) = true ∧
      ok (exec (.peerArrival (aPacket true 0)) taken) = true ∧ keptAnswer s (aPacket false 0) = none ∧
      stillTaken s (aPacket false 0) = false ∧ grantsAdmit s (aPacket false 0) = false ∧
      (post (exec (.peerArrival (aPacket false 0)) s)).out = [.peerReply 7 3 2 []] ∧ keptAnswer g (aPacket false 0) = none ∧
      grantsAdmit g (aPacket false 0) = true ∧ grantsAdmit g (aPacket true 0x10000) = true ∧
      (vline g acc 0x10000 true).1 = .error (.unmapped 0x10000 0) ∧ ok (exec (.peerArrival (aPacket false 0x10000)) g) = true ∧
      (vline g acc 0 true).1 = .ok line16 ∧ (post (exec (.peerArrival (aPacket false 0)) g)).out = [.peerReply 7 3 0 []] ∧
      (post (exec (.peerArrival (aPacket true 0)) g)).peer.taken = [⟨7, 9, 3⟩] := by decide +kernel

/-- A packet sent and not answered. -/
def sentTo (n : Nat) : PeerSent := ⟨7, 9, 3, aPacket false 0, n, 1, 0, 256, 0, line16, 0, false⟩

/-- A follower with port 7 to its source. -/
def follower (st : Nat) : State :=
  (((port7 3 PortRt.dark).setObj 0x8000 3 0 2).setObj 0x8000 4 0 128).setObj 0x8000 5 0 st

theorem wit_ResendsAndAlignment : let s (n : Nat) : State :=
      { port7 3 PortRt.dark with peer := { (port7 3 PortRt.dark).peer with sent := [sentTo n] } }
    let due := 1000 * (s 15).obj 0x8000 2 0
    ((s 15).peer.sent.find? fun x => !x.held && decide (x.port = 7) && decide (x.seq = 3)) = some (sentTo 15) ∧
      (sentTo 15).sentNs = 0 ∧ (post (exec (.peerE2eTimeout 7 3 due) (s 15))).peer.sent = [{ sentTo 16 with sentNs := due }] ∧
      findRed (s 16) 1 0 = none ∧
      (post (exec (.peerE2eTimeout 7 3 due) (s 16))).peer.sent = [] ∧ tickRole (follower 1) = 2 ∧
      bit ((follower 1).obj 0x8000 4 0) 7 = true ∧ portUp (follower 1) 7 = true ∧ (follower 1).mgmt.cfgApplied = true ∧
      (BitVec.ofNat 32 (tickPeriod (follower 1))).toNat = tickPeriod (follower 1) ∧
      (post (exec (.timeStampExchange 7 0 1001 0 0 true (BitVec.ofNat 32 (tickPeriod (follower 1)))) (follower 1))).obj 0x8000 6 0 = 500 ∧
      (BitVec.ofNat 32 1).toNat ≠ tickPeriod (follower 1) ∧
      (post (exec (.timeStampExchange 7 0 1001 0 0 true 1) (follower 1))).obj 0x8000 5 0 = 5 ∧
      ((List.range 8).all fun p => !bit (((follower 2).setObj 0x8010 3 7 1).obj 0x8000 4 0) p || !portUp ((follower 2).setObj 0x8010 3 7 1) p) = true ∧
      ok (exec .holdover ((follower 2).setObj 0x8010 3 7 1)) = true := by decide +kernel

/-! ## Words, well-formedness and the step -/

/-- A word from the positions and values of its fields, as the tables of R180 write them. -/
def bitsAt (l : List (Nat × Nat)) : IWord := BitVec.ofNat 64 ((l.map fun p => 2 ^ p.1 * p.2).sum)

/-- An R word by R180: MAJOR, FUNC, GUARD, DST, SA, SB, SC and MOD. -/
def rWord (maj func guard dst sa sb sc mod : Nat) : IWord :=
  bitsAt [(58, maj), (53, guard), (46, dst), (39, sa), (32, sb), (25, sc), (16, func), (0, mod)]

/-- R words, with the codes of R185 to R192, R207 and R208. -/
theorem test_words_r : let f : RFields := ⟨0x15, 1, 2, 3, 4, 0x8005⟩
    (∀ p ∈ [(1, 5, Instr.fmax g0 (.r f)), (3, 2, .hmul2 g0 f), (4, 0xA, .sar g0 (.r f)), (4, 0x10, .bfi g0 f), (6, 3, .cvtu g0 f),
      (7, 1, .isetp g0 f), (8, 3, .rsqrt g0 f), (9, 1, .scSub g0 (.r f)), (0xB, 2, .rdlane g0 f), (0x21, 2, .bar g0 f),
      (0x22, 3, .sndv g0 f)], decodeIWord g0 (rWord p.1 p.2.1 0x15 1 2 3 4 0x8005) = some p.2.2) ∧
    decodeIWord g0 (rWord 0x22 5 0 0 0 0 0 0) = none := by decide +kernel

/-- I words: FUNC in bits 38 to 32, IMM32 in bits 31 to 0 (R180, R187, R191, R205). -/
theorem test_words_i : let f : IFields := ⟨0x15, 1, 2, 0xDEADBEEF⟩
    (∀ p ∈ [(2, 3, Instr.ffma g0 (.i f)), (5, 0xC, .imax g0 (.i f)), (0xA, 0xD, .scFfma g0 (.i f)), (0x19, 7, .dwr g0 ⟨0x15, 1, 2, 7, 0xDEADBEEF⟩)],
      decodeIWord g0 (bitsAt [(58, p.1), (53, 0x15), (46, 1), (39, 2), (32, p.2.1), (0, 0xDEADBEEF)]) = some p.2.2) ∧
    decodeIWord g0 (bitsAt [(58, 2), (32, 1)]) = none := by decide +kernel

/-- M words: MFUNC in bits 38 to 32, the attributes above OFFSET (R180, R194, R199, R201). -/
theorem test_words_m : let a : Attrs := ⟨5, true, false, true, true⟩
    let f (w hi : Nat) : MFields := ⟨0x15, 1, 2, BitVec.ofNat 3 w, BitVec.ofNat 3 hi, a, 0x1FFFFFC⟩
    ∀ p ∈ [(0x10, 0x12, Instr.ldlLoad g0 (f 2 1)), (0x10, 0x0D, .ldlStore g0 (f 5 0)), (0x11, 3, .ldgLoad g0 (f 3 0)),
      (0x11, 0xC, .ldgStore g0 (f 4 0)), (0x13, 6, .xferIn g0 (f 6 0)), (0x13, 0xE, .xferOut g0 (f 6 0)),
      (0x12, 0x4A, .atomXor g0 ⟨0x15, 1, 2, true, a, 0x1FFFFFC⟩), (0x12, 0x20, .acq g0 ⟨0x15, 1, 2, false, a, 0x1FFFFFC⟩)],
    decodeIWord g0 (bitsAt [(58, p.1), (53, 0x15), (46, 1), (39, 2), (32, p.2.1), (29, 5), (28, 1), (26, 1), (25, 1), (0, 0x1FFFFFC)]) =
      some p.2.2 := by decide +kernel

/-- X words: the branch and the matrix layouts (R180, R204, R206). -/
theorem test_words_x : decodeIWord g0 (bitsAt [(58, 0x20), (46, 1), (43, 5), (23, 0xFFFFE), (3, 0x12345)]) =
      some (.split g0 ⟨0, 5, 0xFFFFE, 0x12345, 0⟩) ∧
    decodeIWord g0 (bitsAt [(58, 0x18), (46, 1), (42, 15), (38, 9), (32, 33), (26, 62), (23, 7)]) =
      some (.mmaz g0 ⟨0, 15, 9, 33, 62, 7, 0⟩) ∧
    decodeIWord g0 (bitsAt [(58, 0x18), (46, 7)]) = none := by decide +kernel

theorem wit_EncodingsMeet : let i := Instr.split g0 ⟨0, 5, 0xFFFFE, 0x12345, 0⟩
    encodeIWord i = some (bitsAt [(58, 0x20), (46, 1), (43, 5), (23, 0xFFFFE), (3, 0x12345)]) ∧ instrGroup i = some g0 ∧
      decodeIWord g0 (bitsAt [(58, 0x20), (46, 1), (43, 5), (23, 0xFFFFE), (3, 0x12345)]) = some i := by decide +kernel

theorem wit_FrontCommand : let s := { State.reset with pending := [.perstNHigh, .perstN] }
    s.pending = .perstNHigh :: [.perstN] ∧ (post (step s)).pending = [.perstN] ∧ (post (step s)).host.perst = true ∧
      State.reset.pending = [] := by decide +kernel

theorem test_no_table_word : decodeTableWord 64 0x064100C708030000 = none := rfl

/-- Work that names a code page twice. -/
def twice : SliceWork := ⟨1, 9, [(0, ⟨1⟩), (0, ⟨2⟩)]⟩

/-- An ill-formed command for each check: a core measured twice, a command placed on a core twice, a core in a slice twice, work
that names a code page twice, a start twice, a reduce twice, a thread twice in a message, a packet of no contribution, codewords
on a bundle, a lane twice, a site lost with itself, a slot behind a bank twice, an empty window access, an address between
registers, an access of no registers, a full write as a partial one, a body longer than its message, values past the event
counters, a long image part, a sensor twice, a site aged twice, too many step ends, no step, and a packet of two kinds. -/
theorem test_ill_formed : ∀ i ∈ [
    Instr.tickBoundary [⟨0, 1, 1⟩, ⟨0, 2, 2⟩], .planningCutoff 0 0 [⟨c0, [0, 0], 3⟩], .sliceStart c0 5 [0, 0] oneUnit,
    .sliceStart c0 5 [0] twice, .kernel c0 [⟨0, 0, 1⟩, ⟨0, 1, 1⟩], .copy c0 twice, .collectiveReduce c0 [0, 0], .pin c0 twice,
    .unpin c0 twice, .prefetch c0 twice, .writeBack c0 twice, .discard c0 twice, .scrub c0 5 false twice,
    .atom { bareMsg 0x121 0x128 5 line16 0 0 false false 7 with ops := [⟨0, 0, 3, 0⟩, ⟨0, 4, 3, 0⟩] }, .radd 0x150 { default_red with cnt := 0 },
    .flitReceive (.bundle 0) (aFlit 0) 1 0, .laneTest 0 1 [1, 1], .routerFault 5 [5] 9, .bankFault 0 0 [1, 1], .bar2Read 0 0, .bar2Write 0 0 0 false, .sqcClear 0 2 0,
    .reservedAccess true ⟨0, 0x24, 0, 15⟩ 0, .partialWrite ⟨0, 0x20020, 0, 15⟩, .registerWrite ⟨0, 0x8102, 0, 15⟩,
    .write pf { writeReq 0x2030 2 0 1 0x100 with raw := 17 }, .read pf { writeReq 0x2030 2 0 0 1 with raw := 16 },
    .scrubPassDone 9 twice.errs, .retirePage pf 0 twice.errs, .evcValues pf 32764 8 0, .updateImage pf 0 7921 0,
    .updateImage pf 0 1 256, .sensorSample [(0, 0), (0, 1)], .ageingCheck [(5, 0), (5, 1)],
    .coldStart 1 [] [] (List.replicate 12 0), .warmStart 6 [] (List.replicate 12 0), .warmStart 6 twice.errs [],
    .startStepTimeout 0 (blockOf 1 5) 0, .startStepTimeout 11 (blockOf 1 5) 0, .peerArrival { default_packet with isAtom := true, isRed := true }],
    i.wf = false := by decide +kernel

/-- Well-formed commands at the same places. -/
theorem test_well_formed : ∀ i ∈ [
    Instr.tickBoundary [⟨0, 1, 1⟩, ⟨1, 2, 2⟩], .planningCutoff 0 0 [⟨c0, [0, 1], 3⟩], .sliceStart c0 5 [0, 1] oneUnit,
    .copy c0 oneUnit, .scrub c0 5 false oneUnit, .laneTest 0 1 [1, 2], .routerFault 5 [6] 9,
    .bar2Read 0 1, .registerWrite ⟨0, 0x8104, 0, 15⟩, .write pf (writeReq 0x2030 2 0 1 0xFF), .evcValues pf 32760 8 0,
    .ageingCheck [(5, 0), (6, 1)], .warmStart 6 [(0, ⟨1⟩), (1, ⟨1⟩)] [],
    .startStepTimeout 10 (blockOf 1 5) 0, .perstN], i.wf = true := by decide +kernel

end Sys2Proof.Tests
end

section
/-!
What the operations of the caches, the links and the log leave alone. `Kept s t` says that `t` comes from `s` by such operations:
they write no object but their own counters, withdraw no record that waits for the log, change no clock and no bank map, and leave
each core's command and hardware state. There is one lemma for each operation; the lemmas chain in the order of execution.
-/
namespace Sys2Proof.Machine

/-- The fold of two bits at a time stays below 4 (R252). -/
theorem foldTwo_lt (n f : Nat) : foldTwo n f < 4 := by
  induction n generalizing f with
  | zero => simp [foldTwo]
  | succ n ih => exact Nat.xor_lt_two_pow (n := 2) (Nat.mod_lt _ (by decide)) (ih _)

theorem homeSlice_lt (l : Line) : homeSlice l < 4 := foldTwo_lt _ _

/-- Sending a packet changes the direction that sends it and nothing else. -/
theorem sendNext_eq_setLink {s u : State} {k : Nat} (h : sendNext s k = some u) : ∃ d, u = setLink s k d := by
  unfold sendNext at h
  dsimp only at h
  split at h
  · cases h
  · split at h <;> cases h
    exact ⟨_, rfl⟩

/-! ## The relation -/

/-- The objects in which caches, controllers, pins and the log count: 3071h, 3072h, 3080h, 4020h, 4070h, 5000h and 7040h. -/
def counterObjects : List Nat := [0x3071, 0x3072, 0x3080, 0x4020, 0x4070, 0x5000, 0x7040]

/-- Every object of an index outside `L` reads as before, and no record that waits for its flash write is withdrawn. -/
structure KeptOutside (L : List Nat) (s t : State) : Prop where
  grade : t.grade = s.grade
  obj : ∀ i sub e, i ∉ L → sub < 256 → e < 2 ^ 20 → t.obj i sub e = s.obj i sub e
  log : ∀ r ∈ s.mgmt.logPend, r ∈ t.mgmt.logPend

/-- No object but a counter, no waiting record, no time, no bank map, and no core's command or hardware state is changed. -/
structure Kept (s t : State) : Prop extends KeptOutside counterObjects s t where
  now : t.now = s.now
  bankMap : t.coh.bankMap = s.coh.bankMap
  core : ∀ c, (t.core c).cmd = (s.core c).cmd ∧ (t.core c).hw = (s.core c).hw

namespace KeptOutside

variable {L M : List Nat} {s t u : State}

theorem refl : KeptOutside L s s := ⟨rfl, fun _ _ _ _ _ _ => rfl, fun _ h => h⟩

theorem trans (h : KeptOutside L s t) (k : KeptOutside L t u) : KeptOutside L s u where
  grade := k.grade.trans h.grade
  obj i sub e hi hs he := (k.obj i sub e hi hs he).trans (h.obj i sub e hi hs he)
  log r hr := k.log r (h.log r hr)

theorem mono (hLM : ∀ i ∈ L, i ∈ M) (h : KeptOutside L s t) : KeptOutside M s t :=
  ⟨h.grade, fun i sub e hi => h.obj i sub e fun hl => hi (hLM i hl), h.log⟩

/-- Operations that leave grade, dictionary and waiting records as they are. -/
theorem of_same (hg : t.grade = s.grade) (hd : t.dict = s.dict) (hl : t.mgmt.logPend = s.mgmt.logPend) : KeptOutside L s t :=
  ⟨hg, fun _ _ _ _ _ _ => State.obj_eq_of_dict hd hg _ _ _, fun _ hr => hl ▸ hr⟩

theorem thenSetObj {i sub e v : Nat} (h : KeptOutside L s t) (hi : i ∈ L) (hs : sub < 256) (he : e < 2 ^ 20) :
    KeptOutside L s (t.setObj i sub e v) := by
  refine h.trans ⟨rfl, fun j sub' e' hj hs' he' => ?_, fun _ hr => hr⟩
  rw [State.obj_setObj t v hs hs' he he', if_neg]
  rintro ⟨rfl, -, -⟩
  exact hj hi

theorem thenNet {n : NetState} (h : KeptOutside L s t) : KeptOutside L s { t with net := n } := h.trans (of_same rfl rfl rfl)

theorem thenSage {x : SageState} (h : KeptOutside L s t) : KeptOutside L s { t with sage := x } := h.trans (of_same rfl rfl rfl)

theorem thenCtl {x : CtlState} (h : KeptOutside L s t) : KeptOutside L s { t with ctl := x } := h.trans (of_same rfl rfl rfl)

theorem thenSetCore {c : Nat} {k : Core} (h : KeptOutside L s t) : KeptOutside L s (t.setCore c k) :=
  h.trans (of_same rfl rfl rfl)

theorem ite {p : Prop} [Decidable p] (ht : KeptOutside L s t) (hu : KeptOutside L s u) : KeptOutside L s (if p then t else u) := by
  split <;> assumption

theorem thenFoldl {α : Type} {f : State → α → State} (l : List α) (hf : ∀ s, ∀ x ∈ l, KeptOutside L s (f s x))
    (h : KeptOutside L s t) : KeptOutside L s (l.foldl f t) := by
  induction l generalizing t with
  | nil => exact h
  | cons x l ih => exact ih (fun s y hy => hf s y (List.mem_cons_of_mem _ hy)) (h.trans (hf t x List.mem_cons_self))

end KeptOutside

namespace Kept

variable {s t u : State}

theorem refl : Kept s s := ⟨.refl, rfl, rfl, fun _ => ⟨rfl, rfl⟩⟩

theorem trans (h : Kept s t) (k : Kept t u) : Kept s u where
  toKeptOutside := h.toKeptOutside.trans k.toKeptOutside
  now := k.now.trans h.now
  bankMap := k.bankMap.trans h.bankMap
  core c := ⟨(k.core c).1.trans (h.core c).1, (k.core c).2.trans (h.core c).2⟩

/-- Updates of fields that the relation does not speak of. -/
theorem thenSame (h : Kept s t) (hg : u.grade = t.grade) (hd : u.dict = t.dict) (hl : u.mgmt.logPend = t.mgmt.logPend)
    (hn : u.now = t.now) (hb : u.coh.bankMap = t.coh.bankMap) (hc : u.cores = t.cores) : Kept s u :=
  h.trans ⟨.of_same hg hd hl, hn, hb, fun c => by simp [State.core, hc]⟩

theorem thenCoh {c : CohState} (h : Kept s t) (hb : c.bankMap = t.coh.bankMap) : Kept s { t with coh := c } :=
  h.thenSame rfl rfl rfl rfl hb rfl

theorem thenNet {n : NetState} (h : Kept s t) : Kept s { t with net := n } := h.thenSame rfl rfl rfl rfl rfl rfl

theorem thenSage {x : SageState} (h : Kept s t) : Kept s { t with sage := x } := h.thenSame rfl rfl rfl rfl rfl rfl

theorem thenCtl {x : CtlState} (h : Kept s t) : Kept s { t with ctl := x } := h.thenSame rfl rfl rfl rfl rfl rfl

theorem thenMem {m : MemState} (h : Kept s t) : Kept s { t with mem := m } := h.thenSame rfl rfl rfl rfl rfl rfl

theorem thenSetObj {i sub e v : Nat} (h : Kept s t) (hi : i ∈ counterObjects) (hs : sub < 256) (he : e < 2 ^ 20) :
    Kept s (t.setObj i sub e v) :=
  h.trans ⟨.thenSetObj .refl hi hs he, rfl, rfl, fun _ => ⟨rfl, rfl⟩⟩

theorem thenBump {i sub e n : Nat} (h : Kept s t) (hi : i ∈ counterObjects) (hs : sub < 256) (he : e < 2 ^ 20) :
    Kept s (t.bump i sub e n) := h.thenSetObj hi hs he

/-- A core changes in nothing but what the relation does not speak of. -/
theorem thenSetCore {c : Nat} {k : Core} (h : Kept s t) (hc : k.cmd = (t.core c).cmd) (hw : k.hw = (t.core c).hw) :
    Kept s (t.setCore c k) :=
  h.trans ⟨.of_same rfl rfl rfl, rfl, rfl, fun d => by
    rw [State.core_setCore]
    split
    · rename_i hd; exact hd ▸ ⟨hc, hw⟩
    · exact ⟨rfl, rfl⟩⟩

theorem ite {p : Prop} [Decidable p] (ht : Kept s t) (hu : Kept s u) : Kept s (if p then t else u) := by
  split <;> assumption

theorem thenFoldl {α : Type} {f : State → α → State} (hf : ∀ s x, Kept s (f s x)) (l : List α) (h : Kept s t) :
    Kept s (l.foldl f t) := by
  induction l generalizing t with
  | nil => exact h
  | cons x l ih => exact ih (h.trans (hf t x))

/-! ## The log and interrupts -/

theorem thenLogRecord {r : LogRec} (h : Kept s t) : Kept s (logRecord t r) := by
  have hp : Kept t { t with mgmt := { t.mgmt with logPend := t.mgmt.logPend ++
      [{ r with index := nextIndex (t.obj 0x5000 2 0), time := t.now, tick := t.tick, seqRef := seqRefOf t r }] } } :=
    ⟨⟨rfl, fun _ _ _ _ _ _ => rfl, fun _ hr => List.mem_append_left _ hr⟩, rfl, rfl, fun _ => ⟨rfl, rfl⟩⟩
  have hi := (h.trans hp).thenSetObj (i := 0x5000) (sub := 2) (e := 0) (v := nextIndex (t.obj 0x5000 2 0)) (by decide)
    (by decide) (by decide)
  exact .ite (hi.thenSetObj (by decide) (by decide) (by decide)) hi

theorem thenQueueEvent {fn : Fn} {a b c d : Nat} (h : Kept s t) : Kept s (queueEvent t fn a b c d) :=
  h.thenSame rfl rfl rfl rfl rfl rfl

theorem thenFnRecord {fn : Fn} {r : LogRec} {a b c : Nat} (h : Kept s t) : Kept s (fnRecord t fn r a b c) :=
  (thenLogRecord h).thenQueueEvent

theorem thenHwRecord {r : LogRec} (hr : r.cause < 256) (h : Kept s t) : Kept s (hwRecord t r) :=
  ((thenLogRecord h).thenSetObj (by decide) (by decide) (by decide)).thenSetObj (by decide) (by decide) (by omega)

theorem thenEmit {o : Output} (h : Kept s t) : Kept s (t.emit o) := h.thenSame rfl rfl rfl rfl rfl rfl

theorem thenAer {fn : Fn} {e : String} {a b : Nat} (h : Kept s t) : Kept s (aer t fn e a b) := h.thenEmit

/-! ## Steps -/

theorem thenUpdStep {key : Nat} {f : Step → Step} (h : Kept s t) : Kept s (updStep t key f) :=
  h.thenSame rfl rfl rfl rfl rfl rfl

theorem thenSetPhase {step idx : Nat} {p : CmdPhase} (h : Kept s t) : Kept s (setPhase t step idx p) := h.thenUpdStep

theorem thenSetSlice {r : CmdRef} {ns : Option Nat} (h : Kept s t) : Kept s (setSlice t r ns) := h.thenUpdStep

theorem thenMarkFault {hit : Step → Bool} (h : Kept s t) : Kept s (markFault t hit) := h.thenSame rfl rfl rfl rfl rfl rfl

theorem thenStepFault {key cause cmd : Nat} (h : Kept s t) : Kept s (stepFault t key cause cmd) := by
  unfold stepFault
  split
  · exact h
  · exact h.thenFnRecord.thenUpdStep

/-- A BOUND_VOID record, whose causes are elements' subindexes of 4020h. -/
theorem thenBoundVoid {key cause : Nat} (hc : cause < 256) (h : Kept s t) : Kept s (boundVoid t key cause) := by
  unfold boundVoid
  split
  · exact h
  · exact .ite h (h.thenFnRecord.thenUpdStep.thenBump (by decide) hc (by decide))

/-! ## Links -/

theorem thenSetLink {k : Nat} {d : LinkDir} (h : Kept s t) : Kept s (setLink t k d) := h.thenSame rfl rfl rfl rfl rfl rfl

theorem thenDrainLink {k n : Nat} (h : Kept s t) : Kept s (drainLink k n t) := by
  induction n generalizing t with
  | zero => exact h
  | succ n ih =>
    unfold drainLink
    split
    · split
      · exact h
      · rename_i u hu
        obtain ⟨d, rfl⟩ := sendNext_eq_setLink hu
        exact ih h.thenSetLink
    · exact h

theorem thenCrossLink {k : Nat} {p : LinkPacket} (h : Kept s t) : Kept s (crossLink t k p) := h.thenSetLink.thenDrainLink

theorem thenCrossDies {x y : Nat} {p : LinkPacket} (h : Kept s t) : Kept s (crossDies t x y p) :=
  .ite (h.thenSame rfl rfl rfl rfl rfl rfl) (h.thenFoldl (fun _ _ => refl.thenCrossLink) _)

theorem thenCrossRing {src dst : Nat} {p : LinkPacket} (h : Kept s t) : Kept s (crossRing t src dst p) := h.thenCrossDies

/-! ## Messages -/

theorem thenLaunch {k : MsgKind} {m : Msg} (h : Kept s t) : Kept s (launch t k m) :=
  (h.thenCrossRing (src := m.src) (dst := m.dst) (p := packetOf t k m)).thenSame rfl rfl rfl rfl rfl rfl

theorem thenSendKept {k : MsgKind} {m : Msg} (h : Kept s t) : Kept s (sendKept t k m) :=
  thenLaunch (h.thenSame rfl rfl rfl rfl rfl rfl)

theorem thenPost {k : MsgKind} {m : Msg} (h : Kept s t) : Kept s (post t k m) :=
  .ite (.ite h.thenSendKept (h.thenSame rfl rfl rfl rfl rfl rfl)) h.thenLaunch

theorem thenKeepAsReply {k : MsgKind} {m : Msg} (h : Kept s t) : Kept s (keepAsReply t k m) := by
  unfold keepAsReply
  split
  · exact h
  · exact h.thenSame rfl rfl rfl rfl rfl rfl

theorem thenPostReply {k : MsgKind} {m : Msg} (h : Kept s t) : Kept s (postReply t k m) := h.thenKeepAsReply.thenPost

/-! ## Controllers and memory -/

theorem thenTickStamp (h : Kept s t) : Kept s t.tickStamp := h.thenSame rfl rfl rfl rfl rfl rfl

theorem thenSetCtrl {ch : Nat} {c : Ctrl} (h : Kept s t) : Kept s (setCtrl t ch c) := h.thenSame rfl rfl rfl rfl rfl rfl

theorem thenEnqueue {q : Nat} {o : CtrlOp} (h : Kept s t) : Kept s (enqueue t q o) := h.thenSetCtrl.thenTickStamp

theorem thenCrossCtrl {slice no vc units : Nat} {b : Bool} (h : Kept s t) : Kept s (crossCtrl t slice no b vc units) :=
  h.thenCrossRing

theorem thenCountGrant {ch q : Nat} {g : Bool} (h : Kept s t) : Kept s (countGrant t ch q g) := by
  have hc : chanTier ch < 2 ^ 20 := by unfold chanTier; split <;> decide
  have h0 : Kept s (if q = 0 then t.bump 0x3080 4 (chanTier ch) 1 else t) := .ite (h.thenBump (by decide) (by decide) hc) h
  exact .ite (h0.thenBump (by decide) (by decide) hc) h0

theorem thenPassGrant {ch q : Nat} (h : Kept s t) : Kept s (passGrant t ch q) := h.thenSetCtrl.thenCountGrant

theorem thenPassRead {slice no : Nat} {lat : Bool} (h : Kept s t) : Kept s (passRead t slice no lat) :=
  h.thenPassGrant.thenCrossCtrl.thenCrossCtrl

theorem thenQueueRead {slice no : Nat} {lat : Bool} (h : Kept s t) : Kept s (queueRead t slice no lat) :=
  h.thenEnqueue.thenCrossCtrl

theorem thenQueueWrite {slice no : Nat} {d : LineData} {m : Marks} (h : Kept s t) : Kept s (queueWrite t slice no d m) :=
  h.thenEnqueue.thenCrossCtrl

theorem thenQueueMark {no : Nat} (h : Kept s t) : Kept s (queueMark t no) := h.thenEnqueue.thenCrossCtrl

theorem thenMemRecord {cause no symbols : Nat} (hc : cause < 256) (h : Kept s t) : Kept s (memRecord t cause no symbols) :=
  h.thenHwRecord hc

theorem thenRewritePrimary {no : Nat} {d : LineData} (h : Kept s t) : Kept s (rewritePrimary t no d) :=
  ((ite h h.thenQueueWrite).thenBump (by decide) (by decide) (by decide)).thenMemRecord (by decide)

theorem homeFill_kept {no : Nat} {lat : Bool} (h : Kept s t) : Kept s (homeFill t no lat).2 := by
  unfold homeFill
  dsimp only
  split
  · exact h.thenPassRead
  · split
    · exact h.thenPassRead
    · split
      · exact h.thenPassRead.thenPassRead.thenRewritePrimary
      · exact h.thenPassRead.thenPassRead

theorem thenHomeWrite {no : Nat} {d : LineData} {m : Marks} (h : Kept s t) : Kept s (homeWrite t no d m) := by
  unfold homeWrite
  dsimp only
  split
  · exact h.thenQueueWrite
  · exact h.thenQueueWrite.thenQueueWrite

/-! ## Home and near partitions -/

theorem thenSetHome {l : Line} {x : HomeLine} (h : Kept s t) : Kept s (setHome t l x) := h.thenSame rfl rfl rfl rfl rfl rfl

theorem thenSetNear {sl : Nat} {l : Line} {x : NearLine} (h : Kept s t) : Kept s (setNear t sl l x) :=
  h.thenSame rfl rfl rfl rfl rfl rfl

theorem thenTouchHome {l : Line} (h : Kept s t) : Kept s (touchHome t l) := h.thenSetHome.thenTickStamp

theorem thenCountReq {fn : Fn} {sl kind : Nat} {cls : BitVec 3} (h : Kept s t) : Kept s (countReq t fn sl cls kind) :=
  h.thenSame rfl rfl rfl rfl rfl rfl

theorem thenCountDiscard {fn : Fn} {sl : Nat} {cls : BitVec 3} (h : Kept s t) : Kept s (countDiscard t fn sl cls) :=
  h.thenCountReq.thenBump (by decide) (by decide) (by omega)

theorem thenCountHome {fn : Fn} {cls : BitVec 3} {l : Line} (h : Kept s t) : Kept s (countHome t fn cls l) := h.thenCountReq

theorem thenDropPlace {l : Line} {n : Nat} (h : Kept s t) : Kept s (dropPlace t l n) := by
  unfold dropPlace
  split
  · exact h.thenSetNear.thenCoh (by dsimp only)
  · split
    · exact h
    · exact h.thenSetCore rfl rfl

theorem thenDropPlaces {l : Line} {p : BitVec 292} (h : Kept s t) : Kept s (dropPlaces t l p) :=
  h.thenFoldl (fun _ _ => refl.thenDropPlace) _

theorem thenUnpinCounts {x : HomeLine} (h : Kept s t) : Kept s (unpinCounts t x) :=
  h.thenFoldl (fun _ p => ite
    ((refl.thenSetObj (by decide) (by decide) (by omega)).thenSetObj (by decide) (by decide) (by omega))
    (refl.thenSetObj (by decide) (by decide) (by omega))) _

theorem thenEvictHome {l : Line} (h : Kept s t) : Kept s (evictHome t l) := by
  have hl : homeSlice l < 2 ^ 20 := (homeSlice_lt l).trans (by decide)
  unfold evictHome
  dsimp only
  refine thenSetHome ?_
  have hd := (ite (p := (homeLine t l).st = 3) (h.thenBump (i := 0x3072) (sub := 4) (n := 1) (by decide) (by decide) hl) h).thenBump
    (i := 0x3071) (sub := 3) (n := (places (homeLine t l).presence).length) (by decide) (by decide) hl |>.thenDropPlaces
    (l := l) (p := (homeLine t l).presence)
  have hp := ite (p := (homeLine t l).pins.isEmpty = true) hd
    (hd.thenUnpinCounts (x := homeLine t l) |>.thenFoldl (f := fun s p => s.bump 0x7040 4 p.1 1)
      (fun _ p => refl.thenBump (by decide) (by decide) (by omega)) (homeLine t l).pins)
  exact ite hp (ite hp.thenQueueMark (ite hp.thenHomeWrite hp))

theorem thenMakeRoom {l : Line} {n : Nat} (h : Kept s t) : Kept s (makeRoom l n t) := by
  induction n generalizing t with
  | zero => exact h
  | succ n ih =>
    unfold makeRoom
    dsimp only
    split
    · exact h
    · split
      · exact ih h.thenEvictHome
      · exact h

theorem thenInsertHome {l : Line} {x : HomeLine} (h : Kept s t) : Kept s (insertHome t l x) :=
  h.thenMakeRoom.thenSetHome.thenTickStamp

theorem thenFillHome {l : Line} {lat : Bool} (h : Kept s t) : Kept s (fillHome t l lat) :=
  ite h.thenInsertHome (homeFill_kept h).thenInsertHome

theorem thenEvictNear {sl : Nat} {l : Line} (h : Kept s t) : Kept s (evictNear t sl l) :=
  ite h.thenSetNear.thenPost h.thenSetNear

theorem thenInsertNear {sl : Nat} {l : Line} {x : NearLine} (h : Kept s t) : Kept s (insertNear t sl l x) := by
  refine thenTickStamp (thenSetNear ?_)
  unfold makeNearRoom
  dsimp only
  split
  · exact h
  · split
    · exact h
    · exact h.thenEvictNear

theorem thenHostForward {fn : Fn} {no : Nat} {d : LineData} {mask : ByteMask} {m : Marks} {fin : Bool} (h : Kept s t) :
    Kept s (hostForward t fn no d mask m fin) := by
  have he (r : Bool) := h.thenFoldl (f := fun s x => s.emit (.hostWrite fn (512 * no + x.1) x.2 (lineBytes d x.1 x.2)
    (touched (maskOf x.1 x.2) &&& m != 0) r)) (fun _ _ => refl.thenEmit) (maskRuns mask.toNat 512 0 0)
  exact (he _).thenMem

theorem thenPrepWrite {l : Line} {whole lat : Bool} (h : Kept s t) : Kept s (prepWrite t l whole lat) := by
  have hl : homeSlice l < 2 ^ 20 := (homeSlice_lt l).trans (by decide)
  unfold prepWrite
  dsimp only
  split
  · exact ite h.thenInsertHome h.thenFillHome
  · exact (h.thenBump (by decide) (by decide) hl).thenSetNear.thenSetHome
  · exact (ite h (h.thenBump (by decide) (by decide) hl)).thenDropPlaces.thenSetHome

theorem thenApplyWrite {l : Line} {fn : Fn} {d : LineData} {mask : ByteMask} {m : Marks} {fin : Bool} (h : Kept s t) :
    Kept s (applyWrite t l fn d mask m fin) :=
  ite h.thenSetHome.thenTickStamp.thenHostForward h.thenSetHome.thenTickStamp

theorem thenGiveOwner {l : Line} {sl : Nat} (h : Kept s t) : Kept s (giveOwner t l sl) :=
  h.thenSetHome.thenCrossRing.thenInsertNear

theorem thenApplyHint {l : Line} {hint : Nat} (h : Kept s t) : Kept s (applyHint t l hint) :=
  ite (ite (h.thenBump (by decide) (by decide) (by decide)) (ite h h.thenGiveOwner)) h

theorem deliver_kept {fn : Fn} {cls : BitVec 3} {l : Line} {fresh : Bool} (h : Kept s t) :
    Kept s (deliver t fn cls l fresh).2 := by
  unfold deliver
  dsimp only
  split
  · exact h.thenCountDiscard
  · exact h.thenCountReq

theorem thenCountAtom {l : Line} {fn : Fn} {cls : BitVec 3} {fresh : Bool} (h : Kept s t) :
    Kept s (countAtom t l fn cls fresh) := ite h.thenCountDiscard h.thenCountReq

theorem applyAtom_kept {l : Line} {fn : Fn} {k : AtomKind} {ops : List LaneOp} {fin : Bool} (h : Kept s t) :
    Kept s (applyAtom t l fn k ops fin).2 := ite h.thenSetHome h.thenApplyWrite

/-! ## Requests at the home -/

theorem thenSendLine {k : MsgKind} {m : Msg} {d : LineData} {x : Marks} {disc : Bool} (h : Kept s t) :
    Kept s (sendLine t k m d x disc) := h.thenPostReply

theorem thenAskOwner {k rk : MsgKind} {m : Msg} {x : HomeLine} (h : Kept s t) : Kept s (askOwner t k rk m x) :=
  (h.thenBump (by decide) (by decide) ((homeSlice_lt _).trans (by decide))).thenSetHome.thenTickStamp.thenPost

theorem thenAskCopies {rk : MsgKind} {m : Msg} {x : HomeLine} {ps : List Nat} (h : Kept s t) :
    Kept s (askCopies t rk m x ps) :=
  (h.thenBump (by decide) (by decide) ((homeSlice_lt _).trans (by decide))).thenSetHome.thenFoldl (fun _ _ => refl.thenPost) _

theorem thenAskMemory {rk : MsgKind} {m : Msg} (h : Kept s t) : Kept s (askMemory t rk m) := h.thenSetHome.thenQueueRead

theorem thenAskHost {rk : MsgKind} {m : Msg} (h : Kept s t) : Kept s (askHost t rk m) := h.thenSetHome

theorem thenAnswerRead {m : Msg} {fresh : Bool} (h : Kept s t) : Kept s (answerRead t m fresh) :=
  (deliver_kept h.thenTouchHome).thenSetHome.thenSendLine

theorem thenGrantLine {m : Msg} (h : Kept s t) : Kept s (grantLine t m) := h.thenSendLine.thenSetHome

theorem thenApplyRequest {k : MsgKind} {m : Msg} {fresh : Bool} (h : Kept s t) : Kept s (applyRequest t k m fresh) :=
  ite h.thenApplyWrite.thenApplyHint.thenPostReply (applyAtom_kept h.thenCountAtom).thenPostReply

theorem thenServeRd {m : Msg} (h : Kept s t) : Kept s (serveRd t m) := by
  unfold serveRd
  dsimp only
  split
  · exact ite h.thenAskHost h.thenAskMemory
  · exact h.thenCountReq.thenAskOwner
  · exact h.thenAnswerRead

theorem thenServeRdo {m : Msg} (h : Kept s t) : Kept s (serveRdo t m) := by
  unfold serveRdo
  dsimp only
  split
  · exact h.thenCountHome.thenAskMemory
  · exact h.thenCountHome.thenAskOwner
  · exact ite h.thenCountHome.thenGrantLine h.thenCountHome.thenAskCopies

theorem thenServeUpdate {k : MsgKind} {m : Msg} (h : Kept s t) : Kept s (serveUpdate t k m) := by
  have hc : Kept s (if k = .wr then countHome t m.fn m.tclass m.line else t) := ite h.thenCountHome h
  unfold serveUpdate
  dsimp only
  split
  · exact ite (ite hc.thenHostForward.thenApplyHint.thenPostReply hc.thenAskHost)
      (ite hc.thenPrepWrite.thenApplyRequest hc.thenAskMemory)
  · exact hc.thenAskOwner
  · exact ite hc.thenApplyRequest hc.thenAskCopies

theorem thenCheckResidency {key : Nat} {l : Line} (h : Kept s t) : Kept s (checkResidency t key l) := by
  unfold checkResidency
  split
  · split
    · exact ite (h.thenBoundVoid (by decide)) h
    · exact h
  · exact h

theorem thenCheckCore {m : Msg} (h : Kept s t) : Kept s (checkCore t m) := by
  unfold checkCore
  split
  · exact h
  · split
    · exact h.thenCheckResidency
    · exact h

theorem thenServe {k : MsgKind} {m : Msg} (h : Kept s t) : Kept s (serve t k m) := by
  unfold serve
  dsimp only
  split
  · exact h.thenCheckCore.thenServeRd
  · exact h.thenCheckCore.thenServeRdo
  · exact h.thenCheckCore.thenServeUpdate

theorem thenServeQueue {l : Line} {n : Nat} (h : Kept s t) : Kept s (serveQueue l n t) := by
  induction n generalizing t with
  | zero => exact h
  | succ n ih =>
    unfold serveQueue
    split
    · exact h
    · split
      · exact h
      · exact ih (thenServe (h.thenSame rfl rfl rfl rfl rfl rfl))

theorem thenFinishTxn {x : Txn} {fresh : Bool} (h : Kept s t) : Kept s (finishTxn t x fresh) := by
  unfold finishTxn
  refine thenServeQueue ?_
  split
  · exact h.thenSetHome.thenAnswerRead
  · exact h.thenSetHome
  · exact h.thenSetHome.thenGrantLine
  · exact h.thenSetHome.thenSetHome.thenApplyRequest

/-! ## Failed agents and what becomes of a failed core's command -/

theorem thenDropAgent {a key : Nat} (h : Kept s t) : Kept s (dropAgent a t key) := by
  unfold dropAgent
  dsimp only
  split
  · exact h
  · rename_i x _
    have hs : Kept s { t with free := t.free + 1 } := h.thenSame rfl rfl rfl rfl rfl rfl
    split
    · exact ite (ite hs.thenHomeWrite.thenSetNear hs.thenHomeWrite).thenSetHome.thenFinishTxn
        (ite hs.thenHomeWrite.thenSetNear hs.thenHomeWrite).thenSetHome
    · exact ite h.thenSetHome.thenFinishTxn h.thenSetHome

theorem thenCompleteAgent {a : Nat} (h : Kept s t) : Kept s (completeAgent t a) := by
  unfold completeAgent
  exact Kept.thenFoldl (fun _ _ => refl.thenDropAgent) _ (h.thenSame rfl rfl rfl rfl rfl rfl)

theorem thenCoreLost {core : Nat} {c : CoreCmd} (h : Kept s t) : Kept s (coreLost t core c) := by
  unfold coreLost
  split
  · exact h
  · exact h.thenFnRecord.thenUpdStep

theorem thenEndRerun {core : Nat} {c : CoreCmd} (h : Kept s t) : Kept s (endRerun t core c) :=
  ite h.thenCoreLost h.thenCoreLost.thenSetSlice.thenSetPhase

theorem thenDecideRerun {core : Nat} {c : CoreCmd} (h : Kept s t) : Kept s (decideRerun t core c) := by
  unfold decideRerun
  split
  · exact h.thenEndRerun
  · split
    · exact h
    · rename_i k _
      have hs : Kept s { t with sage := { t.sage with spills := t.sage.spills ++ [⟨[], c.step, c.idx, Fin.ofNat 256 core,
          { k with cmd := k.cmd.map fun x => { x with stopping := c.stopping } }⟩] } } :=
        h.thenSame rfl rfl rfl rfl rfl rfl
      exact (ite hs hs.thenSetSlice).thenMarkFault

/-! ## Take-overs -/

theorem thenTakeoverRecord {cause sev core spares detail : Nat} {b : Block} (hc : cause < 256) (h : Kept s t) :
    Kept s (takeoverRecord t cause sev b core spares detail) :=
  thenHwRecord hc (h.thenSame rfl rfl rfl rfl rfl rfl)

theorem thenBeginTakeover {b : Block} (h : Kept s t) : Kept s (beginTakeover t b) := by
  unfold beginTakeover
  split
  · exact Kept.thenSetObj (h.thenSame rfl rfl rfl rfl rfl rfl) (by decide) (by decide) (by decide)
  · exact h.thenSame rfl rfl rfl rfl rfl rfl

theorem thenEndTakeover {b : Block} (h : Kept s t) : Kept s (endTakeover t b) := by
  have hs : Kept s { t with ctl := { t.ctl with takeover := t.ctl.takeover.filter fun x => x != b } } :=
    h.thenSame rfl rfl rfl rfl rfl rfl
  exact (ite (hs.thenSetObj (by decide) (by decide) (by decide)) hs).thenAer

/-! ## Pins -/

theorem thenPinCounts {x : HomeLine} {add : Bool} (h : Kept s t) : Kept s (pinCounts t x add) :=
  h.thenFoldl (fun _ p => ite
    ((refl.thenSetObj (by decide) (by decide) (by omega)).thenSetObj (by decide) (by decide) (by omega))
    (refl.thenSetObj (by decide) (by decide) (by omega))) _

theorem thenSetPins {l : Line} {x : HomeLine} (h : Kept s t) : Kept s (setPins t l x) := h.thenPinCounts.thenPinCounts.thenSetHome

theorem thenBalanceSet {l : Line} {n : Nat} (h : Kept s t) : Kept s (balanceSet l n t) := by
  induction n generalizing t with
  | zero => exact h
  | succ n ih =>
    unfold balanceSet
    dsimp only
    split
    · split
      · exact h
      · exact ih h.thenSetPins
    · split
      · split
        · exact h
        · exact ih h.thenSetPins
      · exact h

theorem thenRefetch {p : Nat × HomeLine} (h : Kept s t) : Kept s (refetch t p) :=
  h.thenFillHome.thenSetPins.thenBalanceSet

end Kept
end Sys2Proof.Machine
end

section
/-!
Failed cores, routers, banks and agents, and the spares that take over: one lemma for each clause of O43, over what the take-over
of a number, of a router and of a bank changes and what it leaves.
-/
namespace Sys2Proof.Machine
open Sys2Proof.Claims

/-! ## Waiting records -/

/-- A record joins those that wait for their flash write. -/
theorem logRecord_logPend (s : State) (r : LogRec) : (logRecord s r).mgmt.logPend = s.mgmt.logPend ++
    [{ r with index := nextIndex (s.obj 0x5000 2 0), time := s.now, tick := s.tick, seqRef := seqRefOf s r }] := by
  unfold logRecord
  dsimp only
  split <;> rfl

/-- The record of a take-over waits for its flash write. -/
theorem takeoverRecord_hwLogged (s : State) (cause sev core spares detail : Nat) (b : Block) :
    HwLogged (takeoverRecord s cause sev b core spares detail) cause b := by
  simp only [HwLogged, takeoverRecord, hwRecord, State.bump32_mgmt, State.setObj_mgmt, logRecord_logPend]
  exact ⟨_, List.mem_append_right _ (List.mem_singleton.mpr rfl), rfl, rfl, rfl⟩

theorem takeoverRecord_fields (s : State) (cause sev core spares detail : Nat) (b : Block) :
    let t := takeoverRecord s cause sev b core spares detail
    t.cores = s.cores ∧ t.mem = s.mem ∧ t.coh = s.coh ∧ t.net = s.net := by
  simp only [takeoverRecord, hwRecord, State.bump32_cores, State.bump32_mem, State.bump32_coh, State.bump32_net,
    State.setObj_cores, State.setObj_mem, State.setObj_coh, State.setObj_net, logRecord]
  split <;> exact ⟨rfl, rfl, rfl, rfl⟩

theorem takeoverNow_fields (s : State) (cause sev : Nat) (b : Block) (spares : Nat) :
    let t := takeoverNow s cause sev b spares
    t.cores = s.cores ∧ t.mem = s.mem ∧ t.coh = s.coh ∧ t.net = s.net := takeoverRecord_fields ..

/-- A hardware record that waits for its flash write still waits. -/
theorem KeptOutside.hwLogged {L : List Nat} {s t : State} {cause : Nat} {b : Block} (h : KeptOutside L s t)
    (hl : HwLogged s cause b) : HwLogged t cause b := by
  obtain ⟨r, hr, hk⟩ := hl
  exact ⟨r, h.log r hr, hk⟩

/-! ## CORE_FAULT -/

/-- The state in which the site of a failed core is fenced, before the homes complete what names it (R521). -/
def fenceSite (s : State) (core psn : Nat) : State :=
  let s := (s.setCore core { Core.idle with hw := { Core.idle.hw with fenced := true } }).setObj 0x4010 2 psn 3
  { s with net := { s.net with fenced := s.net.fenced ++ [psn] } }

theorem fenceSite_core (s : State) (core psn : Nat) :
    (fenceSite s core psn).core core = { Core.idle with hw := { Core.idle.hw with fenced := true } } := by
  simp [fenceSite, State.core, State.setCore]

theorem fenceSite_obj (s : State) (core psn : Nat) : (fenceSite s core psn).obj 0x4010 2 psn = 3 :=
  State.obj_setObj_same (s.setCore core { Core.idle with hw := { Core.idle.hw with fenced := true } }) 0x4010 2 psn 3

theorem failSite_kept (s : State) (core psn : Nat) : Kept (fenceSite s core psn) (failSite s core psn) := by
  have h : Kept (fenceSite s core psn) (completeAgent (fenceSite s core psn) psn) := Kept.refl.thenCompleteAgent
  unfold failSite
  dsimp only
  split
  · exact h
  · exact h.thenDecideRerun

theorem failCore_kept {s : State} {core cause : Nat} (hc : cause < 256) :
    Kept (fenceSite s core (siteOfCore s core)) (failCore s core cause) :=
  ((failSite_kept s core _).thenTakeoverRecord hc).thenBeginTakeover

theorem failCore_hwLogged (s : State) (core cause : Nat) :
    HwLogged (failCore s core cause) cause (blockOf 1 (siteOfCore s core)) :=
  Kept.refl.thenBeginTakeover.hwLogged (takeoverRecord_hwLogged ..)

/-- CORE_FAULT fences a serving core, fails its site and writes a record of cause 50h (R521, R525). -/
theorem coreFault_fences {s : State} {c : CoreNo} {ns : Nat} (hn : s.now ≤ ns) (hl : coreLive s c.val = true)
    (hp : siteOfCore s c.val < 288) : ∃ t, exec (.coreFault c ns) s = .next t ∧ (t.core c.val).hw.fenced = true ∧
      (t.core c.val).cmd = none ∧ t.obj 0x4010 2 (siteOfCore s c.val) = 3 ∧
      HwLogged t 0x50 (blockOf 1 (siteOfCore s c.val)) ∧ t.now = ns := by
  have hk : Kept (fenceSite (s.at ns) c.val (siteOfCore s c.val)) (failCore (s.at ns) c.val 0x50) := failCore_kept (by decide)
  refine ⟨_, guarded_true _ (by simp [notBefore, hn, hl]), ?_, ?_, ?_, failCore_hwLogged .., hk.now⟩
  · rw [(hk.core _).2, fenceSite_core]
  · rw [(hk.core _).1, fenceSite_core, Core.idle]
  · rw [hk.obj _ _ _ (by decide) (by decide) (by omega), fenceSite_obj]

/-! ## Spares take numbers over -/

theorem mem_freeSpares {s : State} {die p : Nat} (h : p ∈ freeSpares s die) : p < 36 * die + 36 ∧ s.obj 0x4010 2 p = 1 := by
  simp only [freeSpares, List.mem_filter, List.mem_map, List.mem_range, decide_eq_true_eq] at h
  obtain ⟨⟨i, hi, rfl⟩, h1⟩ := h
  exact ⟨by omega, h1⟩

theorem mem_freeSpares_of_chooseSpare {s : State} {die p : Nat} (h : chooseSpare s die = some p) : p ∈ freeSpares s die := by
  unfold chooseSpare at h
  split at h
  · cases h
    exact List.mem_of_find?_eq_some ‹_›
  · exact List.mem_of_head? h


theorem State.core_congr {s t : State} (h : t.cores = s.cores) (c : Nat) : t.core c = s.core c := by rw [State.core, h, State.core]

theorem State.obj_withNetCtl (s : State) (n : NetState) (c : CtlState) (i sub e : Nat) :
    State.obj { s with net := n, ctl := c } i sub e = s.obj i sub e := rfl

theorem State.obj_withNet (s : State) (n : NetState) (i sub e : Nat) : State.obj { s with net := n } i sub e = s.obj i sub e :=
  rfl

theorem State.obj_withCtl (s : State) (c : CtlState) (i sub e : Nat) : State.obj { s with ctl := c } i sub e = s.obj i sub e :=
  rfl


section
variable {s : State} {core psn : Nat} (hc : core < 256) (hp : psn < 288)
include hc hp

/-- Apart from the site map, a site that takes a number changes the spare counts (1010h, 4070h), the clock objects (9020h) and the
rate flags (4030h). -/
theorem assignSite_keptOutside : KeptOutside [0x1010, 0x4030, 0x4070, 0x9020]
    ((s.setObj 0x4010 1 core psn).setObj 0x4010 2 psn 0) (assignSite s core psn) :=
  KeptOutside.refl
    |>.thenSetObj (i := 0x4070) (by decide) (by decide) (by omega) |>.thenSetObj (i := 0x1010) (by decide) (by decide) (by omega)
    |>.thenSetObj (i := 0x9020) (by decide) (by decide) (by omega) |>.thenSetObj (i := 0x9020) (by decide) (by decide) (by omega)
    |>.thenSetObj (i := 0x4030) (by decide) (by decide) (by omega) |>.thenSetObj (i := 0x4030) (by decide) (by decide) (by omega)
    |>.thenSetCore |>.thenCtl

theorem assignSite_siteOfCore : siteOfCore (assignSite s core psn) core = psn := by
  rw [siteOfCore, (assignSite_keptOutside hc hp).obj _ _ _ (by decide) (by decide) (by omega),
    State.obj_setObj _ _ (by decide) (by decide) (by omega) (by omega), if_neg (by omega), State.obj_setObj_same]

theorem assignSite_siteState {q : Nat} (hq : q < 288) :
    (assignSite s core psn).obj 0x4010 2 q = if q = psn then 0 else s.obj 0x4010 2 q := by
  rw [(assignSite_keptOutside hc hp).obj _ _ _ (by decide) (by decide) (by omega),
    State.obj_setObj _ _ (by decide) (by decide) (by omega) (by omega),
    State.obj_setObj _ _ (by decide) (by decide) (by omega) (by omega)]
  simp

end

theorem assignSite_aged (s : State) (core psn : Nat) : (assignSite s core psn).obj 0x4030 3 core = 0 := by
  rw [assignSite, State.obj_withCtl, State.obj_setCore, State.obj_setObj_same]

theorem assignSite_core (s : State) (core psn : Nat) : (assignSite s core psn).core core = Core.idle := by
  simp [assignSite, State.core, State.setCore]

/-- A site that rejoins changes no core, no site map and no take-over. -/
theorem rejoinSite_keeps {s : State} {psn : Nat} (hp : psn < 288) : (rejoinSite s psn).cores = s.cores ∧
    (rejoinSite s psn).ctl.takeover = s.ctl.takeover ∧ (∀ c < 256, siteOfCore (rejoinSite s psn) c = siteOfCore s c) ∧
    (rejoinSite s psn).obj 0x4000 1 0 = s.obj 0x4000 1 0 := by
  unfold rejoinSite
  split
  · refine ⟨rfl, rfl, fun c hc => ?_, ?_⟩
    all_goals
      simp (disch := omega) only [siteOfCore, State.obj_withNetCtl, State.obj_setObj]
      simp
  · exact ⟨rfl, rfl, fun _ _ => rfl, rfl⟩

/-- The end of a take-over changes no core, no cache and no link and takes the block off the list. -/
theorem endTakeover_keeps (s : State) (b : Block) : (endTakeover s b).cores = s.cores ∧ (endTakeover s b).coh = s.coh ∧
    (endTakeover s b).net = s.net ∧ b ∉ (endTakeover s b).ctl.takeover := by
  have hb : b ∉ s.ctl.takeover.filter fun x => x != b := by simp
  unfold endTakeover
  dsimp only
  split <;> exact ⟨rfl, rfl, rfl, hb⟩

/-- What SPARE_TAKEOVER does after the number has moved: the take-over ends and the old site may rejoin. -/
theorem rejoin_endTakeover_keeps {s : State} {c psn : Nat} (b : Block) (hc : c < 256) (hp : psn < 288) :
    siteOfCore (rejoinSite (endTakeover s b) psn) c = siteOfCore s c ∧
    (rejoinSite (endTakeover s b) psn).core c = s.core c ∧ b ∉ (rejoinSite (endTakeover s b) psn).ctl.takeover ∧
    (rejoinSite (endTakeover s b) psn).obj 0x4000 1 0 = s.obj 0x4000 1 0 := by
  have hk : Kept s (endTakeover s b) := Kept.refl.thenEndTakeover
  obtain ⟨hec, -, -, het⟩ := endTakeover_keeps s b
  obtain ⟨hrc, hrt, hrs, hrf⟩ := rejoinSite_keeps (s := endTakeover s b) hp
  exact ⟨(hrs c hc).trans (hk.obj _ _ _ (by decide) (by decide) (by omega)), State.core_congr (hrc.trans hec) c, hrt ▸ het,
    hrf.trans (hk.obj _ _ _ (by decide) (by decide) (by decide))⟩

/-- A spare takes a number; one of a ceiling below 2,700 MHz flags the module (R30). -/
def spareTakes (s : State) (core p : Nat) : State :=
  if siteCeiling (assignSite s core p) p < 2700 then flagReplace (assignSite s core p) 0 else assignSite s core p

theorem spareTakes_keeps (s : State) {core p : Nat} (hc : core < 256) (hp : p < 288) :
    siteOfCore (spareTakes s core p) core = p ∧ (spareTakes s core p).core core = Core.idle := by
  have hs := assignSite_siteOfCore (s := s) hc hp
  have hi := assignSite_core s core p
  unfold spareTakes
  split
  · refine ⟨Eq.trans ?_ hs, (State.core_congr (flagReplace_cores ..) core).trans hi⟩
    simp (disch := omega) only [flagReplace, siteOfCore, State.obj_setObj]
    simp
  · exact ⟨hs, hi⟩

/-- With no free spare the number is out of service and the module is flagged (R30). -/
theorem numberOut_keeps (s : State) {core : Nat} (hc : core < 256) :
    siteOfCore (numberOut s core) core = 0xFFFF ∧ (numberOut s core).obj 0x4000 1 0 = 1 := by
  constructor <;>
  · simp (disch := omega) only [numberOut, flagReplace, siteOfCore, State.obj_withCtl, State.obj_setObj]
    simp

section
variable {s : State} {c : CoreNo} (hs : inService s c.val = true) (hf : (s.core c.val).hw.fenced = true)
  (hp : siteOfCore s c.val < 288) (hb : blockOf 1 (siteOfCore s c.val) ∈ s.ctl.takeover) (hn : s.now = s.tickStart)
  (hd : siteDue s (siteOfCore s c.val) = true)
include hs hf hp hb hn hd

/-- SPARE_TAKEOVER gives the number of a fenced core to the chosen free spare (R30, R521). -/
theorem spareTakeover_assigns {p : Nat} (hch : chooseSpare s (siteOfCore s c.val / 36) = some p) :
    ∃ t, exec (.spareTakeover c) s = .next t ∧ siteOfCore t c.val = p ∧ t.core c.val = Core.idle ∧
      blockOf 1 (siteOfCore s c.val) ∉ t.ctl.takeover := by
  have hp' : p < 288 := by
    have := (mem_freeSpares (mem_freeSpares_of_chooseSpare hch)).1
    omega
  obtain ⟨has, hai⟩ := spareTakes_keeps s c.isLt hp'
  obtain ⟨hts, htc, htt, -⟩ := rejoin_endTakeover_keeps (s := spareTakes s c.val p) (blockOf 1 (siteOfCore s c.val)) c.isLt hp
  refine ⟨_, ?_, hts.trans has, htc.trans hai, htt⟩
  show execSpareTakeover c s = _
  simp only [execSpareTakeover, hch]
  exact guarded_true _ (by simp [hs, hf, takesOver, hb, hn, hd])

/-- SPARE_TAKEOVER of a die without a free spare takes the number out of service (R30). -/
theorem spareTakeover_outOfService (hch : chooseSpare s (siteOfCore s c.val / 36) = none) :
    ∃ t, exec (.spareTakeover c) s = .next t ∧ inService t c.val = false ∧ t.obj 0x4000 1 0 = 1 := by
  obtain ⟨hos, hof⟩ := numberOut_keeps s c.isLt
  obtain ⟨hts, -, -, htf⟩ := rejoin_endTakeover_keeps (s := numberOut s c.val) (blockOf 1 (siteOfCore s c.val)) c.isLt hp
  refine ⟨_, ?_, ?_, htf.trans hof⟩
  · show execSpareTakeover c s = _
    simp only [execSpareTakeover, hch]
    exact guarded_true _ (by simp [hs, hf, takesOver, hb, hn, hd])
  · have h : State.obj _ 0x4010 1 c.val = 0xFFFF := hts.trans hos
    simp only [inService, h]
    simp

end

/-- CORE_SWAP gives the number of a slow or aged idle core to a free spare of 2,700 MHz and retires the old site (R30, R67,
R484). -/
theorem coreSwap_swaps {s : State} {c : CoreNo} {p : Nat} (hl : coreLive s c.val = true) (hcmd : (s.core c.val).cmd = none)
    (hn : s.now = s.tickStart) (hp : siteOfCore s c.val < 288) (hst : s.obj 0x4010 2 (siteOfCore s c.val) ≠ 1)
    (hslow : s.obj 0x4030 3 c.val = 1 ∨ siteCeiling s (siteOfCore s c.val) < 2700)
    (hf : ((freeSpares s (siteOfCore s c.val / 36)).find? fun p => decide (2700 ≤ siteCeiling s p)) = some p) :
    ∃ t, exec (.coreSwap c) s = .next t ∧ siteOfCore t c.val = p ∧ t.core c.val = Core.idle ∧
      t.obj 0x4010 2 (siteOfCore s c.val) = 3 ∧ t.obj 0x4010 2 p = 0 ∧ t.obj 0x4030 3 c.val = 0 := by
  obtain ⟨hpd, hp1⟩ := mem_freeSpares (List.mem_of_find?_eq_some hf)
  have hp' : p < 288 := by omega
  have hne : siteOfCore s c.val ≠ p := fun h => hst (h ▸ hp1)
  let r := s.setObj 0x4010 2 (siteOfCore s c.val) 3
  let a := assignSite (completeAgent r (siteOfCore s c.val)) c.val p
  let b := takeoverRecord a 0x5F 1 (blockOf 1 (siteOfCore s c.val)) c.val (a.obj 0x4070 3 (dieOfCore a c.val)) 0
  have hr : Kept r (completeAgent r (siteOfCore s c.val)) := Kept.refl.thenCompleteAgent
  have hb : Kept a (aer b 0 "Corrected Internal Error" 0 (newestRecord b)) :=
    (Kept.refl.thenTakeoverRecord (by decide)).thenAer
  refine ⟨aer b 0 "Corrected Internal Error" 0 (newestRecord b), ?_, ?_, ?_, ?_, ?_, ?_⟩
  · show execCoreSwap c s = _
    simp only [execCoreSwap, hf]
    exact guarded_true _ (by simp [hl, hcmd, hn, hslow])
  · exact (hb.obj _ _ _ (by decide) (by decide) (by omega)).trans (assignSite_siteOfCore c.isLt hp')
  · exact (State.core_congr ((aer_cores ..).trans (takeoverRecord_fields ..).1) _).trans (assignSite_core ..)
  · rw [hb.obj _ _ _ (by decide) (by decide) (by omega), assignSite_siteState c.isLt hp' hp, if_neg hne,
      hr.obj _ _ _ (by decide) (by decide) (by omega)]
    exact State.obj_setObj_same ..
  · rw [hb.obj _ _ _ (by decide) (by decide) (by omega), assignSite_siteState c.isLt hp' hp', if_pos rfl]
  · rw [hb.obj _ _ _ (by decide) (by decide) (by omega), assignSite_aged]

/-- TAKEOVER_QUEUED starts the first take-over that waits once none runs (R520). -/
theorem takeoverQueued_starts {s : State} {b : Block} {rest : List Block} (ht : s.ctl.takeover = [])
    (hw : s.ctl.waiting = b :: rest) : ∃ t, exec (.takeoverQueued b) s = .next t ∧ t.ctl.takeover = [b] ∧
      t.ctl.waiting = rest ∧ t.obj 0x4070 4 0 = 1 :=
  ⟨_, guarded_true _ (by simp [ht, hw]), rfl, by simp [hw], State.obj_setObj_same ..⟩

/-! ## ROUTER_FAULT -/

/-- The objects in which what hangs on a router is taken out of service: the spares of the module (1010h), its replacement flag
(4000h) and the site states (4010h), besides the counters. -/
def routerObjects : List Nat := [0x1010, 0x4000, 0x4010] ++ counterObjects

namespace KeptOutside

variable {L : List Nat} {s t : State}

theorem thenKept {u : State} (h : KeptOutside routerObjects s t) (k : Kept t u) : KeptOutside routerObjects s u :=
  h.trans (k.toKeptOutside.mono fun _ => List.mem_append_right _)

theorem thenFlagReplace {reason : Nat} (h : KeptOutside routerObjects s t) : KeptOutside routerObjects s (flagReplace t reason) :=
  (h.thenSetObj (by decide) (by decide) (by decide)).thenSetObj (by decide) (by decide) (by decide)

theorem thenLoseElevator {e : Nat} (he : e < 64) (h : KeptOutside routerObjects s t) :
    KeptOutside routerObjects s (loseElevator t e) := (h.thenSetObj (by decide) (by decide) (by omega)).thenFlagReplace

theorem thenFailSite {core psn : Nat} (hp : psn < 288) (h : KeptOutside routerObjects s t) :
    KeptOutside routerObjects s (failSite t core psn) :=
  thenKept (h.thenSetCore.thenSetObj (by decide) (by decide) (by omega)).thenNet (failSite_kept t core psn)

theorem thenRetireSite {psn : Nat} (hp : psn < 288) (h : KeptOutside routerObjects s t) :
    KeptOutside routerObjects s (retireSite t psn) := by
  unfold retireSite
  split
  · exact ite ((h.thenFailSite hp).thenKept Kept.refl.thenBeginTakeover) h
  · exact ite (((h.thenSetObj (by decide) (by decide) (by omega)).thenSetObj (by decide) (by decide) (by decide)).thenSetObj
      (by decide) (by decide) (by omega)) (h.thenSetObj (by decide) (by decide) (by omega))

theorem thenSettleCore {c : Nat} (h : KeptOutside L s t) : KeptOutside L s (settleCore t c) := by
  unfold settleCore
  dsimp only
  split
  · exact h
  · exact ite (ite h.thenSetCore h.thenSetCore.thenSage) h

theorem thenEndStep {key ref : Nat} {st : StepStatus} (h : KeptOutside L s t) : KeptOutside L s (endStep t key st ref) :=
  thenFoldl _ (fun _ _ _ => refl.thenSetCore.thenSettleCore) (h.trans (of_same rfl rfl rfl))

theorem thenServiceEnds {cause reason : Nat} (h : KeptOutside routerObjects s t) :
    KeptOutside routerObjects s (serviceEnds t cause reason) :=
  ((thenFoldl _ (fun _ _ _ => refl.thenEndStep) (h.thenKept Kept.refl.thenLogRecord.thenQueueEvent)).thenNet.thenFlagReplace).thenKept
    Kept.refl.thenAer

end KeptOutside

theorem loseUnit_kept (s : State) (u : Nat) : Kept s (loseUnit s u) :=
  Kept.thenFoldl (fun _ _ => Kept.refl.thenNet.thenStepFault.thenSetPhase) _ Kept.refl.thenNet

theorem attached_lt {psn e : Nat} (hp : psn < 288) (he : e ∈ attached psn) : e < 64 := by
  unfold attached at he
  dsimp only at he
  split at he
  · rw [List.mem_singleton] at he
    subst he
    split <;> omega
  · cases he

theorem avoidRouters_obj (s : State) (die : Nat) (bad : List Nat) (i sub e : Nat) :
    (avoidRouters s die bad).obj i sub e = s.obj i sub e := by
  rw [avoidRouters, State.obj_withNet]

/-- A router is marked failed and its die's tables avoid it (R359). -/
def routerMarked (s : State) (psn : Nat) : State :=
  let s := (dropThrough (dieFault s (psn / 36)) psn).setObj 0x4060 4 psn 1
  avoidRouters s (psn / 36) (failedRouters s (psn / 36))

/-- The record of a failed router's take-over (R525). -/
def routerLogged (psn : Nat) (s : State) : State :=
  takeoverRecord s 0x51 (if s.obj 0x4070 3 (psn / 36) = 0 then 3 else 2) (blockOf 2 psn) ((coreOfSite s psn).getD 0xFFFF)
    (s.obj 0x4070 3 (psn / 36) - 1) 0

theorem routerLogged_kept (psn : Nat) (s : State) : Kept s (routerLogged psn s) := Kept.refl.thenTakeoverRecord (by decide)

/-- What hangs on a failed router is taken out of service (R359, R360). -/
def routerOut (psn : Psn) (also : List Psn) (s : State) : State :=
  let s := (psn :: also).foldl (fun s p => retireSite s p.val) s
  let s := loseUnit ((attached psn.val).foldl loseElevator s) (0x150 + psn.val)
  let s := { s with net := { s.net with reported := s.net.reported.filter fun x => x ≠ psn.val } }
  if usableElevators s (psn.val / 36) = 0 ∧ (attached psn.val).isEmpty = false then serviceEnds s 0x2D 7 else s

theorem routerMarked_obj (s : State) (psn : Nat) : (routerMarked s psn).obj 0x4060 4 psn = 1 := by
  simp only [routerMarked, avoidRouters_obj, State.obj_setObj_same]

theorem routerOut_keptOutside (psn : Psn) (also : List Psn) (s : State) : KeptOutside routerObjects s (routerOut psn also s) := by
  have hs : KeptOutside routerObjects s ((psn :: also).foldl (fun s p => retireSite s p.val) s) :=
    KeptOutside.refl.thenFoldl _ fun _ p _ => .thenRetireSite p.isLt .refl
  have he := (hs.thenFoldl (attached psn.val) fun s _ hm => KeptOutside.thenLoseElevator (attached_lt psn.isLt hm) .refl).thenKept
    (loseUnit_kept _ (0x150 + psn.val))
  unfold routerOut
  exact .ite he.thenNet.thenServiceEnds he.thenNet

theorem execRouterFault_eq (psn : Psn) (also : List Psn) (ns : Nat) (s : State) : execRouterFault psn also ns s =
    guarded (notBefore s ns && decide (s.obj 0x4060 4 psn.val = 0)) (routerOut psn also (routerLogged psn.val
      (routerMarked (s.at ns) psn.val))) := by
  unfold execRouterFault routerOut routerLogged routerMarked
  rfl

/-- ROUTER_FAULT marks the router failed and writes a record of cause 51h (R359, R525). -/
theorem routerFault_marks {s : State} {psn : Psn} (also : List Psn) {ns : Nat} (hn : s.now ≤ ns)
    (hs : s.obj 0x4060 4 psn.val = 0) : ∃ t, exec (.routerFault psn also ns) s = .next t ∧ t.obj 0x4060 4 psn.val = 1 ∧
      HwLogged t 0x51 (blockOf 2 psn.val) := by
  have hr := routerLogged_kept psn.val (routerMarked (s.at ns) psn.val)
  have ht := routerOut_keptOutside psn also (routerLogged psn.val (routerMarked (s.at ns) psn.val))
  refine ⟨_, (execRouterFault_eq psn also ns s).trans (guarded_true _ (by simp [notBefore, hn, hs])), ?_,
    ht.hwLogged (takeoverRecord_hwLogged ..)⟩
  rw [ht.obj _ _ _ (by decide) (by decide) (by omega), hr.obj _ _ _ (by decide) (by decide) (by omega), routerMarked_obj]

/-! ## Cache banks and agents -/

theorem mapNumbers_numberBank {sl b n : Nat} {ns : List Nat} (s : State) (h : n ∈ ns ∨ numberBank s sl n = b) :
    numberBank (mapNumbers s sl b ns) sl n = b := by
  induction ns generalizing s with
  | nil => simpa [mapNumbers] using h
  | cons m ns ih =>
    refine ih _ ?_
    by_cases hm : n = m
    · right
      simp [numberBank, hm]
    · simpa [numberBank, hm, sget_sset] using h

theorem numberBank_congr {s t : State} (h : t.coh.bankMap = s.coh.bankMap) (sl n : Nat) :
    numberBank t sl n = numberBank s sl n := by rw [numberBank, h, numberBank]

/-- The numbers of a failed bank pass to the bank that takes them over (R227). -/
theorem moveBank_numberBank {s : State} {sl b dst n : Nat} {un : List Nat} (hn : n < 16) (hb : numberBank s sl n = b) :
    numberBank (moveBank s sl b dst un) sl n = dst := by
  have hm : n ∈ bankNumbers s sl b := by simp [bankNumbers, hn, hb]
  unfold moveBank
  dsimp only
  exact (numberBank_congr (Kept.refl.thenFoldl (fun _ _ => Kept.refl.thenRefetch) _).bankMap sl n).trans
    (mapNumbers_numberBank _ (.inl hm))

theorem bankState_markFault (s : State) (hit : Step → Bool) (sl b : Nat) : bankState (markFault s hit) sl b = bankState s sl b :=
  rfl

/-- An unused spare bank that fails is retired; no line and no byte changes (R227). -/
theorem bankFault_retiresSpare {s : State} {sl : Fin 4} {b : Fin 17} (un : List Nat) (hbusy : bankBusy s sl.val b.val = false)
    (hlost : s.net.lost = false) (hb : bankState s sl.val b.val = 1) : ∃ t, exec (.bankFault sl b un) s = .next t ∧
      bankState t sl.val b.val = 2 ∧ t.mem = s.mem ∧ t.coh = s.coh := by
  let r := setBank s sl.val b.val 2
  have ht : Kept r (takeoverNow r 0x53 1 (blockOf 7 (17 * sl.val + b.val)) 0) :=
    (Kept.refl.thenTakeoverRecord (by decide)).thenAer
  obtain ⟨-, hm, hc, -⟩ := takeoverNow_fields r 0x53 1 (blockOf 7 (17 * sl.val + b.val)) 0
  refine ⟨takeoverNow r 0x53 1 (blockOf 7 (17 * sl.val + b.val)) 0, ?_, ?_, hm, hc⟩
  · show execBankFault sl b un s = _
    simp only [execBankFault, hb, one_ne_zero, if_true, if_false]
    exact guarded_true _ (by simp [hbusy, hlost])
  · exact (ht.obj _ _ _ (by decide) (by decide) (by omega)).trans (State.obj_setObj_same ..)

/-- A bank in use that fails passes its numbers to the unused spare (R227, R524). -/
theorem bankFault_passesNumbers {s : State} {sl : Fin 4} {b : Fin 17} (un : List Nat) (hbusy : bankBusy s sl.val b.val = false)
    (hlost : s.net.lost = false) (hb : bankState s sl.val b.val = 0) (hsp : bankState s sl.val 16 = 1) :
    ∃ t, exec (.bankFault sl b un) s = .next t ∧ bankState t sl.val b.val = 2 ∧ bankState t sl.val 16 = 0 ∧
      ∀ n < 16, numberBank s sl.val n = b.val → numberBank t sl.val n = 16 := by
  have hne : b.val ≠ 16 := fun h => by rw [h, hsp] at hb; cases hb
  let m := moveBank (markFault s fun _ => true) sl.val b.val 16 un
  let r := setBank (setBank m sl.val b.val 2) sl.val 16 0
  let blk := blockOf 7 (17 * sl.val + b.val)
  have ht : Kept r (beginTakeover (takeoverRecord r 0x53 1 blk 0xFFFF 0 0) blk) :=
    (Kept.refl.thenTakeoverRecord (by decide)).thenBeginTakeover
  refine ⟨beginTakeover (takeoverRecord r 0x53 1 blk 0xFFFF 0 0) blk, ?_, ?_, ?_, fun n hn h => ?_⟩
  · show execBankFault sl b un s = _
    simp only [execBankFault, hb, hsp, if_true, bankState_markFault, zero_ne_one, if_false]
    exact guarded_true _ (by simp [hbusy, hlost])
  · refine (ht.obj _ _ _ (by decide) (by decide) (by omega)).trans ?_
    exact (State.obj_setObj _ _ (by decide) (by decide) (by omega) (by omega)).trans
      ((if_neg (by omega)).trans (State.obj_setObj_same ..))
  · refine (ht.obj _ _ _ (by decide) (by decide) (by omega)).trans ?_
    exact State.obj_setObj_same ..
  · exact (numberBank_congr ht.bankMap _ n).trans (moveBank_numberBank hn h)

/-- BANK_SPARE_READY ends the take-over of the bank (R524, R530). -/
theorem bankSpareReady_ends {s : State} {sl : Fin 4} {b : Block}
    (h : (s.ctl.takeover.find? fun b => decide (b.kind = 7) && decide (b.no.toNat / 17 = sl.val)) = some b) :
    ∃ t, exec (.bankSpareReady sl) s = .next t ∧ b ∉ t.ctl.takeover ∧ t.coh = s.coh := by
  obtain ⟨-, hc, -, ht⟩ := endTakeover_keeps s b
  refine ⟨endTakeover s b, ?_, ht, hc⟩
  show execBankSpareReady sl s = _
  simp only [execBankSpareReady, h]

/-- AGENT_FENCED of an agent that transactions wait for completes (R272). -/
theorem agentFenced_completes {s : State} {a : Nat} (hw : waitsFor s a = true)
    (ha : a ∈ s.net.fenced ∨ (portOf a).isSome = true) : ∃ t, exec (.agentFenced a) s = .next t :=
  ⟨_, guarded_true _ (by simp [hw, ha])⟩

/-- Settles O43, clause by clause: what completes the transactions of a failed agent leaves the objects of the clauses alone. -/
theorem failOverAndSpares : Obligations.FailOverAndSpares := by
  unfold Obligations.FailOverAndSpares
  refine fun s => ⟨fun c ns hn hl hp => coreFault_fences hn hl hp, fun c hs hf hp hb hn hd =>
      ⟨fun p hc => spareTakeover_assigns hs hf hp hb hn hd hc, fun hc => spareTakeover_outOfService hs hf hp hb hn hd hc⟩,
    fun c p hl hc hn hp hst hslow hf => coreSwap_swaps hl hc hn hp hst hslow hf,
    fun b rest ht hw => takeoverQueued_starts ht hw, fun psn also ns hn hs => routerFault_marks also hn hs,
    fun sl b un hbusy hlost => ⟨fun hb => ⟨_, guarded_true _ (by simp [hbusy, hlost, hb])⟩,
      fun hb => bankFault_retiresSpare un hbusy hlost hb, fun hb hsp => bankFault_passesNumbers un hbusy hlost hb hsp⟩,
    fun sl b h => bankSpareReady_ends h, fun a hw ha => agentFenced_completes hw ha⟩

end Sys2Proof.Machine
end

section
/-!
Retired bundles (R355): where the slot table of a direction names bundles of that direction, a bundle that lacks spares is retired as
O42 says; O42 itself speaks of every state, and fails in one whose slot table names a direction that no module has.
-/
namespace Sys2Proof.Machine

/-! ## What a retirement leaves alone -/

/-- The objects in which a retirement counts and reports: the resends (3090h), the replacement flag (4000h), and those of the log. -/
def retireObjects : List Nat := [0x3090, 0x4000] ++ counterObjects

/-- What links send may differ, with reports and resend counters; slot table and lane flags are as before. -/
structure LinksKept (s t : State) : Prop extends KeptOutside retireObjects s t where
  slots : t.net.slotTable = s.net.slotTable
  flags : t.net.laneFlags = s.net.laneFlags

namespace LinksKept

variable {s t u : State}

theorem refl : LinksKept s s := ⟨.refl, rfl, rfl⟩

theorem trans (h : LinksKept s t) (k : LinksKept t u) : LinksKept s u :=
  ⟨h.toKeptOutside.trans k.toKeptOutside, k.slots.trans h.slots, k.flags.trans h.flags⟩

theorem ite {p : Prop} [Decidable p] (ht : LinksKept s t) (hu : LinksKept s u) : LinksKept s (if p then t else u) := by
  split <;> assumption

theorem slotBundle_eq (h : LinksKept s t) (dir slot : Nat) : slotBundle t dir slot = slotBundle s dir slot := by
  rw [slotBundle, h.slots, slotBundle]

theorem thenNet {n : NetState} (hn : n.slotTable = t.net.slotTable) (hf : n.laneFlags = t.net.laneFlags) (h : LinksKept s t) :
    LinksKept s { t with net := n } := ⟨h.toKeptOutside.thenNet, hn.trans h.slots, hf.trans h.flags⟩

theorem thenSetObj {i sub e v : Nat} (h : LinksKept s t) (hi : i ∈ retireObjects) (hs : sub < 256) (he : e < 2 ^ 20) :
    LinksKept s (t.setObj i sub e v) := ⟨h.toKeptOutside.thenSetObj hi hs he, h.slots, h.flags⟩

theorem thenSetLink {k : Nat} {d : LinkDir} (h : LinksKept s t) : LinksKept s (setLink t k d) := h.thenNet rfl rfl

theorem thenDrainLink {k n : Nat} (h : LinksKept s t) : LinksKept s (drainLink k n t) := by
  induction n generalizing t with
  | zero => exact h
  | succ n ih =>
    unfold drainLink
    split
    · split
      · exact h
      · rename_i u hu
        obtain ⟨d, rfl⟩ := sendNext_eq_setLink hu
        exact ih h.thenSetLink
    · exact h

theorem thenMovePacket {dir : Nat} {p : LinkPacket} (h : LinksKept s t) : LinksKept s (movePacket dir t p) :=
  h.thenSetLink.thenDrainLink

theorem thenSample {m : MgmtState} (h : LinksKept s t) (hl : m.logPend = t.mgmt.logPend) : LinksKept s { t with mgmt := m } :=
  h.trans ⟨.of_same rfl rfl hl, rfl, rfl⟩

/-- Counting resends of a bundle touches 3090h:01h alone; a direction past the ports would be another object's element. -/
theorem thenCountResends {k n : Nat} (hk : k < 96) (h : LinksKept s t) : LinksKept s (countResends t k n) := by
  simp only [countResends, hk, if_true]
  exact thenSetObj (thenSample h rfl) (by decide) (by decide) (by omega)

theorem thenMoveFlit {dir : Nat} {a : State × Sparse Nat} {p : Nat × Flit} (hd : dir < 8)
    (hp : slotBundle a.1 dir p.1 < 12) (h : LinksKept s a.1) : LinksKept s (moveFlit dir a p).1 :=
  thenCountResends (by omega) h.thenSetLink

theorem thenMoveFlits {dir : Nat} (hd : dir < 8) (hslots : ∀ slot, slotBundle s dir slot < 12) (l : List (Nat × Flit))
    {a : State × Sparse Nat} (h : LinksKept s a.1) : LinksKept s (l.foldl (moveFlit dir) a).1 := by
  induction l generalizing a with
  | nil => exact h
  | cons p l ih => exact ih (h.thenMoveFlit hd (h.slotBundle_eq dir p.1 ▸ hslots p.1))

theorem thenMovePackets {dir : Nat} (l : List LinkPacket) (h : LinksKept s t) : LinksKept s (l.foldl (movePacket dir) t) := by
  induction l generalizing t with
  | nil => exact h
  | cons p l ih => exact ih h.thenMovePacket

theorem thenShiftPair {e : Nat} (h : LinksKept s t) : LinksKept s (shiftPair t e) :=
  ite h (h.thenNet rfl rfl)

theorem thenFlagReplace {reason : Nat} (h : LinksKept s t) : LinksKept s (flagReplace t reason) :=
  (h.thenSetObj (by decide) (by decide) (by decide)).thenSetObj (by decide) (by decide) (by decide)

theorem thenTakeoverNow {cause sev spares : Nat} {b : Block} (hc : cause < 256) (h : LinksKept s t) :
    LinksKept s (takeoverNow t cause sev b spares) :=
  h.trans ⟨((Kept.refl.thenTakeoverRecord hc).thenAer).toKeptOutside.mono fun _ => List.mem_append_right _,
    congrArg NetState.slotTable (takeoverNow_fields ..).2.2.2, congrArg NetState.laneFlags (takeoverNow_fields ..).2.2.2⟩

end LinksKept

/-! ## The slots of a retired bundle pass on -/

theorem mem_servingBundles {s : State} {dir k : Nat} :
    k ∈ servingBundles s dir ↔ k < 12 ∧ bundleState s (12 * dir + k) ≠ 3 := by
  simp [servingBundles]

/-- A fold that keeps its choice or takes the element at hand chooses an element. -/
theorem foldl_picks {f : Option Nat → Nat → Option Nat} (hf : ∀ a k, f a k = some k ∨ a.isSome = true ∧ f a k = a) (l : List Nat) :
    ∀ a : Option Nat, l ≠ [] ∨ a.isSome = true → ∃ k, (k ∈ l ∨ a = some k) ∧ l.foldl f a = some k := by
  induction l with
  | nil => exact fun a h => (Option.isSome_iff_exists.mp (h.resolve_left (· rfl))).imp fun k hk => ⟨.inr hk, hk⟩
  | cons x l ih =>
    intro a _
    obtain hx | ⟨ha, hx⟩ := hf a x
    · obtain ⟨k, hk, he⟩ := ih (f a x) (.inr (hx ▸ rfl))
      refine ⟨k, .inl ?_, he⟩
      rcases hk with hk | hk
      · exact List.mem_cons_of_mem _ hk
      · exact Option.some.inj (hx.symm.trans hk) ▸ List.mem_cons_self
    · obtain ⟨k, hk, he⟩ := ih (f a x) (.inr (hx.symm ▸ ha))
      exact ⟨k, hk.imp (List.mem_cons_of_mem _) (hx ▸ ·), he⟩

/-- The bundle that takes a slot serves, and there is one as long as any bundle of the direction serves. -/
theorem fewest_eq_some {s : State} {dir : Nat} (h : servingBundles s dir ≠ []) :
    ∃ k ∈ servingBundles s dir, fewest s dir = some k := by
  unfold fewest
  refine (foldl_picks ?_ (servingBundles s dir) none (.inl h)).imp fun k ⟨hk, hf⟩ => ⟨hk.resolve_right (by simp), hf⟩
  intro a k
  cases a with
  | none => exact .inl rfl
  | some j =>
    dsimp only
    split
    · exact .inl rfl
    · exact .inr ⟨rfl, rfl⟩

theorem passSlot_keptOutside (dir : Nat) (s : State) (slot : Nat) : KeptOutside [] s (passSlot dir s slot) := by
  unfold passSlot
  split
  · exact .refl
  · exact .thenNet .refl

theorem passSlot_servingBundles (dir : Nat) (s : State) (slot : Nat) :
    servingBundles (passSlot dir s slot) dir = servingBundles s dir := by
  unfold passSlot
  split <;> rfl

theorem passSlot_slotBundle {s : State} {dir slot k : Nat} (h : fewest s dir = some k) (j : Nat) :
    slotBundle (passSlot dir s slot) dir j = if j = slot then k else slotBundle s dir j := by
  simp only [passSlot, h, slotBundle, sget_sset, Nat.add_left_cancel_iff]

/-- A slot that passes on ends on a serving bundle, where there is one; every other slot stays where it is. -/
theorem passSlots_slotBundle {dir : Nat} (l : List Nat) {s : State} (j : Nat) :
    slotBundle (l.foldl (passSlot dir) s) dir j ∈ servingBundles s dir ∨
      slotBundle (l.foldl (passSlot dir) s) dir j = slotBundle s dir j ∧ (j ∈ l → servingBundles s dir = []) := by
  induction l generalizing s with
  | nil => exact .inr ⟨rfl, fun h => by cases h⟩
  | cons slot l ih =>
    have hs := passSlot_servingBundles dir s slot
    obtain hi | ⟨hi, hj⟩ := ih (s := passSlot dir s slot)
    · exact .inl (hs ▸ hi)
    · rw [hs] at hj
      by_cases he : servingBundles s dir = []
      · have hp : passSlot dir s slot = s := by simp [passSlot, fewest, he]
        exact .inr ⟨by rw [List.foldl_cons, hi, hp], fun _ => he⟩
      · obtain ⟨k, hk, hf⟩ := fewest_eq_some he
        rw [passSlot_slotBundle hf] at hi
        by_cases hjs : j = slot
        · rw [if_pos hjs] at hi
          exact .inl (hi.symm ▸ hk)
        · rw [if_neg hjs] at hi
          exact .inr ⟨hi, fun hm => hj ((List.mem_cons.mp hm).resolve_left hjs)⟩

/-! ## BUNDLE_RETIRED -/

/-- A retired bundle before its slots pass on: its direction has one bundle less (R355). -/
def bundleOut (s : State) (b : Nat) : State :=
  let s := linkFault s b
  (s.setObj 0x4060 1 b 3).setObj 0x4060 3 (b / 12) (s.obj 0x4060 3 (b / 12) - 1)

/-- A retired bundle's slots have passed on, and what it held waits to be sent again (R355). -/
def slotsPassed (s : State) (b : Nat) : State :=
  setLink ((bundleSlots (bundleOut s b) (b / 12) (b % 12)).foldl (passSlot (b / 12)) (bundleOut s b)) b
    { linkOf s b with unacked := [], wait := [] }

/-- What a retired bundle held is sent again on the bundles that took its slots, and the diagonal pairs follow (R355, R356). -/
def bundleMoved (s : State) (b : Nat) (left : List (Nat × Flit)) : State :=
  shiftPair (shiftPair ((linkOf s b).wait.foldl (movePacket (b / 12)) (left.foldl (moveFlit (b / 12)) (slotsPassed s b, [])).1) 0) 1

theorem flagReplace_flagged (s : State) (reason : Nat) : (flagReplace s reason).obj 0x4000 1 0 = 1 := by
  rw [flagReplace, State.obj_setObj _ _ (by decide) (by decide) (by decide) (by decide), if_neg (by decide),
    State.obj_setObj_same]

theorem linkFault_keptOutside (s : State) (k : Nat) : KeptOutside [] s (linkFault s k) := by
  unfold linkFault
  exact .ite (.of_same rfl rfl rfl) .refl

theorem bundleOut_bundleState (s : State) {b k : Nat} (hb : b < 96) (hk : k < 96) :
    bundleState (bundleOut s b) k = if k = b then 3 else bundleState s k := by
  rw [bundleState, bundleOut, State.obj_setObj _ _ (by decide) (by decide) (by omega) (by omega),
    if_neg (by omega), State.obj_setObj _ _ (by decide) (by decide) (by omega) (by omega),
    (linkFault_keptOutside s b).obj _ _ _ (by simp) (by decide) (by omega)]
  simp [bundleState]

theorem bundleOut_bundles (s : State) {b : Nat} (hb : b < 96) :
    (bundleOut s b).obj 0x4060 3 (b / 12) = s.obj 0x4060 3 (b / 12) - 1 := by
  rw [bundleOut, State.obj_setObj_same, (linkFault_keptOutside s b).obj _ _ _ (by simp) (by decide) (by omega)]

theorem linkFault_slotTable (s : State) (k : Nat) : (linkFault s k).net.slotTable = s.net.slotTable := by
  unfold linkFault
  split <;> rfl

theorem bundleOut_slotBundle (s : State) (b dir slot : Nat) : slotBundle (bundleOut s b) dir slot = slotBundle s dir slot := by
  rw [slotBundle, bundleOut, State.setObj_net, State.setObj_net, linkFault_slotTable, slotBundle]

theorem slotsPassed_keptOutside (s : State) (b : Nat) : KeptOutside [] (bundleOut s b) (slotsPassed s b) :=
  .thenNet (.thenFoldl _ (fun _ _ _ => passSlot_keptOutside ..) .refl)

/-- A slot of the retired bundle is on a serving bundle, where there is one; every other slot is where it was. -/
theorem slotsPassed_slotBundle (s : State) (b slot : Nat) :
    slotBundle (slotsPassed s b) (b / 12) slot ∈ servingBundles (bundleOut s b) (b / 12) ∨
      slotBundle (slotsPassed s b) (b / 12) slot = slotBundle s (b / 12) slot ∧
        (slot < 64 → slotBundle s (b / 12) slot = b % 12 → servingBundles (bundleOut s b) (b / 12) = []) := by
  have h := passSlots_slotBundle (dir := b / 12) (bundleSlots (bundleOut s b) (b / 12) (b % 12)) (s := bundleOut s b) slot
  rw [bundleOut_slotBundle] at h
  refine h.imp id fun ⟨h1, h2⟩ => ⟨h1, fun hl he => h2 ?_⟩
  simp [bundleSlots, hl, bundleOut_slotBundle, he]

theorem execBundleRetired_eq (b : Fin 96) (seq : BitVec 12) (s : State) : execBundleRetired b seq s =
    guarded (decide (bundleState s b.val ≤ 1) && decide (0 < flagged s b.val) && !swappable s b.val &&
      decide (seq.toNat = ((linkOf s b.val).expect + 4095) % 4096))
    (takeoverNow (flagReplace (bundleMoved s b.val
      ((dropAcked seq.toNat (linkOf s b.val).unacked).getD (linkOf s b.val).unacked)) 5) 0x55 3 (blockOf 6 b.val) 0) := by
  unfold execBundleRetired bundleMoved slotsPassed bundleOut
  rfl

/-- Where the slot table of a direction names bundles of the direction, a bundle that lacks spares is retired: its direction has one
bundle less, no slot stays on it while another serves, and the module is flagged (R355, R356). -/
theorem bundleRetired_retires {s : State} {b : Fin 96} {seq : BitVec 12} (hslots : ∀ slot, slotBundle s (b.val / 12) slot < 12)
    (hst : bundleState s b.val ≤ 1) (hf : 0 < flagged s b.val) (hsp : 8 < flagged s b.val + s.obj 0x4060 2 b.val)
    (hseq : seq.toNat = ((linkOf s b.val).expect + 4095) % 4096) :
    ∃ t, exec (.bundleRetired b seq) s = .next t ∧ bundleState t b.val = 3 ∧
      t.obj 0x4060 3 (b.val / 12) = s.obj 0x4060 3 (b.val / 12) - 1 ∧ t.obj 0x4000 1 0 = 1 ∧
      ((∃ k < 12, k ≠ b.val % 12 ∧ bundleState s (12 * (b.val / 12) + k) ≠ 3) →
        ∀ slot < 64, slotBundle t (b.val / 12) slot ≠ b.val % 12) := by
  have hpass (slot : Nat) : slotBundle (slotsPassed s b.val) (b.val / 12) slot < 12 := by
    obtain h | ⟨h, -⟩ := slotsPassed_slotBundle s b.val slot
    · exact (mem_servingBundles.mp h).1
    · exact h ▸ hslots slot
  let m := bundleMoved s b.val ((dropAcked seq.toNat (linkOf s b.val).unacked).getD (linkOf s b.val).unacked)
  have hm : LinksKept (slotsPassed s b.val) m :=
    ((LinksKept.thenMoveFlits (by omega) hpass _ .refl).thenMovePackets _).thenShiftPair.thenShiftPair
  have ht : LinksKept (slotsPassed s b.val) (takeoverNow (flagReplace m 5) 0x55 3 (blockOf 6 b.val) 0) :=
    hm.thenFlagReplace.thenTakeoverNow (by decide)
  have hobj (sub e : Nat) (hs : sub < 256) (he : e < 2 ^ 20) :
      (takeoverNow (flagReplace m 5) 0x55 3 (blockOf 6 b.val) 0).obj 0x4060 sub e = (bundleOut s b.val).obj 0x4060 sub e :=
    (ht.obj _ _ _ (by decide) hs he).trans ((slotsPassed_keptOutside s b.val).obj _ _ _ (by simp) hs he)
  refine ⟨_, (execBundleRetired_eq b seq s).trans (guarded_true _ ?_), ?_, ?_, ?_, ?_⟩
  · simp [swappable, hst, hf, hseq]
    omega
  · exact (hobj _ _ (by decide) (by omega)).trans ((bundleOut_bundleState s b.isLt b.isLt).trans (if_pos rfl))
  · exact (hobj _ _ (by decide) (by omega)).trans (bundleOut_bundles s b.isLt)
  · have hr : Kept (flagReplace m 5) (takeoverNow (flagReplace m 5) 0x55 3 (blockOf 6 b.val) 0) :=
      (Kept.refl.thenTakeoverRecord (by decide)).thenAer
    exact (hr.obj _ _ _ (by decide) (by decide) (by decide)).trans (flagReplace_flagged m 5)
  · rintro ⟨k, hk, hkb, hk3⟩ slot hl
    rw [ht.slotBundle_eq]
    have hserve : k ∈ servingBundles (bundleOut s b.val) (b.val / 12) := by
      rw [mem_servingBundles, bundleOut_bundleState s b.isLt (by omega), if_neg (by omega)]
      exact ⟨hk, hk3⟩
    obtain h | ⟨h, hno⟩ := slotsPassed_slotBundle s b.val slot
    · intro he
      rw [he, mem_servingBundles, bundleOut_bundleState s b.isLt (by omega), if_pos (by omega)] at h
      exact h.2 rfl
    · intro he
      rw [hno hl (h.symm.trans he)] at hserve
      cases hserve

end Sys2Proof.Machine
end

section
/-!
Lanes, slots that drain, lost links, silent neighbours and elevators (R34, R353, R354, R356, R357, R361), in every state.
-/
namespace Sys2Proof.Machine
open Sys2Proof.Claims

/-! ## Lanes (R353, R354) -/

theorem flagLane_dict (s : State) (b : Nat) (l : Fin 136) : (flagLane s b l).dict = s.dict := rfl

theorem flagLane_get (s : State) (b : Nat) (l m : Fin 136) :
    sget (fun _ => false) (flagLane s b m).net.laneFlags (b * 136 + l.val) =
      if l = m then true else sget (fun _ => false) s.net.laneFlags (b * 136 + l.val) := by
  simp only [flagLane, sget_sset, Nat.add_left_cancel_iff, Fin.ext_iff]

theorem flagLanes_get (b : Nat) (bad : List (Fin 136)) (l : Fin 136) (s : State) :
    sget (fun _ => false) (bad.foldl (fun s l => flagLane s b l) s).net.laneFlags (b * 136 + l.val) =
      if l ∈ bad then true else sget (fun _ => false) s.net.laneFlags (b * 136 + l.val) := by
  induction bad generalizing s with
  | nil => simp
  | cons m bad ih =>
    rw [List.foldl_cons, ih, flagLane_get]
    by_cases h : l ∈ bad <;> simp [h]

theorem flagLanes_dict (b : Nat) (bad : List (Fin 136)) (s : State) :
    (bad.foldl (fun s l => flagLane s b l) s).dict = s.dict := by
  induction bad generalizing s with
  | nil => rfl
  | cons m bad ih => rw [List.foldl_cons, ih, flagLane_dict]

/-- LANE_FLAG flags a lane above its margin limit or without lock (R353). -/
theorem laneFlag_flags {s : State} {b : Fin 96} {lane : Fin 136} {margin : Nat} {lock : Bool} (hb : bundleState s b.val ≠ 3)
    (h : lock = true ∨ netLimit s 4 < margin) : ∃ t, exec (.laneFlag b lane margin lock) s = .next t ∧
      sget (fun _ => false) t.net.laneFlags (b.val * 136 + lane.val) = true ∧ t.dict = s.dict :=
  ⟨_, guarded_true _ (by simp [hb, h]), by rw [flagLane_get, if_pos rfl], rfl⟩

/-- LANE_TEST flags the lanes that show errors and no others (R353). -/
theorem laneTest_flags {s : State} {b : Fin 96} {n : Nat} (bad : List (Fin 136)) (hb : bundleState s b.val ≤ 1)
    (h : (flagged s b.val = 0 ∧ netLimit s 5 < n) ∨ 16 ≤ (linkOf s b.val).resends) :
    ∃ t, exec (.laneTest b n bad) s = .next t ∧
      (∀ l ∈ bad, sget (fun _ => false) t.net.laneFlags (b.val * 136 + l.val) = true) ∧
      (∀ l ∉ bad, sget (fun _ => false) t.net.laneFlags (b.val * 136 + l.val) =
        sget (fun _ => false) s.net.laneFlags (b.val * 136 + l.val)) ∧ t.dict = s.dict :=
  ⟨_, guarded_true _ (by simp [hb, h]), fun l hl => by rw [flagLanes_get, if_pos hl], fun l hl => by rw [flagLanes_get, if_neg hl],
    flagLanes_dict ..⟩

theorem beginTakeover_net (s : State) (b : Block) : (beginTakeover s b).net = s.net := by
  unfold beginTakeover
  split <;> rfl

theorem linkFault_net (s : State) (k : Nat) : (linkFault s k).net = s.net := by
  unfold linkFault
  split <;> rfl

/-- LANE_SWAP pauses a bundle that has enough spares for its flagged lanes (R354). -/
theorem laneSwap_pauses {s : State} {b : Fin 96} (hb : bundleState s b.val ≤ 1) (hf : 0 < flagged s b.val)
    (hs : flagged s b.val + s.obj 0x4060 2 b.val ≤ 8) :
    ∃ t, exec (.laneSwap b) s = .next t ∧ bundleState t b.val = 2 ∧ t.net = s.net := by
  have hk : Kept ((linkFault s b.val).setObj 0x4060 1 b.val 2)
      (beginTakeover ((linkFault s b.val).setObj 0x4060 1 b.val 2) (blockOf 6 b.val)) := Kept.refl.thenBeginTakeover
  refine ⟨_, guarded_true _ (by simp [hb, swappable, hf, hs]), ?_, ?_⟩
  · exact (hk.obj _ _ _ (by decide) (by decide) (by omega)).trans (State.obj_setObj_same ..)
  · rw [beginTakeover_net, State.setObj_net, linkFault_net]

/-- A paused bundle in service on its spares, no lane of it flagged (R354). -/
def spared (s : State) (b : Nat) : State :=
  let s := (s.setObj 0x4060 2 b (s.obj 0x4060 2 b + flagged s b)).setObj 0x4060 1 b 1
  { s with net := { s.net with laneFlags := s.net.laneFlags.filter fun p => p.1 / 136 ≠ b } }

theorem spared_flagged (s : State) (b : Nat) : flagged (spared s b) b = 0 := by
  simp [spared, flagged]

theorem spared_obj (s : State) {b : Nat} (hb : b < 96) (sub : Fin 3) :
    (spared s b).obj 0x4060 sub.val b =
      if sub = 1 then 1 else if sub = 2 then s.obj 0x4060 2 b + flagged s b else s.obj 0x4060 sub.val b := by
  rw [spared, State.obj_withNet, State.obj_setObj _ _ (by decide) (by omega) (by omega) (by omega),
    State.obj_setObj _ _ (by decide) (by omega) (by omega) (by omega)]
  simp [Fin.ext_iff]

/-- LANE_SWAP_DONE resumes the bundle on its spares and writes a record of cause 54h (R354, R525). -/
theorem laneSwapDone_resumes {s : State} {b : Fin 96} (hb : bundleState s b.val = 2) :
    ∃ t, exec (.laneSwapDone b) s = .next t ∧ bundleState t b.val = 1 ∧ flagged t b.val = 0 ∧
      t.obj 0x4060 2 b.val = s.obj 0x4060 2 b.val + flagged s b.val ∧ HwLogged t 0x54 (blockOf 6 b.val) := by
  let d := drainLink b.val (linkOf (spared s b.val) b.val).wait.length
      (countResends (spared s b.val) b.val (linkOf (spared s b.val) b.val).unacked.length)
  let r := takeoverRecord d 0x54 1 (blockOf 6 b.val) 0xFFFF (8 - (s.obj 0x4060 2 b.val + flagged s b.val)) 0
  have hd : LinksKept (spared s b.val) d := (LinksKept.refl.thenCountResends b.isLt).thenDrainLink
  have hr : Kept r (endTakeover r (blockOf 6 b.val)) := Kept.refl.thenEndTakeover
  have hobj (sub : Nat) (hs : sub < 256) :
      (endTakeover r (blockOf 6 b.val)).obj 0x4060 sub b.val = (spared s b.val).obj 0x4060 sub b.val :=
    ((Kept.refl.thenTakeoverRecord (by decide)).thenEndTakeover.obj _ _ _ (by decide) hs (by omega)).trans
      (hd.obj _ _ _ (by decide) hs (by omega))
  have hnet : (endTakeover r (blockOf 6 b.val)).net = d.net :=
    (endTakeover_keeps r _).2.2.1.trans (takeoverRecord_fields ..).2.2.2
  refine ⟨endTakeover r (blockOf 6 b.val), guarded_true _ (by simp [hb]), ?_, ?_, ?_, hr.hwLogged (takeoverRecord_hwLogged ..)⟩
  · exact (hobj 1 (by decide)).trans ((spared_obj s b.isLt 1).trans (if_pos rfl))
  · rw [flagged, hnet, hd.flags]
    exact spared_flagged s b.val
  · exact (hobj 2 (by decide)).trans ((spared_obj s b.isLt 2).trans rfl)

/-! ## Slots that drain (R356) -/

theorem drainLink_drainSlots (k n : Nat) (s : State) : (drainLink k n s).net.drainSlots = s.net.drainSlots := by
  induction n generalizing s with
  | zero => rfl
  | succ n ih =>
    unfold drainLink
    split
    · split
      · rfl
      · rename_i u hu
        obtain ⟨d, rfl⟩ := sendNext_eq_setLink hu
        exact ih _
    · rfl

theorem foldl_crossLink_drainSlots (p : LinkPacket) (l : List Nat) (s : State) :
    (l.foldl (fun s dir => crossLink s (12 * dir + slotBundle s dir p.slot) p) s).net.drainSlots = s.net.drainSlots := by
  induction l generalizing s with
  | nil => rfl
  | cons dir l ih => exact (ih _).trans (drainLink_drainSlots ..)

theorem crossDies_drainSlots (s : State) (x y : Nat) (p : LinkPacket) :
    (crossDies s x y p).net.drainSlots = s.net.drainSlots := by
  unfold crossDies
  split
  · rfl
  · exact foldl_crossLink_drainSlots ..

/-- The packets that a base die held leave, and no slot begins to drain. -/
theorem foldl_crossDies_drainSlots (l : List DrainHold) (s : State) :
    (l.foldl (fun s h => crossDies s h.src h.dst h.packet) s).net.drainSlots = s.net.drainSlots := by
  induction l generalizing s with
  | nil => rfl
  | cons h l ih => exact (ih _).trans (crossDies_drainSlots ..)

/-- Inverting one bit of a number. -/
theorem bit_xor_two_pow (v i n : Nat) : bit (v ^^^ 2 ^ i) n = if n = i then !bit v n else bit v n := by
  simp only [bit, Nat.testBit_xor, Nat.testBit_two_pow]
  by_cases h : n = i
  · simp [h]
  · simp [h, Ne.symm h]

/-- SLOT_DRAIN_DONE: the slot takes the other path of its pair (R356). -/
theorem slotDrainDone_moves {s : State} {pair : Fin 2} {slot : Fin 64} (hd : (pair.val, slot.val) ∈ s.net.drainSlots)
    (hw : pairWaits s pair.val slot.val = false) : ∃ t, exec (.slotDrainDone pair slot) s = .next t ∧
      (pair.val, slot.val) ∉ t.net.drainSlots ∧ ∀ n : Fin 64, bit (t.obj 0x4060 5 pair.val) n.val =
        (if n = slot then !bit (s.obj 0x4060 5 pair.val) n.val else bit (s.obj 0x4060 5 pair.val) n.val) := by
  refine ⟨_, guarded_true _ (by simp [hd, hw]), ?_, fun n => ?_⟩
  · rw [foldl_crossDies_drainSlots]
    simp
  · rw [(Kept.refl.thenFoldl (fun _ _ => Kept.refl.thenCrossDies) _).obj _ _ _ (by decide) (by decide) (by omega),
      State.obj_setObj_same, State.obj_withNet, bit_xor_two_pow]
    simp [Fin.ext_iff]

/-! ## Lost links (R357) -/

/-- Every step that was there is there, with the statuses it had. -/
def StepsGrow (s t : State) : Prop :=
  ∀ key x, findStep s key = some x → ∃ y, findStep t key = some y ∧ ∀ st ∈ x.statuses, st ∈ y.statuses

namespace StepsGrow

variable {s t u : State}

theorem trans (h : StepsGrow s t) (k : StepsGrow t u) : StepsGrow s u := by
  intro key x hx
  obtain ⟨y, hy, hxy⟩ := h key x hx
  obtain ⟨z, hz, hyz⟩ := k key y hy
  exact ⟨z, hz, fun st hst => hyz st (hxy st hst)⟩

theorem of_sage (h : t.sage.steps = s.sage.steps) : StepsGrow s t := by
  intro key x hx
  exact ⟨x, by rwa [findStep, h], fun _ hst => hst⟩

theorem hasStatus (h : StepsGrow s t) {key : Nat} {st : StepStatus} (hs : hasStatus s key st) : hasStatus t key st := by
  obtain ⟨x, hx, hst⟩ := hs
  obtain ⟨y, hy, hxy⟩ := h key x hx
  exact ⟨y, hy, hxy st hst⟩

end StepsGrow

theorem findStep_updStep (s : State) (k key : Nat) {f : Step → Step} (hf : ∀ x, (f x).key = x.key) :
    findStep (updStep s k f) key = (findStep s key).map fun x => if x.key = k then f x else x := by
  have hk : (fun x : Step => decide ((if x.key = k then f x else x).key = key)) = fun x => decide (x.key = key) := by
    funext x
    split <;> simp [hf]
  simp only [findStep, updStep, List.find?_map, Function.comp_def, hk]

theorem updStep_stepsGrow (s : State) (k : Nat) {f : Step → Step} (hf : ∀ x, (f x).key = x.key)
    (hst : ∀ x, ∀ st ∈ x.statuses, st ∈ (f x).statuses) : StepsGrow s (updStep s k f) := by
  intro key x hx
  refine ⟨_, by rw [findStep_updStep s k key hf, hx, Option.map_some], fun st h => ?_⟩
  split
  · exact hst x st h
  · exact h

theorem settleCore_stepsGrow (s : State) (c : Nat) : StepsGrow s (settleCore s c) := by
  unfold settleCore
  dsimp only
  split
  · exact .of_sage rfl
  · split
    · split
      · exact .of_sage rfl
      · exact StepsGrow.trans (.of_sage rfl) (updStep_stepsGrow _ _ (fun _ => rfl) fun _ _ h => h)
    · exact .of_sage rfl

theorem foldl_stepsGrow {α : Type} {f : State → α → State} (hf : ∀ s x, StepsGrow s (f s x)) (l : List α) (s : State) :
    StepsGrow s (l.foldl f s) := by
  induction l generalizing s with
  | nil => exact .of_sage rfl
  | cons x l ih => exact (hf s x).trans (ih _)

theorem haltStep_stepsGrow (s : State) (key : Nat) : StepsGrow s (haltStep s key) :=
  foldl_stepsGrow (fun s c => StepsGrow.trans (t := s.setCore c (s.core c).halt) (.of_sage rfl) (settleCore_stepsGrow _ c)) _ s

theorem cancelCmds_stepsGrow (s : State) (key : Nat) : StepsGrow s (cancelCmds s key) :=
  updStep_stepsGrow s key (fun _ => rfl) fun _ _ h => h

/-- A step's saved state, reduces and tags are gone (R73). -/
def savedDropped (s : State) (key : Nat) : State :=
  pruneTags { s with
    sage := { s.sage with
      spills := s.sage.spills.filter fun r => decide (r.step ≠ key)
      restarts := s.sage.restarts.filter fun r => decide (r.step ≠ key) }
    net := { s.net with reds := s.net.reds.filter fun r => decide (r.step ≠ key) } }

/-- The status that ends a step is added to it, and whatever else ends with it takes no step and no status away. -/
theorem endStep_adds (s : State) (key ref : Nat) (st : StepStatus) :
    StepsGrow (updStep (savedDropped s key) key fun t => t.addStatus st ref) (endStep s key st ref) :=
  (cancelCmds_stepsGrow (updStep (savedDropped s key) key fun t => t.addStatus st ref) key).trans (haltStep_stepsGrow _ key)

theorem endStep_stepsGrow (s : State) (key ref : Nat) (st : StepStatus) : StepsGrow s (endStep s key st ref) := by
  have hd : StepsGrow s (savedDropped s key) := .of_sage rfl
  exact (hd.trans (updStep_stepsGrow _ key (f := fun t => t.addStatus st ref) (fun _ => rfl)
    fun _ _ h => List.mem_append_left _ h)).trans (endStep_adds s key ref st)

theorem endStep_hasStatus {s : State} {key : Nat} {x : Step} (hx : findStep s key = some x) (ref : Nat) (st : StepStatus) :
    hasStatus (endStep s key st ref) key st := by
  have hk : x.key = key := by simpa using List.find?_some hx
  have hd : findStep (savedDropped s key) key = some x := hx
  refine (endStep_adds s key ref st).hasStatus ⟨x.addStatus st ref, ?_, List.mem_append_right _ (List.mem_singleton.mpr rfl)⟩
  rw [findStep_updStep (savedDropped s key) key key (f := fun t => t.addStatus st ref) fun _ => rfl, hd, Option.map_some, if_pos hk]

theorem endSteps_hasStatus {key : Nat} (ref : Nat) (st : StepStatus) (l : List Nat) (hl : key ∈ l) {s : State} {x : Step}
    (hx : findStep s key = some x) : hasStatus (l.foldl (fun s k => endStep s k st ref) s) key st := by
  induction l generalizing s x with
  | nil => cases hl
  | cons k l ih =>
    rcases List.mem_cons.mp hl with rfl | hl
    · exact (foldl_stepsGrow (fun s k => endStep_stepsGrow s k ref st) l _).hasStatus (endStep_hasStatus hx ref st)
    · obtain ⟨y, hy, -⟩ := endStep_stepsGrow s k ref st key x hx
      exact ih hl hy

theorem logRecord_sage (s : State) (r : LogRec) : (logRecord s r).sage = s.sage := by
  unfold logRecord
  dsimp only
  split <;> rfl

/-- Every live step has ended with a status, under a fault record of a cause, and the PF's queue has the event (R519). -/
def stepsEnded (s : State) (cause : Nat) : State :=
  let r := logRecord s { LogRec.blank with kind := 1, severity := 3, cause := cause, scope := 3 }
  let q := queueEvent r 0 4 cause 0 0
  (liveSteps q).foldl (fun s k => endStep s k .faultUnrecovered (newestRecord r)) q

theorem serviceEnds_eq (s : State) (cause reason : Nat) : serviceEnds s cause reason =
    aer (flagReplace { stepsEnded s cause with net := { (stepsEnded s cause).net with lost := true } } reason) 0
      "Uncorrectable Internal Error" 2
      (newestRecord (logRecord s { LogRec.blank with kind := 1, severity := 3, cause := cause, scope := 3 })) := by
  simp only [serviceEnds, stepsEnded]

theorem stepsEnded_hasStatus {s : State} {x : Step} (hx : x ∈ s.sage.steps) (hp : x.phase ≠ .ended) (cause : Nat) :
    hasStatus (stepsEnded s cause) x.key .faultUnrecovered := by
  obtain ⟨y, hy⟩ : ∃ y, findStep s x.key = some y :=
    Option.isSome_iff_exists.mp (List.find?_isSome.mpr ⟨x, hx, decide_eq_true rfl⟩)
  have hs (r : LogRec) : (queueEvent (logRecord s r) 0 4 cause 0 0).sage = s.sage := by rw [queueEvent_sage, logRecord_sage]
  refine endSteps_hasStatus _ _ _ ?_ (x := y) ?_
  · rw [liveSteps, hs]
    exact List.mem_map_of_mem (List.mem_filter.mpr ⟨hx, by simpa using hp⟩)
  · rwa [findStep, hs]

/-- When the module cannot keep its service every live step ends FAULT_UNRECOVERED (R357, R519). -/
theorem serviceEnds_hasStatus {s : State} {x : Step} (hx : x ∈ s.sage.steps) (hp : x.phase ≠ .ended) (cause reason : Nat) :
    hasStatus (serviceEnds s cause reason) x.key .faultUnrecovered := by
  rw [serviceEnds_eq]
  exact (StepsGrow.of_sage (by rw [aer_sage, flagReplace_sage])).hasStatus (stepsEnded_hasStatus hx hp cause)

theorem serviceEnds_lost (s : State) (cause reason : Nat) :
    (serviceEnds s cause reason).net.lost = true ∧ (serviceEnds s cause reason).obj 0x4000 1 0 = 1 := by
  rw [serviceEnds_eq, aer, State.obj_emit]
  exact ⟨rfl, flagReplace_flagged ..⟩

/-- LINK_LOST ends every live step and the module's service (R357). -/
theorem linkLost_ends {s : State} {dir : Fin 8} (hd : s.obj 0x4060 3 dir.val = 0) (hl : s.net.lost = false) :
    ∃ t, exec (.linkLost dir) s = .next t ∧ t.net.lost = true ∧ t.obj 0x4000 1 0 = 1 ∧
      ∀ x ∈ s.sage.steps, x.phase ≠ .ended → hasStatus t x.key .faultUnrecovered :=
  ⟨_, guarded_true _ (by simp [hd, hl]), (serviceEnds_lost ..).1, (serviceEnds_lost ..).2,
    fun _ hx hp => serviceEnds_hasStatus hx hp 0x2C 5⟩

/-! ## Silent neighbours and elevators (R34, R361) -/

/-- MESH_SILENCE reports the neighbour (R361). -/
theorem meshSilence_reports (s : State) (psn : Psn) :
    ∃ t, exec (.meshSilence psn) s = .next t ∧ psn.val ∈ t.net.reported ∧ t.dict = s.dict := by
  refine ⟨_, rfl, ?_, rfl⟩
  dsimp only
  split
  next h => simpa using h
  next => simp

/-- An elevator out of use, with its failures counted and its record written (R361, R525). -/
def elevatorOut (e n : Nat) (s : State) : State :=
  let s := loseElevator ((dieFault s (e / 8)).bump 0x3090 6 e n) e
  takeoverNow s 0x52 3 (blockOf 3 e) (usableElevators s (e / 8))

theorem execElevatorFault_eq (e : Fin 64) (n : Nat) (s : State) : execElevatorFault e n s =
    guarded (decide (s.obj 0x4010 3 e.val = 0) && decide (16 < n))
      (if usableElevators (elevatorOut e.val n s) (e.val / 8) = 0 then serviceEnds (elevatorOut e.val n s) 0x2D 7
        else elevatorOut e.val n s) := by
  unfold execElevatorFault elevatorOut
  rfl

theorem dieFault_obj (s : State) (die i sub e : Nat) : (dieFault s die).obj i sub e = s.obj i sub e :=
  State.obj_eq_of_dict rfl rfl i sub e

theorem elevatorOut_kept (e n : Nat) (s : State) :
    Kept (loseElevator ((dieFault s (e / 8)).bump 0x3090 6 e n) e) (elevatorOut e n s) :=
  (Kept.refl.thenTakeoverRecord (by decide)).thenAer

theorem elevatorOut_obj {e : Nat} (n : Nat) (s : State) {k : Nat} (he : e < 64) (hk : k < 64) :
    (elevatorOut e n s).obj 0x4010 3 k = if k = e then 1 else s.obj 0x4010 3 k := by
  have hk' := (elevatorOut_kept e n s).obj 0x4010 3 k (by decide) (by decide) (by omega)
  rw [hk', loseElevator, flagReplace, State.obj_setObj _ _ (by decide) (by decide) (by decide) (by omega), if_neg (by omega),
    State.obj_setObj _ _ (by decide) (by decide) (by decide) (by omega), if_neg (by omega),
    State.obj_setObj _ _ (by decide) (by decide) (by omega) (by omega), State.bump,
    State.obj_setObj _ _ (by decide) (by decide) (by omega) (by omega)]
  simp [dieFault_obj]

theorem elevatorOut_failures {e : Nat} (n : Nat) (s : State) (he : e < 64) :
    (elevatorOut e n s).obj 0x3090 6 e = satAdd 64 (s.obj 0x3090 6 e) n := by
  have hk' := (elevatorOut_kept e n s).obj 0x3090 6 e (by decide) (by decide) (by omega)
  rw [hk', loseElevator, flagReplace, State.obj_setObj _ _ (by decide) (by decide) (by decide) (by omega), if_neg (by omega),
    State.obj_setObj _ _ (by decide) (by decide) (by decide) (by omega), if_neg (by omega),
    State.obj_setObj _ _ (by decide) (by decide) (by omega) (by omega), if_neg (by omega), State.bump,
    State.obj_setObj_same, dieFault_obj]

theorem elevatorOut_lost (e n : Nat) (s : State) : (elevatorOut e n s).net.lost = s.net.lost := by
  obtain ⟨-, -, -, hnet⟩ := takeoverNow_fields (loseElevator ((dieFault s (e / 8)).bump 0x3090 6 e n) e) 0x52 3 (blockOf 3 e)
    (usableElevators (loseElevator ((dieFault s (e / 8)).bump 0x3090 6 e n) e) (e / 8))
  rw [elevatorOut, hnet]
  rfl

/-- With an elevator out of use its die has one usable elevator less. -/
theorem elevatorOut_usable {s : State} {e : Nat} (n : Nat) (he : e < 64) (hu : s.obj 0x4010 3 e = 0) :
    usableElevators (elevatorOut e n s) (e / 8) = usableElevators s (e / 8) - 1 := by
  have hd : (List.range 8).filter (fun i => decide ((elevatorOut e n s).obj 0x4010 3 (8 * (e / 8) + i) = 0)) =
      ((List.range 8).filter fun i => decide (s.obj 0x4010 3 (8 * (e / 8) + i) = 0)).erase (e % 8) := by
    rw [(List.nodup_range.filter _).erase_eq_filter, List.filter_filter]
    refine List.filter_congr fun i hi => ?_
    rw [List.mem_range] at hi
    rw [elevatorOut_obj n s he (by omega)]
    by_cases h : i = e % 8
    · rw [if_pos (by omega)]
      simp [h]
    · rw [if_neg (by omega)]
      simp [h]
  have hm : e % 8 ∈ (List.range 8).filter fun i => decide (s.obj 0x4010 3 (8 * (e / 8) + i) = 0) := by
    rw [List.mem_filter, List.mem_range, Nat.div_add_mod]
    exact ⟨by omega, decide_eq_true hu⟩
  rw [usableElevators, hd, List.length_erase_of_mem hm, usableElevators]

/-- ELEVATOR_FAULT takes the elevator out of use and counts its failures; with the last one of its die the module serves no more (R361,
R519). -/
theorem elevatorFault_loses {s : State} {e : Fin 64} {n : Nat} (hu : s.obj 0x4010 3 e.val = 0) (hn : 16 < n) :
    (∃ t, exec (.elevatorFault e n) s = .next t) ∧
    (2 ≤ usableElevators s (e.val / 8) → ∃ t, exec (.elevatorFault e n) s = .next t ∧ t.obj 0x4010 3 e.val = 1 ∧
      t.obj 0x3090 6 e.val = satAdd 64 (s.obj 0x3090 6 e.val) n ∧ HwLogged t 0x52 (blockOf 3 e.val) ∧
      t.net.lost = s.net.lost) ∧
    (usableElevators s (e.val / 8) = 1 → ∃ t, exec (.elevatorFault e n) s = .next t ∧ t.net.lost = true) := by
  have hx : exec (.elevatorFault e n) s = .next (if usableElevators s (e.val / 8) - 1 = 0
      then serviceEnds (elevatorOut e.val n s) 0x2D 7 else elevatorOut e.val n s) := by
    rw [← elevatorOut_usable n e.isLt hu]
    exact (execElevatorFault_eq e n s).trans (guarded_true _ (by simp [hu, hn]))
  refine ⟨⟨_, hx⟩, fun h2 => ⟨_, hx.trans (congrArg _ (if_neg (by omega))), ?_, ?_, ?_, ?_⟩, fun h1 =>
    ⟨_, hx.trans (congrArg _ (if_pos (by omega))), (serviceEnds_lost ..).1⟩⟩
  · rw [elevatorOut_obj n s e.isLt e.isLt, if_pos rfl]
  · exact elevatorOut_failures n s e.isLt
  · exact Kept.refl.thenAer.hwLogged (takeoverRecord_hwLogged ..)
  · exact elevatorOut_lost e.val n s

end Sys2Proof.Machine
end

section
/-!
O42: it holds of every state whose slot tables name bundles of their direction (R355), and fails in a state whose slot table names
none.
-/
namespace Sys2Proof.Machine
open Sys2Proof.Claims

/-- Each slot of each direction names one of the twelve bundles of the direction (R355). -/
def SlotsNameBundles (s : State) : Prop := ∀ dir < 8, ∀ slot, slotBundle s dir slot < 12

theorem reset_slotsNameBundles : SlotsNameBundles State.reset := fun _ _ slot => Nat.mod_lt (_ % 64) (by decide)

/-- What O42 says of each state, for a state whose slots name bundles. -/
theorem lanesBundlesAndElevators_of_slotsNameBundles {s : State} (hslots : SlotsNameBundles s) :
    (∀ (b : Fin 96) (lane : Fin 136) (margin : Nat) (lock : Bool), bundleState s b.val ≠ 3 →
      lock = true ∨ netLimit s 4 < margin → ∃ t, exec (.laneFlag b lane margin lock) s = .next t ∧
      sget (fun _ => false) t.net.laneFlags (b.val * 136 + lane.val) = true ∧ t.dict = s.dict) ∧
    (∀ (b : Fin 96) (n : Nat) (bad : List (Fin 136)), bundleState s b.val ≤ 1 →
      (flagged s b.val = 0 ∧ netLimit s 5 < n) ∨ 16 ≤ (linkOf s b.val).resends → ∃ t, exec (.laneTest b n bad) s = .next t ∧
      (∀ l ∈ bad, sget (fun _ => false) t.net.laneFlags (b.val * 136 + l.val) = true) ∧
      (∀ l ∉ bad, sget (fun _ => false) t.net.laneFlags (b.val * 136 + l.val) =
        sget (fun _ => false) s.net.laneFlags (b.val * 136 + l.val)) ∧ t.dict = s.dict) ∧
    (∀ b : Fin 96, bundleState s b.val ≤ 1 → 0 < flagged s b.val → flagged s b.val + s.obj 0x4060 2 b.val ≤ 8 →
      ∃ t, exec (.laneSwap b) s = .next t ∧ bundleState t b.val = 2 ∧ t.net = s.net) ∧
    (∀ b : Fin 96, bundleState s b.val = 2 → ∃ t, exec (.laneSwapDone b) s = .next t ∧ bundleState t b.val = 1 ∧
      flagged t b.val = 0 ∧ t.obj 0x4060 2 b.val = s.obj 0x4060 2 b.val + flagged s b.val ∧
      HwLogged t 0x54 (blockOf 6 b.val)) ∧
    (∀ (b : Fin 96) (seq : BitVec 12), bundleState s b.val ≤ 1 → 0 < flagged s b.val →
      8 < flagged s b.val + s.obj 0x4060 2 b.val → seq.toNat = ((linkOf s b.val).expect + 4095) % 4096 →
      ∃ t, exec (.bundleRetired b seq) s = .next t ∧ bundleState t b.val = 3 ∧
        t.obj 0x4060 3 (b.val / 12) = s.obj 0x4060 3 (b.val / 12) - 1 ∧ t.obj 0x4000 1 0 = 1 ∧
        ((∃ k < 12, k ≠ b.val % 12 ∧ bundleState s (12 * (b.val / 12) + k) ≠ 3) →
          ∀ slot < 64, slotBundle t (b.val / 12) slot ≠ b.val % 12)) ∧
    (∀ (pair : Fin 2) (slot : Fin 64), (pair.val, slot.val) ∈ s.net.drainSlots → pairWaits s pair.val slot.val = false →
      ∃ t, exec (.slotDrainDone pair slot) s = .next t ∧ (pair.val, slot.val) ∉ t.net.drainSlots ∧
        ∀ n : Fin 64, bit (t.obj 0x4060 5 pair.val) n.val =
          (if n = slot then !bit (s.obj 0x4060 5 pair.val) n.val else bit (s.obj 0x4060 5 pair.val) n.val)) ∧
    (∀ dir : Fin 8, s.obj 0x4060 3 dir.val = 0 → s.net.lost = false → ∃ t, exec (.linkLost dir) s = .next t ∧
      t.net.lost = true ∧ t.obj 0x4000 1 0 = 1 ∧
      ∀ x ∈ s.sage.steps, x.phase ≠ .ended → hasStatus t x.key .faultUnrecovered) ∧
    (∀ psn : Psn, ∃ t, exec (.meshSilence psn) s = .next t ∧ psn.val ∈ t.net.reported ∧ t.dict = s.dict) ∧
    ∀ (e : Fin 64) (n : Nat), s.obj 0x4010 3 e.val = 0 → 16 < n → (∃ t, exec (.elevatorFault e n) s = .next t) ∧
      (2 ≤ usableElevators s (e.val / 8) → ∃ t, exec (.elevatorFault e n) s = .next t ∧ t.obj 0x4010 3 e.val = 1 ∧
        t.obj 0x3090 6 e.val = satAdd 64 (s.obj 0x3090 6 e.val) n ∧ HwLogged t 0x52 (blockOf 3 e.val) ∧
        t.net.lost = s.net.lost) ∧
      (usableElevators s (e.val / 8) = 1 → ∃ t, exec (.elevatorFault e n) s = .next t ∧ t.net.lost = true) :=
  ⟨fun _ _ _ _ => laneFlag_flags, fun _ _ => laneTest_flags, fun _ => laneSwap_pauses, fun _ => laneSwapDone_resumes,
    fun b _ => bundleRetired_retires (hslots (b.val / 12) (by omega)), fun _ _ => slotDrainDone_moves, fun _ => linkLost_ends,
    meshSilence_reports s, fun _ _ => elevatorFault_loses⟩

/-- A bundle number past the ports: in the direction 0 the resends of this bundle (30A0h:03h) are counted at the key that holds the
state of bundle 0 (4060h:01h). -/
def strayBundle : Nat := 96 + ((0x4060 - 0x30A0) * 256 - 2) * 2 ^ 20

theorem strayBundle_dkey : dkey 0x30A0 3 (strayBundle - 96) = dkey 0x4060 1 0 := by decide

/-- A flit that waits for its acknowledgement on bundle 0, of a packet of slot 0. -/
def strayFlit : Flit := ⟨0, 0, 0, 0, 0, 0, 0, 0, 0⟩

/-- The module at reset with nine flagged lanes on bundle 0, more than it has spares, one unanswered flit on it, and a slot table that
names a bundle of no direction for slot 0. -/
def strayState : State :=
  { State.reset with net := { State.reset.net with
      laneFlags := (List.range 9).map fun lane => (lane, true)
      links := [(0, { LinkDir.fresh with unacked := [(0, strayFlit)] })]
      slotTable := [(0, strayBundle)] } }

/-- The state of a bundle after a command that completes. -/
def bundleStateAfter (b : Nat) : Host.Outcome State Fault Refusal → Option Nat
  | .next t => some (bundleState t b)
  | _ => none

/-- The flit moved to the stray bundle counts a resend (`strayBundle_dkey`), which makes the state of the retired bundle 4. -/
theorem strayState_bundleRetired : bundleStateAfter 0 (exec (.bundleRetired 0 4095) strayState) = some 4 := by decide +kernel

/-- Refutes O42, by a slot table that names a bundle of no direction: the resend counted for that bundle overwrites the state of the
retired one. Only the clause of BUNDLE_RETIRED fails, and none does where the slots name bundles
(`lanesBundlesAndElevators_of_slotsNameBundles`). -/
theorem not_lanesBundlesAndElevators : ¬ Obligations.LanesBundlesAndElevators := by
  unfold Obligations.LanesBundlesAndElevators
  intro h
  obtain ⟨-, -, -, -, hretired, -⟩ := h strayState
  obtain ⟨t, ht, hstate, -⟩ := hretired 0 4095 (by decide +kernel) (by decide +kernel) (by decide +kernel) (by decide +kernel)
  have hfour := strayState_bundleRetired
  rw [ht] at hfour
  have heq : 3 = 4 := hstate.symm.trans (Option.some.inj hfour)
  exact absurd heq (by decide)

end Sys2Proof.Machine
end

section
/-!
The bits of register fields, and what an event of an SQC register leaves (R535, R539).
-/
namespace Sys2Proof.Machine

/-! ## Fields of a number -/

theorem testBit_bits (v off len i : Nat) : (bits v off len).testBit i = (decide (i < len) && v.testBit (off + i)) := by
  rw [bits, Nat.testBit_mod_two_pow, Nat.testBit_shiftRight]

/-- A number with a field replaced, as its upper part, the field and its lower part. -/
theorem putBits_eq (v off len x : Nat) :
    putBits v off len x = 2 ^ off * (2 ^ len * (v >>> off >>> len) + x % 2 ^ len) + v % 2 ^ off := by
  have hm : v >>> off = 2 ^ len * (v >>> off >>> len) + v >>> off % 2 ^ len := by
    rw [Nat.shiftRight_eq_div_pow (v >>> off), Nat.div_add_mod]
  have hv : v = 2 ^ off * (2 ^ len * (v >>> off >>> len)) + 2 ^ off * (v >>> off % 2 ^ len) + v % 2 ^ off := by
    rw [← Nat.mul_add, ← hm, Nat.shiftRight_eq_div_pow, Nat.div_add_mod]
  have hs : v - 2 ^ off * (v >>> off % 2 ^ len) = 2 ^ off * (2 ^ len * (v >>> off >>> len)) + v % 2 ^ off := by omega
  rw [putBits, bits, Nat.shiftLeft_eq, Nat.shiftLeft_eq, Nat.mul_comm _ (2 ^ off), hs, Nat.mul_comm _ (2 ^ off), Nat.mul_add]
  omega

theorem testBit_putBits (v off len x i : Nat) :
    (putBits v off len x).testBit i = if off ≤ i ∧ i < off + len then x.testBit (i - off) else v.testBit i := by
  have hr : v % 2 ^ off < 2 ^ off := Nat.mod_lt _ (Nat.two_pow_pos _)
  have hx : x % 2 ^ len < 2 ^ len := Nat.mod_lt _ (Nat.two_pow_pos _)
  rw [putBits_eq, Nat.testBit_two_pow_mul_add _ hr, Nat.testBit_two_pow_mul_add _ hx]
  simp only [Nat.testBit_mod_two_pow, Nat.testBit_shiftRight]
  by_cases h1 : i < off
  · simp [h1, Nat.not_le.mpr h1]
  · by_cases h2 : i - off < len
    · rw [if_neg h1, if_pos h2, if_pos (by omega)]
      simp [h2]
    · rw [if_neg h1, if_neg h2, if_neg (by omega)]
      congr 1
      omega

theorem bits_putBits_same (v off len x : Nat) : bits (putBits v off len x) off len = x % 2 ^ len := by
  refine Nat.eq_of_testBit_eq fun i => ?_
  rw [testBit_bits, testBit_putBits, Nat.testBit_mod_two_pow]
  by_cases h : i < len
  · rw [if_pos (by omega), Nat.add_sub_cancel_left]
  · simp [h]

theorem bits_putBits_other {v off len x o n : Nat} (h : o + n ≤ off ∨ off + len ≤ o) :
    bits (putBits v off len x) o n = bits v o n := by
  refine Nat.eq_of_testBit_eq fun i => ?_
  rw [testBit_bits, testBit_bits, testBit_putBits]
  by_cases hi : i < n
  · rw [if_neg (by omega)]
  · simp [hi]

theorem bit_putBits_one (v i : Nat) : bit (putBits v i 1 1) i = true := by
  rw [bit, testBit_putBits, if_pos (by omega), Nat.sub_self]
  rfl

/-! ## Events of SQC registers -/

theorem sqcEvent_reg (s : State) {fn off bitNo fn' off' : Nat} (ho : off < 2 ^ 25) (ho' : off' < 2 ^ 25)
    (h : ¬(fn' = fn ∧ off' = off)) : (sqcEvent s fn off bitNo).reg fn' off' = s.reg fn' off' := by
  rw [sqcEvent, State.reg_setReg _ _ ho ho', if_neg h]

open Sys2Proof.Claims in
/-- An event of an SQC register is noted: its bit is set and SEQ has advanced (R539). -/
theorem sqcEvent_noted (s : State) (f : Fn) (off : Nat) {bitNo : Nat} (hb : 16 ≤ bitNo) :
    Noted s (sqcEvent s f.val off bitNo) f off bitNo := by
  unfold Noted
  rw [sqcEvent, State.reg_setReg_same]
  exact ⟨bit_putBits_one _ _, (bits_putBits_other (by omega)).trans (bits_putBits_same ..)⟩

end Sys2Proof.Machine
end

section
/-!
O26: the doorbells of the queues (R399, R403).
-/
namespace Sys2Proof.Machine
open Sys2Proof.Claims

/-! ## Function pages -/

/-- A write to the page of a function that is there and acts takes effect. -/
theorem fnWrite_acts {s t : State} {f : Fn} (h : PageActs s f) : fnWrite s f t = .next t := by
  obtain ⟨hl, hp, ha⟩ := h
  simp [fnWrite, guarded, hl, hp, ha]

theorem fnWrite_idle {s t : State} {f : Fn} (hl : s.host.linkUp = true) (hp : fnPresent s f = true)
    (ha : fnActs s f = false) : fnWrite s f t = .next s := by
  simp [fnWrite, guarded, hl, hp, ha]

theorem ite_of_true_false {b : Bool} {s t : State} (h : b = true) : (if b = false then s else t) = t := by simp [h]

/-! ## SQ_TAIL -/

theorem State.reg_at (s : State) (ns fn off : Nat) : (s.at ns).reg fn off = s.reg fn off := rfl

theorem setTail_reg (s : State) (f : Fn) (q : Fin 64) (tail ns : Nat) :
    (setTail s f q tail ns).reg f.val (sqOff q.val + 12) = putBits (s.reg f.val (sqOff q.val + 12)) 16 16 tail := by
  simp only [setTail, State.reg, State.setReg, sget_sset_same]

/-- A new tail makes every entry from HEAD up to it visible. -/
theorem setTail_visible (s : State) (f : Fn) (q : Fin 64) (tail ns k : Nat)
    (hk : k < (tail + 2 ^ ctlLog2 (s.reg f.val (sqOff q.val + 8)) -
        bits (s.reg f.val (sqOff q.val + 12)) 0 16 % 2 ^ ctlLog2 (s.reg f.val (sqOff q.val + 8))) %
      2 ^ ctlLog2 (s.reg f.val (sqOff q.val + 8))) :
    ∃ d ∈ (setTail s f q tail ns).sage.doorbells, ofQueue f q d = true ∧
      d.idx = (bits (s.reg f.val (sqOff q.val + 12)) 0 16 + k) % 2 ^ ctlLog2 (s.reg f.val (sqOff q.val + 8)) := by
  unfold setTail
  dsimp only
  generalize hi : (bits (s.reg f.val (sqOff q.val + 12)) 0 16 + k) % 2 ^ ctlLog2 (s.reg f.val (sqOff q.val + 8)) = i
  generalize s.sage.doorbells.filter _ = kept
  by_cases hseen : (kept.any fun d => ofQueue f q d && decide (d.idx = i)) = true
  · obtain ⟨d, hd, hq⟩ := List.any_eq_true.mp hseen
    rw [Bool.and_eq_true, decide_eq_true_eq] at hq
    exact ⟨d, List.mem_append_left _ hd, hq⟩
  · refine ⟨⟨f, q, i, ns⟩, List.mem_append_right _ (List.mem_map.mpr ⟨i, ?_, rfl⟩), by simp [ofQueue], rfl⟩
    rw [List.mem_filter, List.mem_map]
    exact ⟨⟨k, List.mem_range.mpr hk, hi⟩, by simpa using hseen⟩

/-- What a doorbell at a time not before the present does on a page that acts (R399). -/
theorem execSqTail_acts {f : Fn} {q : Fin 64} {v : Word} {ns : Nat} {s : State} (hn : s.now ≤ ns) (h : PageActs s f) :
    exec (.sqTail f q v ns) s = .next (
      if ctlEnable (s.reg f.val (sqOff q.val + 8)) = false then (s.at ns).bump 0x7050 8 f.val 1
      else if 2 ^ ctlLog2 (s.reg f.val (sqOff q.val + 8)) ≤ v.toNat % 65536 then
        sqcEvent (s.at ns) f.val (sqOff q.val + 16) 17
      else setTail (s.at ns) f q (v.toNat % 65536) ns) := by
  have hp : PageActs (s.at ns) f := h
  exact (if_pos (decide_eq_true hn)).trans (fnWrite_acts hp)

theorem execSqTail_idle {f : Fn} {q : Fin 64} {v : Word} {ns : Nat} {s : State} (hn : s.now ≤ ns)
    (hl : s.host.linkUp = true) (hp : fnPresent s f = true) (ha : fnActs s f = false) :
    exec (.sqTail f q v ns) s = .next (s.at ns) :=
  (if_pos (decide_eq_true hn)).trans (fnWrite_idle (s := s.at ns) hl hp ha)

/-! ## CQ_HEAD and EVQ_HEAD -/

/-- Both head doorbells write the head of their queue on a page that acts (R403). -/
theorem execHead_acts {f : Fn} {v : Word} {s : State} {q : Nat} {i : Instr}
    (hi : (i = .evqHead f v ∧ q = 64) ∨ (∃ n : Fin 64, i = .cqHead f n v ∧ q = n.val)) (h : PageActs s f) :
    exec i s = .next (writeHead s f q v) := by
  rcases hi with ⟨rfl, rfl⟩ | ⟨n, rfl, rfl⟩ <;> exact fnWrite_acts h

theorem writeHead_eq (s : State) (f : Fn) (q : Nat) (v : Word) : writeHead s f q v =
    if ctlEnable (s.reg f.val (cqOff q + 8)) = false then s.bump 0x7050 8 f.val 1
    else if 2 ^ ctlLog2 (s.reg f.val (cqOff q + 8)) ≤ v.toNat % 65536 then sqcEvent s f.val (cqStatus q) 17
    else setCqHead s f.val q (v.toNat % 65536) := rfl

@[simp] theorem cqHead_setCqHead (s : State) (f q v : Nat) : cqHead (setCqHead s f q v) f q = v := by
  simp [cqHead, setCqHead]

/-- Settles O26: each doorbell is one of three cases, read off the row's equation. -/
theorem doorbells : Obligations.Doorbells := by
  refine ⟨fun f q v ns s => ?_, fun f v s q i hi h => ?_⟩
  · intro off ctl size head tail hn hl hp
    refine ⟨fun ha => execSqTail_idle hn hl hp ha, fun ha => ⟨fun he => ?_, fun he hle => ?_, fun he hlt => ?_⟩⟩
    all_goals rw [execSqTail_acts hn ⟨hl, hp, ha⟩]
    · rw [if_pos he]
    · rw [ite_of_true_false he, if_pos hle]
      have noted := sqcEvent_noted (s.at ns) f (sqOff q.val + 16) (bitNo := 17) (by decide)
      rw [Noted, State.reg_at] at noted
      exact ⟨_, rfl, noted, rfl, rfl⟩
    · rw [ite_of_true_false he, if_neg (Nat.not_le.mpr hlt)]
      have visible := setTail_visible (s.at ns) f q tail ns
      have hreg := setTail_reg (s.at ns) f q tail ns
      simp only [State.reg_at] at visible hreg
      refine ⟨_, rfl, ?_, ?_, rfl, visible⟩
      · rw [hreg, bits_putBits_same]
        exact Nat.mod_mod_of_dvd _ (dvd_refl (2 ^ 16))
      · rw [hreg, bits_putBits_other (by decide)]
  · intro ctl n
    rw [execHead_acts hi h, writeHead_eq]
    refine ⟨fun he => by rw [if_pos he], fun he hle => ?_, fun he hlt => ?_⟩
    · rw [ite_of_true_false he, if_pos hle]
      exact ⟨_, rfl, sqcEvent_noted s f (cqStatus q) (by decide), sqcEvent_host .., sqcEvent_dict ..⟩
    · rw [ite_of_true_false he, if_neg (Nat.not_le.mpr hlt)]
      exact ⟨_, rfl, cqHead_setCqHead s f.val q _, rfl, rfl⟩

end Sys2Proof.Machine
end

section
/-!
O36: what reset leaves (R39, R326, R395, R402, R416, R436).
-/
namespace Sys2Proof.Machine

/-! ## The registers at reset -/

theorem reg_reset (f off : Nat) : State.reset.reg f off = regDefault (rkey f off) := rfl

theorem rkey_fn {f off : Nat} (h : off < 2 ^ 25) : rkey f off / 2 ^ 25 = f := by
  unfold rkey
  omega

theorem rkey_off {f off : Nat} (h : off < 2 ^ 25) : rkey f off % 2 ^ 25 = off := by
  unfold rkey
  omega

/-- CQ_TAIL resets to PHASE 1 at entry 0 (R402). -/
theorem regDefault_cqTail (f : Nat) (q : Fin 64) : regDefault (rkey f (cqOff q.val + 12)) = 0x10000 := by
  have hq := q.isLt
  have ho : cqOff q.val + 12 = 0x180C + 32 * q.val := by
    rw [cqOff, if_neg (by omega)]
    omega
  have hr : rkey f (cqOff q.val + 12) % 2 ^ 25 = 0x180C + 32 * q.val := by rw [rkey_off (by omega), ho]
  rw [regDefault, hr, if_pos (by omega)]

/-- A vector of the PF resets masked (R395). -/
theorem regDefault_msix (v : Fin 2048) : regDefault (rkey 0 (msixEntry 0 v.val + 12)) = 1 := by
  have hv := v.isLt
  have ho : msixEntry 0 v.val + 12 = 0x1000C + 16 * v.val := by
    rw [msixEntry, if_pos rfl]
    omega
  have hr : rkey 0 (msixEntry 0 v.val + 12) % 2 ^ 25 = 0x1000C + 16 * v.val := by rw [rkey_off (by omega), ho]
  have hf : rkey 0 (msixEntry 0 v.val + 12) / 2 ^ 25 = 0 := rkey_fn (by omega)
  rw [regDefault, hr, hf, if_neg (by omega), if_neg (by omega), if_pos (by omega)]

/-! ## The dictionary at reset -/

theorem fnState_reset (f : Fn) : State.reset.fnState f.val = 0 := by
  revert f
  decide +kernel

theorem moduleState_reset : State.reset.moduleState = 5 := by decide +kernel

theorem tick_reset : State.reset.tick = 0 := by decide +kernel

/-- Settles O36: the empty tables of `State.reset` read as the defaults of the registers and of the dictionary. -/
theorem resetLeavesTheBlockIdle : Obligations.ResetLeavesTheBlockIdle := by
  refine ⟨rfl, rfl, rfl, rfl, rfl, fun _ => rfl, fnState_reset, moduleState_reset, tick_reset, fun f q => ?_, fun v => ?_⟩
  · rw [reg_reset, regDefault_cqTail]
    rfl
  · rw [reg_reset, regDefault_msix]
    rfl

end Sys2Proof.Machine
end

section
/-!
O27: the control registers of the queues and the read of a descriptor (R398, R400, R402, R405).
-/
namespace Sys2Proof.Machine
open Sys2Proof.Claims

/-! ## What records and samples leave unchanged -/

/-- Two states that differ in the management state and the dictionary alone. -/
def RecordsOnly (s t : State) : Prop := ∃ m d, t = { s with mgmt := m, dict := d }

namespace RecordsOnly
variable {s t u : State}

theorem refl : RecordsOnly s s := ⟨_, _, rfl⟩

theorem trans (h : RecordsOnly s t) (k : RecordsOnly t u) : RecordsOnly s u := by
  obtain ⟨m, d, rfl⟩ := h
  obtain ⟨m', d', rfl⟩ := k
  exact ⟨m', d', rfl⟩

theorem setObj (s : State) (i sub e v : Nat) : RecordsOnly s (s.setObj i sub e v) := ⟨_, _, rfl⟩

theorem withMgmt (s : State) (m : MgmtState) : RecordsOnly s { s with mgmt := m } := ⟨_, _, rfl⟩

/-- A fold of functions each of which leaves all else unchanged. -/
theorem foldl {α : Type} (f : State → α → State) (hf : ∀ s a, RecordsOnly s (f s a)) (l : List α) (s : State) :
    RecordsOnly s (l.foldl f s) := by
  induction l generalizing s with
  | nil => exact refl
  | cons a l ih => exact (hf s a).trans (ih _)

/-- A log record leaves all but the pending records and its own objects unchanged. -/
theorem logRecord (s : State) (r : LogRec) : RecordsOnly s (Machine.logRecord s r) := by
  unfold Machine.logRecord
  dsimp only
  split <;> exact ⟨_, _, rfl⟩

theorem regs (h : RecordsOnly s t) : t.regs = s.regs := by
  obtain ⟨m, d, rfl⟩ := h
  rfl

theorem host (h : RecordsOnly s t) : t.host = s.host := by
  obtain ⟨m, d, rfl⟩ := h
  rfl

theorem sage (h : RecordsOnly s t) : t.sage = s.sage := by
  obtain ⟨m, d, rfl⟩ := h
  rfl

theorem power (h : RecordsOnly s t) : t.power = s.power := by
  obtain ⟨m, d, rfl⟩ := h
  rfl

theorem mem (h : RecordsOnly s t) : t.mem = s.mem := by
  obtain ⟨m, d, rfl⟩ := h
  rfl

theorem cores (h : RecordsOnly s t) : t.cores = s.cores := by
  obtain ⟨m, d, rfl⟩ := h
  rfl

theorem ctl (h : RecordsOnly s t) : t.ctl = s.ctl := by
  obtain ⟨m, d, rfl⟩ := h
  rfl

theorem now (h : RecordsOnly s t) : t.now = s.now := by
  obtain ⟨m, d, rfl⟩ := h
  rfl

end RecordsOnly

theorem queueFault_regs (s : State) (f : Fn) (code q cause addr detail stepId : Nat) :
    (queueFault s f code q cause addr detail stepId).regs = s.regs := (RecordsOnly.logRecord ..).regs

theorem queueFault_queueStopped (s : State) (f : Fn) (code q cause addr detail stepId fn k : Nat) :
    queueStopped (queueFault s f code q cause addr detail stepId) fn k = queueStopped s fn k := by
  have h : (queueFault s f code q cause addr detail stepId).host.stopped = s.host.stopped := by
    simp only [queueFault, fnRecord, queueEvent, (RecordsOnly.logRecord _ _).host]
  rw [queueStopped, queueStopped, h]

theorem State.reg_of_regs {s t : State} (h : t.regs = s.regs) (fn off : Nat) : t.reg fn off = s.reg fn off := by
  rw [State.reg, State.reg, h]

@[simp] theorem setStopped_regs (s : State) (f k : Nat) (b : Bool) : (setStopped s f k b).regs = s.regs := rfl

@[simp] theorem queueStopped_setStopped (s : State) (f k : Nat) (b : Bool) : queueStopped (setStopped s f k b) f k = b := by
  simp [queueStopped, setStopped]

/-! ## The words that the control registers store -/

theorem bits_eq_div (v off len : Nat) : bits v off len = v / 2 ^ off % 2 ^ len := by
  rw [bits, Nat.shiftRight_eq_div_pow]

theorem bit_eq_div (v i : Nat) : bit v i = decide (v / 2 ^ i % 2 = 1) := Nat.testBit_eq_decide_div_mod_eq

/-- The word that SQ_CTL stores: LOG2_SIZE and ENABLE (R398). -/
def sqWord (new : Nat) : Nat := putBits (putBits 0 0 5 (bits new 0 5)) 8 1 (bits new 8 1)

theorem sqWord_eq (new : Nat) : sqWord new = new % 32 + if bit new 8 then 256 else 0 := by
  have h : sqWord new = new % 32 + bits new 8 1 * 256 := by
    simp only [sqWord, putBits_eq, bits_eq_div, Nat.shiftRight_eq_div_pow]
    omega
  rw [h, bit_eq_div, bits_eq_div]
  split <;> rename_i hb <;> simp only [decide_eq_true_eq] at hb <;> omega

theorem ctlLog2_sqWord (new : Nat) : ctlLog2 (sqWord new) = new % 32 := by
  rw [sqWord_eq, ctlLog2, bits_eq_div]
  split <;> omega

theorem ctlEnable_sqWord (new : Nat) : ctlEnable (sqWord new) = bit new 8 := by
  rw [sqWord_eq, ctlEnable, bit_eq_div]
  split <;> rename_i hb <;> simp [hb] <;> omega

/-- The word that CQ_CTL and EVQ_CTL store: the written one without the bits that stand for nothing (R402, R405). -/
def cqWord (new : Nat) : Nat := bits new 0 28 - bits (bits new 0 28) 5 3 * 32

theorem cqWord_eq (new : Nat) : cqWord new = new % 32 + bits new 8 20 * 256 := by
  simp only [cqWord, bits_eq_div]
  omega

theorem ctlLog2_cqWord (new : Nat) : ctlLog2 (cqWord new) = new % 32 := by
  rw [cqWord_eq, ctlLog2, bits_eq_div]
  omega

theorem ctlVector_cqWord (new : Nat) : ctlVector (cqWord new) = bits new 9 11 := by
  rw [cqWord_eq, ctlVector]
  simp only [bits_eq_div]
  omega

theorem ctlEnable_cqWord (new : Nat) : ctlEnable (cqWord new) = bit new 8 := by
  rw [cqWord_eq, ctlEnable]
  simp only [bit_eq_div, bits_eq_div, decide_eq_decide]
  omega

/-! ## SQ_CTL, CQ_CTL and EVQ_CTL -/

/-- The register that a control write does not take (R398). -/
def SqBad (s : State) (f : Fn) (new : Nat) : Prop :=
  bit new 8 = true ∧ (new % 32 < 4 ∨ 16 < new % 32 ∨ ctxSet s f.val = false)

/-- Enables a submission ring from its start (R398). -/
def startSq (s : State) (f : Fn) (q : Fin 64) : State :=
  let s := setStopped (s.setReg f.val (sqOff q.val + 12) 0) f.val q.val false
  { s with sage := { s.sage with doorbells := s.sage.doorbells.filter fun d => !ofQueue f q d } }

/-- What SQ_CTL leaves on a page that acts. -/
theorem execSqCtl_acts {f : Fn} {q : Fin 64} {v : Word} {be : BitVec 4} {s : State} (h : PageActs s f) :
    let old := s.reg f.val (sqOff q.val + 8)
    let new := mergeBe old v be
    let stored := s.setReg f.val (sqOff q.val + 8) (sqWord new)
    (SqBad s f new → exec (.sqCtl f q v be) s = .next (sqcEvent s f.val (sqOff q.val + 16) 18)) ∧
    (¬SqBad s f new → exec (.sqCtl f q v be) s =
      .next (if bit new 8 && !bit old 8 then startSq stored f q else stored)) := by
  intro old new stored
  have he : exec (.sqCtl f q v be) s = .next (
      if ctlEnable (sqWord new) && (decide (ctlLog2 (sqWord new) < 4) || decide (16 < ctlLog2 (sqWord new)) ||
        !ctxSet s f.val) then sqcEvent s f.val (sqOff q.val + 16) 18
      else if ctlEnable (sqWord new) && !ctlEnable old then startSq stored f q else stored) := fnWrite_acts h
  rw [ctlEnable_sqWord, ctlLog2_sqWord] at he
  refine ⟨fun hb => he.trans ?_, fun hb => he.trans ?_⟩
  · rw [if_pos (by simpa [SqBad, or_assoc] using hb)]
  · rw [if_neg (by simpa [SqBad, or_assoc] using hb)]
    rfl

/-- Two registers of one function are apart. -/
theorem State.reg_setReg_other (s : State) {fn off off' : Nat} (v : Nat) (h : off' ≠ off) :
    (s.setReg fn off v).reg fn off' = s.reg fn off' := by
  have hk : rkey fn off' ≠ rkey fn off := fun he => h (Nat.add_left_cancel he)
  rw [State.reg, State.reg]
  exact sget_sset_other _ _ _ hk

theorem startSq_regs (s : State) (f : Fn) (q : Fin 64) :
    (startSq s f q).regs = sset regDefault s.regs (rkey f.val (sqOff q.val + 12)) 0 := rfl

theorem startSq_reg_tail (s : State) (f : Fn) (q : Fin 64) : (startSq s f q).reg f.val (sqOff q.val + 12) = 0 := by
  rw [State.reg, startSq_regs, sget_sset_same]

theorem startSq_reg_ctl (s : State) (f : Fn) (q : Fin 64) :
    (startSq s f q).reg f.val (sqOff q.val + 8) = s.reg f.val (sqOff q.val + 8) := by
  rw [State.reg, startSq_regs]
  exact State.reg_setReg_other s 0 (by omega)

theorem startSq_stopped (s : State) (f : Fn) (q : Fin 64) :
    (startSq s f q).host.stopped = sset (fun _ => false) s.host.stopped (f.val * 256 + q.val) false := by
  unfold startSq setStopped
  rw [State.setReg_host]

theorem startSq_queueStopped (s : State) (f : Fn) (q : Fin 64) : queueStopped (startSq s f q) f.val q.val = false := by
  rw [queueStopped, startSq_stopped]
  exact sget_sset_same ..

theorem startSq_doorbells {s : State} {f : Fn} {q : Fin 64} {d : Doorbell} (hd : d ∈ (startSq s f q).sage.doorbells) :
    ofQueue f q d = false := by
  simpa using (List.mem_filter.mp hd).2

/-- What makes a write to CQ_CTL or EVQ_CTL ignored (R402, R405). -/
def CqBad (s : State) (f : Fn) (q new : Nat) : Prop :=
  bit new 8 = true ∧ (new % 32 < 4 ∨ (if q = 64 then 12 else 16) < new % 32 ∨ vectorCount f.val ≤ bits new 9 11 ∨
    ctxSet s f.val = false)

/-- Enables a completion ring or the event ring from its start (R402, R405). -/
def startCq (s : State) (f : Fn) (q : Nat) : State :=
  setCqHead (setStopped (s.setReg f.val (cqOff q + 12) 0x10000) f.val (64 + q) false) f.val q 0

/-- What CQ_CTL and EVQ_CTL leave on a page that acts. -/
theorem execCqCtl_acts {f : Fn} {v : Word} {be : BitVec 4} {s : State} {q : Nat} {i : Instr}
    (hi : (i = .evqCtl f v be ∧ q = 64) ∨ (∃ n : Fin 64, i = .cqCtl f n v be ∧ q = n.val)) (h : PageActs s f) :
    let old := s.reg f.val (cqOff q + 8)
    let new := mergeBe old v be
    let stored := s.setReg f.val (cqOff q + 8) (cqWord new)
    (CqBad s f q new → exec i s = .next (sqcEvent s f.val (cqStatus q) 18)) ∧
    (¬CqBad s f q new → exec i s = .next (if bit new 8 && !bit old 8 then startCq stored f q else stored)) := by
  intro old new stored
  have hw : exec i s = .next (writeCqCtl s f q v be) := by
    rcases hi with ⟨rfl, rfl⟩ | ⟨n, rfl, rfl⟩ <;> exact fnWrite_acts h
  have he : writeCqCtl s f q v be =
      if ctlEnable (cqWord new) && (decide (ctlLog2 (cqWord new) < 4) ||
        decide ((if q = 64 then 12 else 16) < ctlLog2 (cqWord new)) ||
        decide (vectorCount f.val ≤ ctlVector (cqWord new)) || !ctxSet s f.val) then sqcEvent s f.val (cqStatus q) 18
      else if ctlEnable (cqWord new) && !ctlEnable old then startCq stored f q else stored := rfl
  rw [ctlEnable_cqWord, ctlLog2_cqWord, ctlVector_cqWord] at he
  refine ⟨fun hb => hw.trans ?_, fun hb => hw.trans ?_⟩
  · rw [he, if_pos (by simpa [CqBad, or_assoc] using hb)]
  · rw [he, if_neg (by simpa [CqBad, or_assoc] using hb)]
    rfl

theorem startCq_regs (s : State) (f : Fn) (q : Nat) :
    (startCq s f q).regs = sset regDefault s.regs (rkey f.val (cqOff q + 12)) 0x10000 := rfl

theorem startCq_reg_tail (s : State) (f : Fn) (q : Nat) : (startCq s f q).reg f.val (cqOff q + 12) = 0x10000 := by
  rw [State.reg, startCq_regs, sget_sset_same]

theorem startCq_reg_ctl (s : State) (f : Fn) (q : Nat) :
    (startCq s f q).reg f.val (cqOff q + 8) = s.reg f.val (cqOff q + 8) := by
  rw [State.reg, startCq_regs]
  exact State.reg_setReg_other s 0x10000 (by omega)

theorem startCq_stopped (s : State) (f : Fn) (q : Nat) :
    (startCq s f q).host.stopped = sset (fun _ => false) s.host.stopped (f.val * 256 + (64 + q)) false := by
  unfold startCq setCqHead setStopped
  rw [State.setReg_host]

theorem startCq_queueStopped (s : State) (f : Fn) (q : Nat) : queueStopped (startCq s f q) f.val (64 + q) = false := by
  rw [queueStopped, startCq_stopped]
  exact sget_sset_same ..

/-- A queue's STATUS lies apart from its CTL. -/
theorem cqStatus_ne_ctl (q : Nat) : cqOff q + 8 ≠ cqStatus q := by
  unfold cqOff cqStatus
  split <;> omega

theorem sqcEvent_reg_other (s : State) {fn off off' bitNo : Nat} (h : off' ≠ off) :
    (sqcEvent s fn off bitNo).reg fn off' = s.reg fn off' := State.reg_setReg_other _ _ h

/-! ## DESCRIPTOR_READ -/

/-- The entry that DESCRIPTOR_READ takes into the step store (R400). -/
def takeEntry (s : State) (f : Fn) (q : Fin 64) (d : Doorbell) (v : Nat) (bad : Bool) : State :=
  let off := sqOff q.val
  let s := s.setReg f.val (off + 12) (putBits (s.reg f.val (off + 12)) 0 16 ((d.idx + 1) % 2 ^ ctlLog2 (s.reg f.val (off + 8))))
  ({ s with sage := { s.sage with
    doorbells := s.sage.doorbells.filter fun x => !(ofQueue f q x && decide (x.idx = d.idx))
    lastRead := sset (fun _ => 0) s.sage.lastRead (f.val * 64 + q.val) (s.stamp + 1)
    steps := s.sage.steps ++ [newStep s f q v d.ns (if bad then some 0x24 else none)] } }).tickStamp

theorem execDescriptorRead_ok {f : Fn} {q : Fin 64} {s : State} {d : Doorbell} {v : Nat} {bad : Bool}
    (hd : nextDoorbell s f q = some d) (hm : mayRead s f q = true)
    (hr : (vread s (ownAccess f) (ringBase s f.val (sqOff q.val) + 128 * d.idx) 128).1 = .ok (v, bad)) :
    exec (.descriptorRead f q) s = .next (takeEntry
      (vread s (ownAccess f) (ringBase s f.val (sqOff q.val) + 128 * d.idx) 128).2 f q d v bad) := by
  have he : exec (.descriptorRead f q) s = execDescriptorRead f q s := rfl
  rw [he, execDescriptorRead, hd]
  dsimp only
  rw [if_pos hm, hr]
  rfl

theorem execDescriptorRead_unmapped {f : Fn} {q : Fin 64} {s : State} {d : Doorbell} {va x : Nat}
    (hd : nextDoorbell s f q = some d) (hm : mayRead s f q = true)
    (hr : (vread s (ownAccess f) (ringBase s f.val (sqOff q.val) + 128 * d.idx) 128).1 = .error (.unmapped va x)) :
    exec (.descriptorRead f q) s = .next (queueFault (sqcEvent (setStopped
      (vread s (ownAccess f) (ringBase s f.val (sqOff q.val) + 128 * d.idx) 128).2 f.val q.val true)
      f.val (sqOff q.val + 16) 16) f 1 q.val 8 va x 0) := by
  have he : exec (.descriptorRead f q) s = execDescriptorRead f q s := rfl
  rw [he, execDescriptorRead, hd]
  dsimp only
  rw [if_pos hm, hr]

theorem takeEntry_reg (s : State) (f : Fn) (q : Fin 64) (d : Doorbell) (v : Nat) (bad : Bool) :
    (takeEntry s f q d v bad).reg f.val (sqOff q.val + 12) = putBits (s.reg f.val (sqOff q.val + 12)) 0 16
      ((d.idx + 1) % 2 ^ ctlLog2 (s.reg f.val (sqOff q.val + 8))) := by
  simp only [takeEntry, State.reg, State.setReg, State.tickStamp, sget_sset_same]

theorem takeEntry_doorbells {s : State} {f : Fn} {q : Fin 64} {d e : Doorbell} {v : Nat} {bad : Bool}
    (he : e ∈ (takeEntry s f q d v bad).sage.doorbells) : ¬(ofQueue f q e = true ∧ e.idx = d.idx) := by
  intro hq
  have hn := (List.mem_filter.mp he).2
  simp [hq.1, hq.2] at hn

theorem stopSq_noted (s : State) (f : Fn) (q : Fin 64) (va x : Nat) :
    let t := queueFault (sqcEvent (setStopped s f.val q.val true) f.val (sqOff q.val + 16) 16) f 1 q.val 8 va x 0
    queueStopped t f.val q.val = true ∧ Noted s t f (sqOff q.val + 16) 16 := by
  intro t
  have hr (o : Nat) : t.reg f.val o = (sqcEvent (setStopped s f.val q.val true) f.val (sqOff q.val + 16) 16).reg f.val o :=
    State.reg_of_regs (queueFault_regs ..) ..
  have hs (o : Nat) : (setStopped s f.val q.val true).reg f.val o = s.reg f.val o := State.reg_of_regs (setStopped_regs ..) ..
  have hf : (sqcEvent (setStopped s f.val q.val true) f.val (sqOff q.val + 16) 16).host =
    (setStopped s f.val q.val true).host := sqcEvent_host ..
  constructor
  · rw [queueFault_queueStopped, queueStopped, hf]
    exact queueStopped_setStopped s f.val q.val true
  · have noted := sqcEvent_noted (setStopped s f.val q.val true) f (sqOff q.val + 16) (bitNo := 16) (by decide)
    rw [Noted, hs, ← hr] at noted
    exact noted

/-- Settles O27: each control write is ignored, stored, or starts a ring; a descriptor read takes the entry or stops. -/
theorem queuesAndDescriptors : Obligations.QueuesAndDescriptors := by
  refine ⟨fun f v be s h => ⟨fun q => ?_, fun q i hi => ?_⟩, fun f q s d => ?_⟩
  · intro off old new bad
    obtain ⟨ignored, taken⟩ := execSqCtl_acts (q := q) (v := v) (be := be) h
    by_cases hb : bad
    · exact ⟨_, ignored hb, fun _ => ⟨sqcEvent_reg_other s (by omega), sqcEvent_noted s f _ (by decide), sqcEvent_sage ..⟩,
        fun hn => absurd hb hn, fun hn => absurd hb hn⟩
    · refine ⟨_, taken hb, fun hy => absurd hy hb, fun _ => ?_, fun _ hnew hold => ?_⟩
      · rw [apply_ite (fun t : State => t.reg f.val (off + 8)), startSq_reg_ctl, State.reg_setReg_same, ite_self, sqWord_eq]
      · rw [if_pos (by simp [new, old, off] at hnew hold ⊢; exact ⟨hnew, hold⟩)]
        exact ⟨startSq_reg_tail .., startSq_queueStopped .., fun _ => startSq_doorbells⟩
  · intro off old new most bad
    obtain ⟨ignored, taken⟩ := execCqCtl_acts hi h
    by_cases hb : bad
    · exact ⟨_, ignored hb, fun _ => ⟨sqcEvent_reg_other s (cqStatus_ne_ctl q), sqcEvent_noted s f _ (by decide)⟩,
        fun hn => absurd hb hn, fun hn => absurd hb hn⟩
    · refine ⟨_, taken hb, fun hy => absurd hy hb, fun _ => ?_, fun _ hnew hold => ?_⟩
      · rw [apply_ite (fun t : State => t.reg f.val (off + 8)), startCq_reg_ctl, State.reg_setReg_same, ite_self, cqWord_eq]
      · rw [if_pos (by simp [new, old, off] at hnew hold ⊢; exact ⟨hnew, hold⟩)]
        exact ⟨startCq_reg_tail .., startCq_queueStopped .., cqHead_setCqHead ..⟩
  · intro off r hd hm
    refine ⟨fun v bad hr => ⟨_, _, execDescriptorRead_ok hd hm hr, ?_, fun _ => takeEntry_doorbells, rfl, rfl, rfl, rfl, rfl, rfl, rfl⟩,
      fun va x hr => ?_⟩
    · exact (congrArg (bits · 0 16) (takeEntry_reg ..)).trans (bits_putBits_same ..)
    · exact ⟨_, execDescriptorRead_unmapped hd hm hr, stopSq_noted ..⟩

end Sys2Proof.Machine
end

section
/-!
O28: the completion of a step (R72 to R75, R403).
-/
namespace Sys2Proof.Machine
open Sys2Proof.Claims

/-! ## The completion entry -/

theorem bits_lt (v off len : Nat) : bits v off len < 2 ^ len := Nat.mod_lt _ (Nat.two_pow_pos _)

theorem statusCode_lt (st : StepStatus) : statusCode st < 2 ^ 8 := by cases st <;> decide

theorem Step.waitTicks_lt (t : Step) : t.waitTicks < 2 ^ 32 := by
  unfold Step.waitTicks
  split <;> omega

/-- The parts of a number below and from a bit on. -/
theorem bits_add_two_pow_mul {a off : Nat} (b len : Nat) (ha : a < 2 ^ off) : bits (a + 2 ^ off * b) off len = b % 2 ^ len := by
  rw [bits_eq_div, Nat.add_mul_div_left _ _ (Nat.two_pow_pos _), Nat.div_eq_of_lt ha, Nat.zero_add]

/-- The completion entry holds each field of R72 in its place. -/
theorem completionEntry_fields (s : State) (x : Step) :
    let e := completionEntry s x
    let start := x.start.getD x.lastTick
    bits e 0 64 = x.raw.toNat % 2 ^ 64 ∧ bits e 64 8 = statusCode x.status ∧ bits e 72 1 = cqPhase s x.fn.val x.cq ∧
      bits e 73 7 = 0 ∧ bits e 80 16 = min x.preempts 65535 ∧ bits e 96 32 = x.waitTicks ∧
      bits e 128 64 = start % 2 ^ 64 ∧
      bits e 192 32 = (if x.start.isSome then min (x.lastTick - start + 1) (2 ^ 32 - 1) else 0) ∧
      bits e 224 32 = x.errRef % 2 ^ 32 ∧ e < 2 ^ 256 := by
  intro e start
  have hid : x.id < 2 ^ 64 := bits_lt ..
  have heid : x.id = x.raw.toNat % 2 ^ 64 := by rw [Step.id, bits_eq_div, Nat.pow_zero, Nat.div_one]
  have hcode := statusCode_lt x.status
  have hphase : cqPhase s x.fn.val x.cq < 2 := bits_lt ..
  have hwait := x.waitTicks_lt
  have he : e = x.id + 2 ^ 64 * statusCode x.status + 2 ^ 72 * cqPhase s x.fn.val x.cq + 2 ^ 80 * min x.preempts 0xFFFF +
    2 ^ 96 * x.waitTicks + 2 ^ 128 * (start % 2 ^ 64) +
    2 ^ 192 * (if x.start.isSome then min (x.lastTick - start + 1) (2 ^ 32 - 1) else 0) + 2 ^ 224 * (x.errRef % 2 ^ 32) := rfl
  have hused : (if x.start.isSome then min (x.lastTick - start + 1) (2 ^ 32 - 1) else 0) < 2 ^ 32 := by
    split
    · exact Nat.lt_of_le_of_lt (Nat.min_le_right ..) (by decide)
    · exact Nat.two_pow_pos _
  clear_value e start
  subst he
  rw [← heid]
  generalize (if x.start.isSome then min (x.lastTick - start + 1) (2 ^ 32 - 1) else 0) = used at *
  simp only [bits_eq_div]
  refine ⟨?_, ?_, ?_, ?_, ?_, ?_, ?_, ?_, ?_, ?_⟩ <;> omega

/-! ## What ends a step -/

theorem RecordsOnly.monOne (s : State) (i : Nat) (v : FVal) : RecordsOnly s (Machine.monOne s i v) := by
  unfold Machine.monOne
  dsimp only
  split
  · exact ((RecordsOnly.setObj ..).trans (RecordsOnly.withMgmt ..)).trans (RecordsOnly.logRecord ..)
  · exact RecordsOnly.setObj ..

/-- A sample changes the records of the monitors alone (R451). -/
theorem RecordsOnly.monitor (s : State) (source inst : Nat) (v : FVal) : RecordsOnly s (Machine.monitor s source inst v) := by
  refine RecordsOnly.foldl _ (fun s i => ?_) _ s
  dsimp only
  split
  · exact RecordsOnly.monOne ..
  · exact RecordsOnly.refl

theorem countEnd_mem (s : State) (t : Step) : (countEnd s t).mem = s.mem := by
  unfold countEnd
  dsimp only
  split <;> split <;> rfl

theorem markEnded_mem (s : State) (t : Step) : (markEnded s t).mem = s.mem := countEnd_mem s t

theorem countEnd_steps (s : State) (t : Step) : (countEnd s t).sage.steps = s.sage.steps := by
  unfold countEnd
  dsimp only
  split <;> split <;> rfl

theorem findStep_key {s : State} {key : Nat} {x : Step} (h : findStep s key = some x) : x.key = key := by
  simpa using List.find?_some h

/-- A step that is marked ended has ended. -/
theorem findStep_markEnded {s : State} {key : Nat} {x y : Step} (hx : findStep s key = some x)
    (hy : findStep (markEnded s x) key = some y) : y.key = key ∧ y.phase = .ended := by
  refine ⟨findStep_key hy, ?_⟩
  have hc : findStep (countEnd s x) key = some x := by rw [findStep, countEnd_steps]; exact hx
  have hu : findStep (markEnded s x) key = _ := findStep_updStep (countEnd s x) x.key key (fun _ => rfl)
  rw [hu, hc, Option.map_some, if_pos rfl] at hy
  exact (Option.some.inj hy) ▸ rfl

/-! ## The interrupt of a queue -/

/-- A vector's message reaches no register but the pending bits (R404). -/
theorem sendVector_reg (s : State) (f : Fn) {v off : Nat} (h : off ≠ pbaWord f.val v) :
    (sendVector s f v).reg f.val off = s.reg f.val off := by
  unfold sendVector
  split
  · exact State.reg_setReg_other _ _ h
  · rfl

theorem queueIrq_reg (s : State) (f : Fn) {q off : Nat} (h : ∀ v < 2048, off ≠ pbaWord f.val v) :
    (queueIrq s f q).reg f.val off = s.reg f.val off := by
  unfold queueIrq
  dsimp only
  split
  · exact sendVector_reg s f (h _ (bits_lt ..))
  · split <;> rfl

theorem sendVector_steps (s : State) (f : Fn) (v : Nat) : (sendVector s f v).sage = s.sage := by
  unfold sendVector
  split <;> rfl

theorem queueIrq_sage (s : State) (f : Fn) (q : Nat) : (queueIrq s f q).sage = s.sage := by
  unfold queueIrq
  dsimp only
  split
  · exact sendVector_steps ..
  · split <;> rfl

/-- The TAIL of a queue that a function has is no word of its pending bits. -/
theorem cqTail_ne_pbaWord (f : Fn) {q : Nat} (hq : q ≤ 64) : ∀ v < 2048, cqOff q + 12 ≠ pbaWord f.val v := by
  intro v hv
  unfold cqOff pbaWord
  split <;> split <;> omega

theorem cqTail_advanceTail (s : State) (f q : Nat) :
    cqTail (advanceTail s f q) f q = (cqTail s f q + 1) % 2 ^ ctlLog2 (s.reg f (cqOff q + 8)) % 65536 := by
  rw [cqTail, advanceTail, State.reg_setReg_same]
  simp only [bits_eq_div]
  generalize (cqTail s f q + 1) % 2 ^ ctlLog2 (s.reg f (cqOff q + 8)) = t
  omega

/-! ## STEP_COMPLETION -/

/-- The entry of an ended step that is written leaves the store, and TAIL moves on (R403). -/
theorem writeEntry_ok {s w : State} {y : Step} (hq : y.cq ≤ 64)
    (hw : vwrite s { ownAccess y.fn with fin := true } (ringBase s y.fn.val (cqOff y.cq) + 32 * cqTail s y.fn.val y.cq) 32
      (completionEntry s y) = (.ok (), w)) :
    ∃ t, writeEntry s y = .next t ∧ findStep t y.key = none ∧
      cqTail t y.fn.val y.cq = (cqTail w y.fn.val y.cq + 1) % 2 ^ ctlLog2 (w.reg y.fn.val (cqOff y.cq + 8)) % 65536 := by
  have he : ∃ u, RecordsOnly { advanceTail w y.fn.val y.cq with sage := { w.sage with
      steps := w.sage.steps.filter fun x => x.key ≠ y.key } } u ∧
      writeEntry s y = .next (if bit y.raw.toNat 82 then queueIrq u y.fn y.cq else u) := by
    rw [writeEntry]
    dsimp only
    rw [hw]
    exact ⟨_, RecordsOnly.monitor .., rfl⟩
  obtain ⟨u, hu, he⟩ := he
  refine ⟨_, he, ?_, ?_⟩
  · have hs : (if bit y.raw.toNat 82 then queueIrq u y.fn y.cq else u).sage = u.sage := by
      split
      · exact queueIrq_sage ..
      · rfl
    rw [findStep, hs, hu.sage]
    simp
  · have hr : (if bit y.raw.toNat 82 then queueIrq u y.fn y.cq else u).reg y.fn.val (cqOff y.cq + 12) =
        (advanceTail w y.fn.val y.cq).reg y.fn.val (cqOff y.cq + 12) := by
      rw [apply_ite (fun t : State => t.reg y.fn.val (cqOff y.cq + 12)), queueIrq_reg u y.fn (cqTail_ne_pbaWord y.fn hq), ite_self]
      exact State.reg_of_regs hu.regs ..
    rw [cqTail, hr]
    exact cqTail_advanceTail ..

end Sys2Proof.Machine
end

section
/-!
O28: it holds of every step whose completion queue is one that a function has, and fails where CQ of the descriptor names none.
-/
namespace Sys2Proof.Machine
open Sys2Proof.Claims

/-- The module as STEP_COMPLETION sees it: at its time, with the step marked ended. -/
def endedAt (s : State) (x : Step) (ns : Nat) : State := if x.phase = .ended then s.at ns else markEnded (s.at ns) x

theorem execStepCompletion_eq {step ns : Nat} {s : State} {x y : Step} (hx : findStep s step = some x) (hn : s.now ≤ ns)
    (ho : stepOver s x = true ∨ x.phase = .ended) (hy : findStep (endedAt s x ns) step = some y) :
    exec (.stepCompletion step ns) s =
      if cqOpen (endedAt s x ns) y.fn.val y.cq && !entryWaits (endedAt s x ns) y then writeEntry (endedAt s x ns) y
      else .next (if !(x.phase == .ended) && ctlEnable ((endedAt s x ns).reg y.fn.val (cqOff y.cq + 8)) &&
        cqFull (endedAt s x ns) y.fn.val y.cq then sqcEvent (endedAt s x ns) y.fn.val (cqStatus y.cq) 19
        else endedAt s x ns) := by
  have he : exec (.stepCompletion step ns) s = execStepCompletion step ns s := rfl
  have hg : (notBefore s ns && (stepOver s x || x.phase == .ended)) = true := by
    rw [Bool.and_eq_true]
    exact ⟨decide_eq_true hn, by simpa using ho⟩
  have ha : (if (x.phase == .ended) = true then s.at ns else markEnded (s.at ns) x) = endedAt s x ns := by
    simp only [endedAt, beq_iff_eq]
  rw [he, execStepCompletion, hx]
  dsimp only
  rw [if_pos hg, ha, hy]

theorem endedAt_mem (s : State) (x : Step) (ns : Nat) : (endedAt s x ns).mem = s.mem := by
  unfold endedAt
  split
  · rfl
  · exact markEnded_mem ..

theorem findStep_endedAt {s : State} {step ns : Nat} {x y : Step} (hx : findStep s step = some x)
    (hy : findStep (endedAt s x ns) step = some y) : y.key = step ∧ y.phase = .ended := by
  unfold endedAt at hy
  split at hy
  case isTrue hp =>
    have hxy : x = y := Option.some.inj (hx.symm.trans hy)
    exact ⟨findStep_key hy, hxy ▸ hp⟩
  case isFalse => exact findStep_markEnded (s := s.at ns) hx hy

/-- What O28 says of a step that ends, for a completion queue that a function has. -/
theorem stepCompletion_ends {step ns : Nat} {s : State} {x y : Step} (hq : y.cq ≤ 64) (hx : findStep s step = some x)
    (hn : s.now ≤ ns) (ho : stepOver s x = true ∨ x.phase = .ended) (hy : findStep (endedAt s x ns) step = some y) :
    let a := endedAt s x ns
    (cqOpen a y.fn.val y.cq = false ∨ entryWaits a y = true →
      ∃ t z, exec (.stepCompletion step ns) s = .next t ∧ findStep t step = some z ∧ z.phase = .ended ∧ t.mem = s.mem) ∧
    (∀ w, cqOpen a y.fn.val y.cq = true → entryWaits a y = false →
      vwrite a { ownAccess y.fn with fin := true } (ringBase a y.fn.val (cqOff y.cq) + 32 * cqTail a y.fn.val y.cq) 32
        (completionEntry a y) = (.ok (), w) →
      ∃ t, exec (.stepCompletion step ns) s = .next t ∧ findStep t step = none ∧
        cqTail t y.fn.val y.cq = (cqTail w y.fn.val y.cq + 1) % 2 ^ ctlLog2 (w.reg y.fn.val (cqOff y.cq + 8)) % 65536) := by
  intro a
  obtain ⟨hkey, hended⟩ := findStep_endedAt hx hy
  rw [execStepCompletion_eq hx hn ho hy]
  refine ⟨fun hclosed => ?_, fun w hopen hfree hw => ?_⟩
  · rw [if_neg (by rcases hclosed with h | h <;> simp [h, a] at *)]
    refine ⟨_, y, rfl, ?_, hended, ?_⟩
    · split
      · rw [findStep, sqcEvent_sage]
        exact hy
      · exact hy
    · rw [← endedAt_mem s x ns]
      split
      · exact sqcEvent_mem ..
      · rfl
  · rw [if_pos (by simp [a] at hopen hfree; simp [hopen, hfree]), ← hkey]
    exact writeEntry_ok hq hw

/-! ## A completion queue that no function has -/

/-- CQ of the stray step: the registers of such a queue lie on the pending bits of the PF, TAIL on those of vectors 96 to 127. -/
def strayCq : Nat := 2880

theorem strayCq_tail : cqOff strayCq + 12 = pbaWord 0 97 := by decide

/-- A home line that memory alone shares, with the low bytes of a number. -/
def sharedLine (v : Nat) : HomeLine := { HomeLine.none with st := 2, data := BitVec.ofNat 4096 v }

/-- A step that has ended, whose descriptor asks for an interrupt on its completion queue. -/
def strayStep : Step :=
  { key := 1, fn := 0, sq := 0, raw := BitVec.ofNat 1024 (2 ^ 82 + 2 ^ 320 * strayCq), doorbell := 0
    phase := .ended, admTick := 0, start := none, startNs := 0, lastTick := 0, endAt := 0, preempts := 0, usedUs := 0
    statuses := [.done], errRef := 0, degraded := false, replan := false, voided := false, readBad := none, prev := 0
    deposits := [], cmds := [] }

/-- The module at reset with that step alone, page 0 of the PF's space mapped writable on a frame whose line is at its home, and the
queue's control word enabled for 16 entries with the interrupt vector 97. -/
def strayCompletion : State :=
  { State.reset.setReg 0 (cqOff strayCq + 8) (4 + 2 ^ 8 + 2 ^ 9 * 97) with
    coh := { State.reset.coh with home := [(0, sharedLine (2 ^ 19 + 1)), (2048, sharedLine (16 * 2 ^ 16 + 3)), (4096, sharedLine 0)] }
    host := { State.reset.host with ctxSet := [(0, true)], tlb := [(0, 16 * 2 ^ 16 + 3)] }
    sage := { State.reset.sage with steps := [strayStep] } }

/-- TAIL of a queue after a command that completes. -/
def tailAfter (q : Nat) : Host.Outcome State Fault Refusal → Option Nat
  | .next t => some (cqTail t 0 q)
  | _ => none

/-- The write of the stray step's completion entry. -/
def strayWrite : Except VErr Unit × State :=
  let a := if strayStep.phase = .ended then strayCompletion.at 0 else markEnded (strayCompletion.at 0) strayStep
  vwrite a { ownAccess strayStep.fn with fin := true } (ringBase a strayStep.fn.val (cqOff strayStep.cq) +
    32 * cqTail a strayStep.fn.val strayStep.cq) 32 (completionEntry a strayStep)

theorem strayWrite_ok : strayWrite.1 = .ok () := by decide +kernel

theorem strayWrite_tail : (cqTail strayWrite.2 strayStep.fn.val strayStep.cq + 1) %
    2 ^ ctlLog2 (strayWrite.2.reg strayStep.fn.val (cqOff strayStep.cq + 8)) % 65536 = 1 := by
  decide +kernel

/-- The masked vector sets its pending bit in TAIL (`strayCq_tail`), which shows 3 where the entry written leaves 1. -/
theorem strayCompletion_tail : tailAfter strayStep.cq (exec (.stepCompletion 1 0) strayCompletion) = some 3 := by decide +kernel

/-- Refutes O28, by a descriptor whose CQ names no queue of its function: the interrupt's pending bit overwrites TAIL. Only the clause of
the entry written fails, and it does not where CQ names a queue (`stepCompletion_ends`); part (2) holds
(`completionEntry_fields`). -/
theorem not_completions : ¬ Obligations.Completions := by
  unfold Obligations.Completions
  intro h
  obtain ⟨ends, -⟩ := h
  have hy : findStep strayCompletion 1 = some strayStep := by decide +kernel
  have ha : findStep (endedAt strayCompletion strayStep 0) 1 = some strayStep := by decide +kernel
  obtain ⟨-, written⟩ := ends 1 0 strayCompletion strayStep strayStep hy (by decide) (.inr (by decide +kernel)) ha
  have hw : strayWrite = (.ok (), strayWrite.2) := by rw [← strayWrite_ok]
  have hopen : cqOpen (endedAt strayCompletion strayStep 0) strayStep.fn.val strayStep.cq = true := by decide +kernel
  have hfree : entryWaits (endedAt strayCompletion strayStep 0) strayStep = false := by decide +kernel
  obtain ⟨t, ht, -, htail⟩ := written strayWrite.2 hopen hfree hw
  have hthree := strayCompletion_tail
  rw [ht] at hthree
  have heq : 1 = 3 := (htail.trans strayWrite_tail).symm.trans (Option.some.inj hthree)
  exact absurd heq (by decide)

end Sys2Proof.Machine
end

section
/-!
The life of a command: its start, its phases, and what starting it leaves unchanged (R45, R72, R76, R451).
-/
namespace Sys2Proof.Machine
open Sys2Proof.Claims

/-! ## The objects that records and samples write -/

namespace KeptOutside
variable {L : List Nat} {s t : State}

theorem thenMgmt {m : MgmtState} (h : KeptOutside L s t) (hm : ∀ r ∈ t.mgmt.logPend, r ∈ m.logPend) :
    KeptOutside L s { t with mgmt := m } := h.trans ⟨rfl, fun _ _ _ _ _ _ => rfl, hm⟩

theorem thenLogRecord {r : LogRec} (h : KeptOutside L s t) (hl : 0x5000 ∈ L) : KeptOutside L s (logRecord t r) := by
  have hp := h.thenMgmt (m := { t.mgmt with logPend := t.mgmt.logPend ++
    [{ r with index := nextIndex (t.obj 0x5000 2 0), time := t.now, tick := t.tick, seqRef := seqRefOf t r }] })
    fun _ hr => List.mem_append_left _ hr
  have hi := hp.thenSetObj (sub := 2) (e := 0) (v := nextIndex (t.obj 0x5000 2 0)) hl (by decide) (by decide)
  exact .ite (hi.thenSetObj hl (by decide) (by decide)) hi

theorem thenMonOne {i : Nat} {v : FVal} (h : KeptOutside L s t) (hi : i < 32) (hm : 0x3011 ∈ L) (hl : 0x5000 ∈ L) :
    KeptOutside L s (monOne t i v) := by
  have hset (r : Nat) : KeptOutside L s (t.setObj 0x3011 1 i r) := h.thenSetObj hm (by decide) (by omega)
  unfold monOne
  dsimp only
  split
  · exact KeptOutside.thenLogRecord (KeptOutside.thenMgmt (hset _) fun _ hr => hr) hl
  · exact hset _

/-- A sample writes the records of the monitors and the log (R451). -/
theorem thenMonitor {source inst : Nat} {v : FVal} (h : KeptOutside L s t) (hm : 0x3011 ∈ L) (hl : 0x5000 ∈ L) :
    KeptOutside L s (monitor t source inst v) := by
  refine thenFoldl (f := fun s i => if bits (monConfig s i) 0 8 = source ∧ (bits (monConfig s i) 16 16 = inst ∨
    (source = 4 ∧ bits (monConfig s i) 16 16 = 0xFFFF)) then monOne s i v else s) (List.range 32) (fun s i hi => ?_) h
  split
  · exact thenMonOne refl (List.mem_range.mp hi) hm hl
  · exact refl

end KeptOutside

/-! ## Commands of a step -/

theorem startable_eq {s : State} {c : CmdRef} {typ : Nat} {x : Step} {y : Cmd} (h : startable s c typ = some (x, y)) :
    findStep s c.step = some x ∧ x.command c.cmd = some y := by
  unfold startable at h
  split at h
  · cases h
  case h_2 z hz =>
    split at h
    · cases h
    case h_2 w hw =>
      split at h
      · cases h
        exact ⟨hz, hw⟩
      · cases h

theorem runningCmd_eq {s : State} {c : CmdRef} {typ : Nat} {x : Step} {y : Cmd} (h : runningCmd s c typ = some (x, y)) :
    findStep s c.step = some x ∧ x.command c.cmd = some y := by
  unfold runningCmd at h
  split at h
  · cases h
  case h_2 z hz =>
    split at h
    · cases h
    case h_2 w hw =>
      split at h
      · cases h
        exact ⟨hz, hw⟩
      · cases h

/-- The command that a reference names. -/
def cmdAt (s : State) (c : CmdRef) : Option Cmd := (findStep s c.step).bind fun t => t.command c.cmd

theorem cmdPhase_eq (s : State) (c : CmdRef) : cmdPhase s c = (cmdAt s c).map Cmd.phase := by
  rw [cmdPhase, cmdAt]
  cases findStep s c.step <;> rfl

theorem cmdAt_eq {s : State} {c : CmdRef} {x : Step} {y : Cmd} (hx : findStep s c.step = some x)
    (hy : x.command c.cmd = some y) : cmdAt s c = some y := by rw [cmdAt, hx, Option.bind_some, hy]

theorem startable_cmdAt {s : State} {c : CmdRef} {typ : Nat} {x : Step} {y : Cmd} (h : startable s c typ = some (x, y)) :
    cmdAt s c = some y := cmdAt_eq (startable_eq h).1 (startable_eq h).2

theorem cmdAt_of_steps {s t : State} (h : t.sage.steps = s.sage.steps) (c : CmdRef) : cmdAt t c = cmdAt s c := by
  rw [cmdAt, cmdAt, findStep, findStep, h]

/-- A change of one command of a step. -/
def Step.onCmd (t : Step) (i : Nat) (f : Cmd → Cmd) : Step :=
  { t with cmds := t.cmds.zipIdx.map fun q => if q.2 = i then f q.1 else q.1 }

theorem Step.command_onCmd (t : Step) (i j : Nat) (f : Cmd → Cmd) :
    (t.onCmd i f).command j = (t.command j).map fun y => if j = i then f y else y := by
  simp only [Step.onCmd, Step.command, List.getElem?_map, List.getElem?_zipIdx, Option.map_map, Nat.zero_add]
  rfl

/-- A change of one command of a step reaches that command. -/
theorem cmdAt_onCmd (s : State) (c : CmdRef) (f : Cmd → Cmd) :
    cmdAt (updStep s c.step fun t => t.onCmd c.cmd f) c = (cmdAt s c).map f := by
  rw [cmdAt, findStep_updStep s c.step c.step (f := fun t => t.onCmd c.cmd f) (fun _ => rfl), cmdAt]
  cases hx : findStep s c.step with
  | none => rfl
  | some x =>
    have hk : x.key = c.step := findStep_key hx
    simp only [Option.map_some, Option.bind_some, hk, if_true, Step.command_onCmd]

/-- A change of a step that leaves its commands leaves every command. -/
theorem cmdAt_updStep {f : Step → Step} (hk : ∀ x, (f x).key = x.key) (hf : ∀ x, (f x).cmds = x.cmds) (s : State) (key : Nat)
    (c : CmdRef) : cmdAt (updStep s key f) c = cmdAt s c := by
  rw [cmdAt, findStep_updStep s key c.step hk, cmdAt]
  cases findStep s c.step with
  | none => rfl
  | some x =>
    have hx : (if x.key = key then f x else x).cmds = x.cmds := by
      split
      · exact hf x
      · rfl
    simp only [Option.map_some, Option.bind_some, Step.command, hx]

theorem cmdAt_setPhase (s : State) (c : CmdRef) (p : CmdPhase) :
    cmdAt (setPhase s c.step c.cmd p) c = (cmdAt s c).map fun y => { y with phase := p } :=
  cmdAt_onCmd s c fun y => { y with phase := p }

/-- A command whose phase is set has that phase. -/
theorem cmdPhase_setPhase {s : State} {c : CmdRef} {y : Cmd} (h : cmdAt s c = some y) (p : CmdPhase) :
    cmdPhase (setPhase s c.step c.cmd p) c = some p := by
  rw [cmdPhase_eq, cmdAt_setPhase, h]
  rfl

/-! ## The start of a command -/

/-- The step starts with its first command (R72, R76). -/
def startStep (s : State) (t : Step) : State :=
  if t.phase = .admitted then
    monitorNat (countWait (updStep s t.key fun x => { x with
      phase := .running
      start := some s.tick
      startNs := s.now }) t s.now) 2 t.cls (s.now - t.doorbell)
  else s

theorem beginCmd_eq (s : State) (c : CmdRef) (t : Step) : beginCmd s c t =
    updStep (startStep s t) t.key fun x => x.onCmd c.cmd fun y => { y with
      phase := .running
      startNs := (startStep s t).now
      waitTick := (startStep s t).tick
      sliceNs := some (startStep s t).now } := rfl

/-- The start of a step changes the step store, the accounts and the records. -/
theorem startStep_frame (s : State) (t : Step) : ∃ g, RecordsOnly { s with sage := g } (startStep s t) := by
  unfold startStep
  split
  · exact ⟨_, RecordsOnly.monitor ..⟩
  · exact ⟨s.sage, RecordsOnly.refl⟩

theorem startStep_kept {L : List Nat} (s : State) (t : Step) (hm : 0x3011 ∈ L) (hl : 0x5000 ∈ L) :
    KeptOutside L s (startStep s t) := by
  unfold startStep
  split
  · exact (KeptOutside.thenSage .refl).thenMonitor hm hl
  · exact .refl

theorem countWait_steps (s : State) (t : Step) (ns : Nat) : (countWait s t ns).sage.steps = s.sage.steps := rfl

/-- The start of a step leaves its commands as they are. -/
theorem cmdAt_startStep {s : State} {t : Step} {c : CmdRef} : cmdAt (startStep s t) c = cmdAt s c := by
  unfold startStep
  split
  · rw [monitorNat, cmdAt_of_steps (congrArg SageState.steps (RecordsOnly.monitor ..).sage), cmdAt_of_steps (countWait_steps ..)]
    exact cmdAt_updStep (by intro; rfl) (by intro; rfl) ..
  · rfl

/-- A command that starts runs. -/
theorem cmdAt_beginCmd {s : State} {c : CmdRef} {t : Step} {y : Cmd} (hk : t.key = c.step) (hy : cmdAt s c = some y) :
    ∃ z, cmdAt (beginCmd s c t) c = some z ∧ z.phase = .running ∧ z.hdr = y.hdr := by
  rw [beginCmd_eq, hk, cmdAt_onCmd, cmdAt_startStep, hy]
  exact ⟨_, rfl, rfl, rfl⟩

theorem beginCmd_frame (s : State) (c : CmdRef) (t : Step) : ∃ g m d, beginCmd s c t = { s with sage := g, mgmt := m, dict := d } := by
  obtain ⟨g, m, d, h⟩ := startStep_frame s t
  rw [beginCmd_eq, h]
  exact ⟨_, m, d, rfl⟩

theorem beginCmd_kept {L : List Nat} (s : State) (c : CmdRef) (t : Step) (hm : 0x3011 ∈ L) (hl : 0x5000 ∈ L) :
    KeptOutside L s (beginCmd s c t) := (startStep_kept s t hm hl).thenSage

theorem beginCmd_mem (s : State) (c : CmdRef) (t : Step) : (beginCmd s c t).mem = s.mem := by
  obtain ⟨g, m, d, h⟩ := beginCmd_frame s c t
  rw [h]

theorem beginCmd_host (s : State) (c : CmdRef) (t : Step) : (beginCmd s c t).host = s.host := by
  obtain ⟨g, m, d, h⟩ := beginCmd_frame s c t
  rw [h]

theorem beginCmd_power (s : State) (c : CmdRef) (t : Step) : (beginCmd s c t).power = s.power := by
  obtain ⟨g, m, d, h⟩ := beginCmd_frame s c t
  rw [h]

theorem beginCmd_now (s : State) (c : CmdRef) (t : Step) : (beginCmd s c t).now = s.now := by
  obtain ⟨g, m, d, h⟩ := beginCmd_frame s c t
  rw [h]

/-- A command that starts and completes at once is done, where what it does keeps the step store. -/
theorem cmdPhase_runAtOnce {s : State} {c : CmdRef} {t : Step} {y : Cmd} {f : State → State} (hk : t.key = c.step)
    (hy : cmdAt s c = some y) (hf : ∀ u, (f u).sage.steps = u.sage.steps) : cmdPhase (runAtOnce s c t f) c = some .done := by
  obtain ⟨z, hz, -, -⟩ := cmdAt_beginCmd hk hy
  exact cmdPhase_setPhase ((cmdAt_of_steps (hf _) c).trans hz) .done

/-! ## Step faults -/

theorem fnRecord_steps (s : State) (fn : Fn) (r : LogRec) (a b c : Nat) : (fnRecord s fn r a b c).sage = s.sage :=
  (RecordsOnly.logRecord s _).sage

/-- A fault of a step leaves the commands' places, and gives the step its status (R74). -/
theorem stepFault_faults {s : State} {key : Nat} {x : Step} (hx : findStep s key = some x) (cause cmd : Nat) :
    ∃ ref, findStep (stepFault s key cause cmd) key = some (x.addStatus .faultUnrecovered ref).cancelRest := by
  have hk : x.key = key := findStep_key hx
  have hs (r : LogRec) : findStep (fnRecord s x.fn r 4 cause 0) key = some x := by
    rw [findStep, fnRecord_steps]
    exact hx
  rw [stepFault, hx]
  dsimp only
  rw [findStep_updStep _ _ _ (by intro z; rfl), hs, Option.map_some, if_pos hk]
  exact ⟨_, rfl⟩

end Sys2Proof.Machine
end

section
/-!
O31: event commands and phase hints (R45, R46, R49, R50, R480).
-/
namespace Sys2Proof.Machine
open Sys2Proof.Claims

/-! ## NOP and WAIT_EVENT -/

theorem nop_done {c : CmdRef} {s : State} {x : Step} {y : Cmd} (h : startable s c 0 = some (x, y)) :
    ∃ t, exec (.nop c) s = .next t ∧ cmdPhase t c = some .done ∧ t.mem = s.mem := by
  have he : exec (.nop c) s = execNop c s := rfl
  rw [he, execNop, h]
  exact ⟨_, rfl, cmdPhase_runAtOnce (findStep_key (startable_eq h).1) (startable_cmdAt h) fun _ => rfl, beginCmd_mem s c x⟩

theorem waitEvent_runs {c : CmdRef} {s : State} {x : Step} {y : Cmd} (h : startable s c 4 = some (x, y)) :
    ∃ t, exec (.waitEvent c) s = .next t ∧ cmdPhase t c = some .running ∧ t.mem = s.mem := by
  have he : exec (.waitEvent c) s = execWaitEvent c s := rfl
  obtain ⟨z, hz, hrun, -⟩ := cmdAt_beginCmd (findStep_key (startable_eq h).1) (startable_cmdAt h)
  rw [he, execWaitEvent, h]
  exact ⟨_, rfl, by rw [cmdPhase_eq, hz, Option.map_some, hrun], beginCmd_mem ..⟩

theorem waitEvent_released {c : CmdRef} {s : State} {x : Step} {y : Cmd} (h : runningCmd s c 4 = some (x, y))
    (hmet : y.field 0x10 8 ≤ evCounter s x.fn.val (y.field 0xC 2)) :
    ∃ t, exec (.waitEventRelease c) s = .next t ∧ cmdPhase t c = some .done := by
  have he : exec (.waitEventRelease c) s = execWaitEventRelease c s := rfl
  obtain ⟨hx, hy⟩ := runningCmd_eq h
  rw [he, execWaitEventRelease, h]
  exact ⟨_, guarded_true _ (decide_eq_true hmet), cmdPhase_setPhase (cmdAt_eq hx hy) .done⟩

/-- A fault of a step cancels the commands that have not started; each stays in its place. -/
theorem cmdAt_stepFault {s : State} {c : CmdRef} {x : Step} {y : Cmd} (hx : findStep s c.step = some x)
    (hy : x.command c.cmd = some y) (cause cmd : Nat) : ∃ z, cmdAt (stepFault s c.step cause cmd) c = some z := by
  obtain ⟨ref, hf⟩ := stepFault_faults hx cause cmd
  rw [cmdAt, hf, Option.bind_some]
  simp only [Step.cancelRest, Step.addStatus, Step.command, List.getElem?_map] at hy ⊢
  rw [hy]
  exact ⟨_, rfl⟩

theorem setPhase_stepsGrow (s : State) (step idx : Nat) (p : CmdPhase) : StepsGrow s (setPhase s step idx p) :=
  updStep_stepsGrow s step (fun _ => rfl) fun _ _ h => h

/-- A step with a fault has the status FAULT_UNRECOVERED. -/
theorem stepFault_hasStatus {s : State} {key : Nat} {x : Step} (hx : findStep s key = some x) (cause cmd : Nat) :
    hasStatus (stepFault s key cause cmd) key .faultUnrecovered := by
  obtain ⟨ref, hf⟩ := stepFault_faults hx cause cmd
  exact ⟨_, hf, List.mem_append_right _ (List.mem_singleton.mpr rfl)⟩

theorem waitEvent_timesOut {c : CmdRef} {s : State} {x : Step} {y : Cmd} (h : runningCmd s c 4 = some (x, y))
    (hunmet : evCounter s x.fn.val (y.field 0xC 2) < y.field 0x10 8) (hset : y.field 0x18 4 ≠ 0)
    (hpast : y.waitTick + y.field 0x18 4 ≤ s.tick) :
    ∃ t, exec (.eventTimeout c) s = .next t ∧ cmdPhase t c = some .cancelled ∧ hasStatus t c.step .faultUnrecovered := by
  have he : exec (.eventTimeout c) s = execEventTimeout c s := rfl
  obtain ⟨hx, hy⟩ := runningCmd_eq h
  obtain ⟨z, hz⟩ := cmdAt_stepFault hx hy 0x21 c.cmd
  have hunmet' : eventMet s x y = false := decide_eq_false (Nat.not_le.mpr hunmet)
  rw [he, execEventTimeout, h]
  exact ⟨_, guarded_true _ (by simp [hunmet', hset, hpast]), cmdPhase_setPhase hz .cancelled,
    StepsGrow.hasStatus (setPhase_stepsGrow _ _ _ _) (stepFault_hasStatus hx ..)⟩

/-! ## SIGNAL_EVENT -/

theorem evCounter_evAdd (s : State) (fn e n : Nat) : evCounter (evAdd s fn e n) fn e = (evCounter s fn e + n) % 2 ^ 64 :=
  sget_sset_same ..

theorem evCounter_of_host {s t : State} (h : t.host = s.host) (fn e : Nat) : evCounter t fn e = evCounter s fn e := by
  rw [evCounter, evCounter, h]

theorem signalEvent_adds {c : CmdRef} {s : State} {x : Step} {y : Cmd} (h : startable s c 5 = some (x, y))
    (hd : earlierDone x c.cmd = true) : ∃ t, exec (.signalEvent c) s = .next t ∧ cmdPhase t c = some .done ∧
      evCounter t x.fn.val (y.field 0xC 2) = (evCounter s x.fn.val (y.field 0xC 2) + y.field 0x10 8) % 2 ^ 64 := by
  have he : exec (.signalEvent c) s = execSignalEvent c s := rfl
  rw [he, execSignalEvent, h]
  refine ⟨_, guarded_true _ hd, cmdPhase_runAtOnce (findStep_key (startable_eq h).1) (startable_cmdAt h) fun _ => rfl, ?_⟩
  rw [runAtOnce, evCounter_of_host (setPhase_host ..), evCounter_evAdd, evCounter_of_host (beginCmd_host ..)]

/-! ## HINT -/

/-- The phase that a HINT announces (R480). -/
def announced (c : CmdRef) (y : Cmd) (ns : Nat) : HintPhase :=
  let a := ns + 1000 * y.field 0x10 4
  ⟨c.step, c.cmd, y.field 0xC 1, a, a + 1000 * y.field 0xE 2, false⟩

/-- A phase joins those announced, and is counted. -/
def announce (s : State) (h : HintPhase) : State :=
  ({ s with power := { s.power with hints := s.power.hints ++ [h] } }).bump 0x9010 3 0 1

theorem execHint_startable {c : CmdRef} {ns : Nat} {s : State} {x : Step} {y : Cmd} (h : startable s c 8 = some (x, y))
    (hn : s.now ≤ ns) (hg : ns < guardStart s) :
    exec (.hint c ns) s = .next (runAtOnce (s.at ns) c x fun u => announce u (announced c y ns)) := by
  have he : exec (.hint c ns) s = execHint c ns s := rfl
  rw [he, execHint, h]
  exact guarded_true _ (by simp [notBefore, hn, hg])

theorem announce_counts (s : State) (h : HintPhase) : (announce s h).obj 0x9010 3 0 = satAdd 64 (s.obj 0x9010 3 0) 1 :=
  State.obj_setObj_same ..

theorem hint_announces {c : CmdRef} {ns : Nat} {s : State} {x : Step} {y : Cmd} (h : startable s c 8 = some (x, y))
    (hn : s.now ≤ ns) (hg : ns < guardStart s) : ∃ t, exec (.hint c ns) s = .next t ∧ cmdPhase t c = some .done ∧ t.now = ns ∧
      t.obj 0x9010 3 0 = satAdd 64 (s.obj 0x9010 3 0) 1 ∧ t.power.hints = s.power.hints ++ [announced c y ns] := by
  have hat : cmdAt (s.at ns) c = some y := (cmdAt_of_steps (s := s) rfl c).trans (startable_cmdAt h)
  refine ⟨_, execHint_startable h hn hg, cmdPhase_runAtOnce (findStep_key (startable_eq h).1) hat fun _ => rfl, ?_, ?_, ?_⟩
  · exact beginCmd_now (s.at ns) c x
  · have hkept : (beginCmd (s.at ns) c x).obj 0x9010 3 0 = (s.at ns).obj 0x9010 3 0 :=
      (beginCmd_kept (L := [0x3011, 0x5000]) (s.at ns) c x (by decide) (by decide)).obj _ _ _ (by decide) (by decide) (by decide)
    rw [runAtOnce, setPhase, State.obj_updStep, announce_counts, hkept, State.obj_at]
  · have hpower : (beginCmd (s.at ns) c x).power = s.power := beginCmd_power ..
    rw [runAtOnce, setPhase_power, announce, State.bump_power, hpower]

/-! ## The phases -/

theorem hintPhaseLead_raises {c : CmdRef} {s : State} {h : HintPhase} (hm : h ∈ s.power.hints) (ho : h.of c = true)
    (hr : h.raised = false) :
    ∃ t, exec (.hintPhaseLead c) s = .next t ∧ ∀ h' ∈ t.power.hints, h'.of c = true → h'.raised = true := by
  refine ⟨_, guarded_true _ (List.any_eq_true.mpr ⟨h, hm, by simp [ho, hr]⟩), fun h' hm' ho' => ?_⟩
  obtain ⟨g, -, hg⟩ := List.mem_map.mp hm'
  split at hg
  · rw [← hg]
  case isFalse hn =>
    rw [← hg] at ho'
    exact absurd ho' hn

theorem hintPhaseEnd_removes {c : CmdRef} {s : State} {h : HintPhase} (hm : h ∈ s.power.hints) (ho : h.of c = true) :
    ∃ t, exec (.hintPhaseEnd c) s = .next t ∧ ∀ h' ∈ t.power.hints, h'.of c = false :=
  ⟨_, guarded_true _ (List.any_eq_true.mpr ⟨h, hm, ho⟩), fun _ hm' => by simpa using (List.mem_filter.mp hm').2⟩

/-- Settles O31: one row at a time. -/
theorem eventsAndHints : Obligations.EventsAndHints :=
  ⟨fun _ _ _ _ => ⟨nop_done, waitEvent_runs, fun h => ⟨waitEvent_released h, waitEvent_timesOut h⟩, signalEvent_adds⟩,
    fun _ _ _ _ _ => ⟨hint_announces, fun _ hm ho => ⟨hintPhaseLead_raises hm ho, hintPhaseEnd_removes hm ho⟩⟩⟩

end Sys2Proof.Machine
end

section
/-!
O24: the tick boundary and the planning cut-off (R36 to R39, R52, R53).
-/
namespace Sys2Proof.Machine
open Sys2Proof.Claims

/-! ## What the boundary does, in its order -/

/-- The boundary of a tick: device time, the tick's number and start, and what the cores did (R39, R66, R384). -/
def tickBegun (s : State) (meas : List CoreMeas) : State :=
  let u := applyTimeStep s (nextBoundary s)
  meas.foldl measure ((u.setObj 0x2010 3 0 (s.tick + 1)).setObj 0x2010 4 0 u.now)

/-- The plan for tick `n` is loaded, with the steps that run again after a fault (R36, R70). -/
def loadPlan (s : State) (n : Nat) : State :=
  let plan := if s.sage.planTick = n then s.sage.plan else []
  let loaded := amendPlan s plan
  { s with
    sage := { s.sage with
      loaded := loaded
      plan := []
      placed := []
      placedNow := (if s.sage.planTick = n then s.sage.placed else []) ++
        s.sage.placedNow.filter fun p => (!(plan.any fun i => i.step = p.cmd.step)) && loaded.any fun i => i.step = p.cmd.step
      ran := []
      quota := if n % max 1 (s.obj 0x2011 4 0) = 0 then [] else s.sage.quota
      periodReq := if s.moduleState = 0 then 0 else s.sage.periodReq
      steps := s.sage.steps.map fun t => if t.replan ∧ loaded.any (fun i => i.step = t.key) then
        { t with replan := false, degraded := true } else t } }

theorem execTickBoundary_eq (meas : List CoreMeas) (s : State) : exec (.tickBoundary meas) s =
    guarded (s.released && decide (s.now ≤ nextBoundary s) && slicesEnded s)
      (boundarySamples (latchLimits (loadPlan (tickBegun s meas) (s.tick + 1)))) := rfl

/-! ## The time and the number of the tick -/

theorem applyTimeStep_mem (s : State) (b : Nat) : (applyTimeStep s b).mem = s.mem := by
  unfold applyTimeStep
  split
  · rfl
  · exact (RecordsOnly.logRecord ..).mem

/-- A step of device time is taken from those that wait, and nothing else of Sage changes. -/
theorem applyTimeStep_sage (s : State) (b : Nat) : ∃ n, (applyTimeStep s b).sage = { s.sage with timeStep := n } := by
  unfold applyTimeStep
  split
  · exact ⟨s.sage.timeStep, rfl⟩
  · exact ⟨0, (RecordsOnly.logRecord ..).sage⟩

theorem applyTimeStep_now {s : State} (h : s.sage.timeStep = 0) (b : Nat) : (applyTimeStep s b).now = b := by
  rw [applyTimeStep, if_pos h]
  rfl

theorem RecordsOnly.measure (s : State) (m : CoreMeas) : RecordsOnly s (Machine.measure s m) := by
  unfold Machine.measure
  dsimp only
  split
  · exact RecordsOnly.refl
  · exact (RecordsOnly.setObj ..).trans (RecordsOnly.setObj ..)

/-- A measurement writes the rates of cores (R66). -/
theorem KeptOutside.measure (s : State) (m : CoreMeas) : KeptOutside [0x4030] s (Machine.measure s m) := by
  have hm := m.core.isLt
  have hset {t : State} (h : KeptOutside [0x4030] s t) (sub v : Nat) (hs : sub < 256) :
      KeptOutside [0x4030] s (t.setObj 0x4030 sub m.core v) := h.thenSetObj (by decide) hs (by omega)
  unfold Machine.measure
  dsimp only
  split
  · exact KeptOutside.refl
  · exact hset (hset KeptOutside.refl 1 _ (by decide)) 2 _ (by decide)

theorem tickBegun_recordsOnly (s : State) (meas : List CoreMeas) :
    RecordsOnly (applyTimeStep s (nextBoundary s)) (tickBegun s meas) :=
  ((RecordsOnly.setObj ..).trans (RecordsOnly.setObj ..)).trans (RecordsOnly.foldl _ RecordsOnly.measure ..)

theorem tickBegun_obj (s : State) (meas : List CoreMeas) {sub : Nat} (hs : sub < 256) :
    let u := applyTimeStep s (nextBoundary s)
    (tickBegun s meas).obj 0x2010 sub 0 = ((u.setObj 0x2010 3 0 (s.tick + 1)).setObj 0x2010 4 0 u.now).obj 0x2010 sub 0 :=
  (KeptOutside.thenFoldl meas (fun t m _ => KeptOutside.measure t m) KeptOutside.refl).obj _ _ _ (by decide) hs (by decide)

theorem tickBegun_tick (s : State) (meas : List CoreMeas) : (tickBegun s meas).tick = s.tick + 1 := by
  rw [State.tick, tickBegun_obj s meas (by decide), State.obj_setObj _ _ (by decide) (by decide) (by decide) (by decide),
    if_neg (by decide), State.obj_setObj_same]

theorem tickBegun_tickStart (s : State) (meas : List CoreMeas) : (tickBegun s meas).tickStart = (tickBegun s meas).now := by
  rw [State.tickStart, tickBegun_obj s meas (by decide), State.obj_setObj_same, (tickBegun_recordsOnly s meas).now]

theorem tickBegun_sage (s : State) (meas : List CoreMeas) : ∃ n, (tickBegun s meas).sage = { s.sage with timeStep := n } := by
  obtain ⟨n, h⟩ := applyTimeStep_sage s (nextBoundary s)
  exact ⟨n, (tickBegun_recordsOnly s meas).sage.trans h⟩

/-! ## The plan that is loaded -/

/-- Core-time that is taken back leaves every step in its plan. -/
theorem takeBackTime_steps (s : State) (need : Nat) (plan : List PlanItem) :
    (takeBackTime s need plan).map PlanItem.step = plan.map PlanItem.step := by
  induction plan with
  | nil => rfl
  | cons i rest ih =>
    rw [takeBackTime]
    rw [apply_ite (List.map PlanItem.step)]
    simp [ih]

/-- Where no step waits to be planned again, the plan is loaded as it was made. -/
theorem amendPlan_of_none {s : State} (plan : List PlanItem) (h : ∀ x ∈ s.sage.steps, x.replan = false) :
    amendPlan s plan = plan := by
  have hlate : (s.sage.steps.filter fun t => t.replan && t.phase == .running && !(plan.any fun i => i.step = t.key)) = [] := by
    rw [List.filter_eq_nil_iff]
    intro x hx
    simp [h x hx]
  rw [amendPlan, hlate]
  rfl

/-- A running step that waits to be planned again stands in what is loaded (R70). -/
theorem amendPlan_holds {s : State} (plan : List PlanItem) {x : Step} (hx : x ∈ s.sage.steps) (hr : x.replan = true)
    (hp : x.phase = .running) : ∃ i ∈ amendPlan s plan, i.step = x.key := by
  rw [amendPlan]
  dsimp only
  generalize hlate : ((s.sage.steps.filter fun t => t.replan && t.phase == .running && !(plan.any fun i => i.step = t.key)).map
    fun t => (⟨t.key, t.remaining⟩ : PlanItem)) = late
  by_cases hplan : ∃ i ∈ plan, i.step = x.key
  · split
    · exact hplan
    · obtain ⟨i, hi, hk⟩ := hplan
      have hmem := List.mem_map_of_mem (f := PlanItem.step) hi
      rw [← takeBackTime_steps s (((late ++ plan).map PlanItem.coreUs).sum - tickCore s), hk] at hmem
      obtain ⟨j, hj, hjk⟩ := List.mem_map.mp hmem
      exact ⟨j, List.mem_append_right _ hj, hjk⟩
  · have hmem : (⟨x.key, x.remaining⟩ : PlanItem) ∈ late := by
      rw [← hlate]
      refine List.mem_map.mpr ⟨x, List.mem_filter.mpr ⟨hx, ?_⟩, rfl⟩
      simpa [hr, hp] using hplan
    rw [if_neg (by rw [List.isEmpty_iff]; exact List.ne_nil_of_mem hmem)]
    exact ⟨_, List.mem_append_left _ hmem, rfl⟩

/-! ## The samples of the boundary -/

/-- The monitors that count a function's residency take their samples (R451). -/
def monitorsSampled (s : State) : State :=
  (List.range 32).foldl (fun s i =>
    let c := monConfig s i
    let f := bits c 16 16
    if bits c 0 8 = 7 then monOne s i (FVal.ofInt (s.obj 0x7040 2 f))
    else if bits c 0 8 = 8 then monOne s i (FVal.ofInt (s.obj 0x7040 3 f - sget (fun _ => 0) s.mgmt.lastSample f : Nat))
    else s) s

/-- The counts that the next samples start from. -/
def lastSamples (s : State) : Sparse Nat :=
  (List.range 256).foldl (fun m f => sset (fun _ => 0) m f (s.obj 0x7040 3 f)) s.mgmt.lastSample

theorem boundarySamples_eq (s : State) : boundarySamples s =
    { monitorsSampled s with mgmt := { (monitorsSampled s).mgmt with lastSample := lastSamples (monitorsSampled s) } } := by
  unfold boundarySamples lastSamples monitorsSampled
  rfl

theorem monitorsSampled_recordsOnly (s : State) : RecordsOnly s (monitorsSampled s) := by
  refine RecordsOnly.foldl _ (fun s i => ?_) (List.range 32) s
  dsimp only
  split
  · exact RecordsOnly.monOne ..
  · split
    · exact RecordsOnly.monOne ..
    · exact RecordsOnly.refl

theorem monitorsSampled_kept (s : State) : KeptOutside [0x3011, 0x5000] s (monitorsSampled s) := by
  refine KeptOutside.thenFoldl (List.range 32) (fun s i hi => ?_) KeptOutside.refl
  have hone (v : FVal) : KeptOutside [0x3011, 0x5000] s (monOne s i v) :=
    KeptOutside.thenMonOne .refl (List.mem_range.mp hi) (by decide) (by decide)
  dsimp only
  split
  · exact hone _
  · split
    · exact hone _
    · exact .refl

theorem KeptOutside.thenLastSample {L : List Nat} {s t : State} (h : KeptOutside L s t) (x : Sparse Nat) :
    KeptOutside L s { t with mgmt := { t.mgmt with lastSample := x } } := h.thenMgmt fun _ hr => hr

/-- The samples at a boundary write the records of the monitors and the log (R451). -/
theorem boundarySamples_kept (s : State) :
    RecordsOnly s (boundarySamples s) ∧ KeptOutside [0x3011, 0x5000] s (boundarySamples s) := by
  rw [boundarySamples_eq]
  exact ⟨(monitorsSampled_recordsOnly s).trans (RecordsOnly.withMgmt ..), (monitorsSampled_kept s).thenLastSample _⟩

/-- Loading a plan and the link limits is no write of an object. -/
theorem loaded_dict (s : State) (n : Nat) : (latchLimits (loadPlan s n)).dict = s.dict := rfl

/-- What TICK_BOUNDARY leaves in a released module in which every slice has ended. -/
theorem tickBoundary_loads (meas : List CoreMeas) {s : State} (hr : s.released = true) (hn : s.now ≤ nextBoundary s)
    (hs : slicesEnded s = true) :
    ∃ t, exec (.tickBoundary meas) s = .next t ∧ t.tick = s.tick + 1 ∧ t.tickStart = t.now ∧
      (s.sage.timeStep = 0 → t.now = nextBoundary s) ∧
      ((∀ x ∈ s.sage.steps, x.replan = false) →
        t.sage.loaded = (if s.sage.planTick = s.tick + 1 then s.sage.plan else [])) ∧
      (∀ x ∈ s.sage.steps, x.replan = true → x.phase = .running → ∃ i ∈ t.sage.loaded, i.step = x.key) ∧
      t.sage.plan = [] ∧ t.mem = s.mem := by
  obtain ⟨rest, kept⟩ := boundarySamples_kept (latchLimits (loadPlan (tickBegun s meas) (s.tick + 1)))
  have hobj (sub : Nat) (h : sub < 256) :
      (boundarySamples (latchLimits (loadPlan (tickBegun s meas) (s.tick + 1)))).obj 0x2010 sub 0 =
        (tickBegun s meas).obj 0x2010 sub 0 :=
    (kept.obj 0x2010 sub 0 (by decide) h (by decide)).trans
      (State.obj_eq_of_dict (loaded_dict (tickBegun s meas) (s.tick + 1)) rfl 0x2010 sub 0)
  have hbegun := tickBegun_recordsOnly s meas
  obtain ⟨n, hsage⟩ := tickBegun_sage s meas
  have hsteps : (tickBegun s meas).sage.steps = s.sage.steps := by rw [hsage]
  have hplan : (if (tickBegun s meas).sage.planTick = s.tick + 1 then (tickBegun s meas).sage.plan else []) =
      if s.sage.planTick = s.tick + 1 then s.sage.plan else [] := by rw [hsage]
  have hloaded : (boundarySamples (latchLimits (loadPlan (tickBegun s meas) (s.tick + 1)))).sage.loaded =
      amendPlan (tickBegun s meas) (if s.sage.planTick = s.tick + 1 then s.sage.plan else []) := by
    rw [rest.sage, ← hplan]
    rfl
  have hnow : (boundarySamples (latchLimits (loadPlan (tickBegun s meas) (s.tick + 1)))).now =
      (applyTimeStep s (nextBoundary s)).now := rest.now.trans hbegun.now
  refine ⟨_, (execTickBoundary_eq meas s).trans (guarded_true _ (by simp [hr, hn, hs])), ?_, ?_, fun h0 => ?_, fun hnone => ?_,
    fun x hx hxr hxp => ?_, ?_, ?_⟩
  · rw [State.tick, hobj 3 (by decide)]
    exact tickBegun_tick s meas
  · rw [State.tickStart, hobj 4 (by decide), hnow, ← hbegun.now]
    exact tickBegun_tickStart s meas
  · rw [hnow, applyTimeStep_now h0]
  · rw [hloaded]
    exact amendPlan_of_none _ (by rw [hsteps]; exact hnone)
  · rw [hloaded]
    exact amendPlan_holds _ (by rw [hsteps]; exact hx) hxr hxp
  · rw [rest.sage]
    rfl
  · exact (rest.mem.trans hbegun.mem).trans (applyTimeStep_mem ..)

/-! ## The planning cut-off -/

theorem boundVoid_sage (s : State) (key cause : Nat) : ∃ steps, (boundVoid s key cause).sage = { s.sage with steps := steps } := by
  unfold boundVoid
  split
  · exact ⟨_, rfl⟩
  · split
    · exact ⟨_, rfl⟩
    · have hf := fnRecord_steps s
      dsimp only [State.bump, State.setObj, updStep]
      rw [hf]
      exact ⟨_, rfl⟩

theorem foldl_boundVoid_sage (voids : List (Nat × Nat)) (s : State) :
    ∃ steps, (voids.foldl (fun s v => boundVoid s v.1 v.2) s).sage = { s.sage with steps := steps } := by
  induction voids generalizing s with
  | nil => exact ⟨_, rfl⟩
  | cons v voids ih =>
    obtain ⟨l, hl⟩ := boundVoid_sage s v.1 v.2
    obtain ⟨l', hl'⟩ := ih (boundVoid s v.1 v.2)
    exact ⟨l', by rw [List.foldl_cons, hl', hl]⟩

/-- The plan that the cut-off sets is the one that the plannable steps give, for the next tick. -/
theorem setPlan_plan (s : State) (linksW memW : Nat) : (setPlan s linksW memW).sage.plan = (buildPlan s (plannable s) linksW memW).items ∧
    (setPlan s linksW memW).sage.planTick = s.tick + 1 := by
  obtain ⟨l, hl⟩ := foldl_boundVoid_sage (buildPlan s (plannable s) linksW memW).voids
    ([0, 1, 2].foldl (fun u k => u.setObj 0x9000 0xB k (f32Ratio (planBudgets s (plannable s) linksW memW k) 1000))
      { s with sage := { s.sage with
          plan := (buildPlan s (plannable s) linksW memW).items
          planTick := s.tick + 1
          deficit := (buildPlan s (plannable s) linksW memW).deficit } })
  unfold setPlan
  dsimp only
  rw [hl]
  exact ⟨rfl, rfl⟩

/-- The state in which the cut-off looks at the steps (R38). -/
def atCutoff (s : State) : State := latchStrict (s.at (max s.now (cutoff s)))

theorem execPlanningCutoff_eq {linksW memW : Nat} {place : List Placement} {s a b : State} (hr : s.released = true)
    (ht : s.sage.planTick ≠ s.tick + 1) (hn : s.now < nextBoundary s)
    (ha : admitAll linksW memW (arrived (atCutoff s) (cutoff (atCutoff s)))
      ((arrived (atCutoff s) (cutoff (atCutoff s))).length + 1) [] (atCutoff s) = some a)
    (hb : rereadPlan ((plannable (atCutoff s)).map Step.key) (setPlan a linksW memW) = some b) (hp : placesOk b place = true) :
    exec (.planningCutoff linksW memW place) s = .next { b with sage := { b.sage with placed := place } } := by
  have he : exec (.planningCutoff linksW memW place) s = execPlanningCutoff linksW memW place s := rfl
  have hg : (s.released && decide (s.sage.planTick ≠ s.tick + 1) && decide (s.now < nextBoundary s)) = true := by simp [hr, ht, hn]
  rw [he, execPlanningCutoff, if_pos hg]
  change (match admitAll linksW memW (arrived (atCutoff s) (cutoff (atCutoff s)))
    ((arrived (atCutoff s) (cutoff (atCutoff s))).length + 1) [] (atCutoff s) with
    | none => _
    | some a => _) = _
  rw [ha]
  dsimp only
  change (match rereadPlan ((plannable (atCutoff s)).map Step.key) (setPlan a linksW memW) with
    | none => _
    | some s => _) = _
  rw [hb]
  exact guarded_true _ hp

/-! ## A cut-off with no step to plan -/

theorem arrived_of_ended {s : State} (h : ∀ x ∈ s.sage.steps, x.phase = .ended) (ns : Nat) : arrived s ns = [] := by
  have hf : (s.sage.steps.filter fun t => t.phase == .fresh && t.statuses.isEmpty && decide (t.doorbell < ns)) = [] := by
    rw [List.filter_eq_nil_iff]
    intro x hx
    simp [h x hx]
  rw [arrived, hf]
  rfl

theorem plannable_of_ended {s : State} (h : ∀ x ∈ s.sage.steps, x.phase = .ended) : plannable s = [] := by
  have hf : (s.sage.steps.filter fun t => (t.phase == .admitted || t.phase == .running) && !t.settled &&
      (decide (s.fnState t.fn.val = 2) || decide (s.fnState t.fn.val = 3))) = [] := by
    rw [List.filter_eq_nil_iff]
    intro x hx
    simp [h x hx]
  rw [plannable, hf]
  rfl

theorem buildPlan_nil (s : State) (linksW memW : Nat) :
    (buildPlan s [] linksW memW).items = [] ∧ (buildPlan s [] linksW memW).voids = [] := ⟨rfl, rfl⟩

/-- With no arrived step the checks leave the state as it is. -/
theorem admitAll_nil (linksW memW n : Nat) (s : State) : admitAll linksW memW [] (n + 1) [] s = some s := by
  rw [admitAll, List.foldl_nil]
  dsimp only
  rw [if_pos (by simp)]

theorem planningCutoff_ofEnded {linksW memW : Nat} {s : State} (hr : s.released = true)
    (ht : s.sage.planTick ≠ s.tick + 1) (hn : s.now < nextBoundary s) (h : ∀ x ∈ s.sage.steps, x.phase = .ended) :
    ∃ t, exec (.planningCutoff linksW memW []) s = .next t ∧ t.sage.plan = [] ∧ t.sage.planTick = s.tick + 1 ∧
      t.now = max s.now (cutoff s) := by
  have hend : ∀ x ∈ (atCutoff s).sage.steps, x.phase = .ended := h
  have hplannable := plannable_of_ended hend
  obtain ⟨hplan, htick⟩ := setPlan_plan (atCutoff s) linksW memW
  rw [hplannable, (buildPlan_nil ..).1] at hplan
  have hreread : rereadPlan ((plannable (atCutoff s)).map Step.key) (setPlan (atCutoff s) linksW memW) =
      some (setPlan (atCutoff s) linksW memW) := by
    rw [rereadPlan, hplan]
    rfl
  have hplaces : placesOk (setPlan (atCutoff s) linksW memW) [] = true := by
    simp [placesOk, toPlace, hplan]
  have hadmit : admitAll linksW memW (arrived (atCutoff s) (cutoff (atCutoff s)))
      ((arrived (atCutoff s) (cutoff (atCutoff s))).length + 1) [] (atCutoff s) = some (atCutoff s) := by
    rw [arrived_of_ended hend]
    exact admitAll_nil ..
  refine ⟨_, execPlanningCutoff_eq hr ht hn hadmit hreread hplaces, hplan, htick, ?_⟩
  rw [setPlan, hplannable, (buildPlan_nil ..).2]
  rfl

/-- Settles O24: the boundary in its order, and the cut-off as the model's checks, plan and reads leave it. -/
theorem ticksAndPlans : Obligations.TicksAndPlans := by
  refine ⟨fun meas s => tickBoundary_loads meas, fun linksW memW s hr ht hn => ?_⟩
  intro s1 keys
  exact ⟨fun a b place ha hb hp => ⟨execPlanningCutoff_eq hr ht hn ha hb hp, setPlan_plan ..⟩,
    planningCutoff_ofEnded hr ht hn⟩

end Sys2Proof.Machine
end

section
/-!
O30: groups start, are promoted and resume; a KERNEL command sets up its cores (R47, R111 to R118, R133).
-/
namespace Sys2Proof.Machine
open Sys2Proof.Claims

/-! ## STATUS of a group (R110) -/

theorem bits_ofNat_toNat {v off len : Nat} (h : off + len ≤ 32) : bits (BitVec.ofNat 32 v).toNat off len = bits v off len := by
  refine Nat.eq_of_testBit_eq fun i => ?_
  rw [testBit_bits, testBit_bits, BitVec.toNat_ofNat, Nat.testBit_mod_two_pow]
  by_cases hi : i < len
  · simp [show off + i < 32 by omega]
  · simp [hi]

theorem Group.status_setStatus_same (g : Group) {off len : Nat} (v : Nat) (h : off + len ≤ 32) :
    bits (g.setStatus off len v).status.toNat off len = v % 2 ^ len := by
  rw [Group.setStatus, bits_ofNat_toNat h, bits_putBits_same]

theorem Group.status_setStatus_other (g : Group) {off len o n : Nat} (v : Nat) (hn : o + n ≤ 32)
    (h : o + n ≤ off ∨ off + len ≤ o) : bits (g.setStatus off len v).status.toNat o n = bits g.status.toNat o n := by
  rw [Group.setStatus, bits_ofNat_toNat hn, bits_putBits_other h]

theorem Group.activate_state (g : Group) : g.activate.state = 1 := by
  have h : g.activate.state = bits ((g.setStatus 0 2 1).setStatus 2 5 0).status.toNat 0 2 := rfl
  rw [h, Group.status_setStatus_other _ _ (by decide) (by decide), Group.status_setStatus_same _ _ (by decide)]
  rfl

theorem Group.pend_state (g : Group) (cause on : Nat) : (g.pend cause on).state = 2 := by
  have h : (g.pend cause on).state = bits ((g.setStatus 0 2 2).setStatus 2 5 cause).status.toNat 0 2 := rfl
  rw [h, Group.status_setStatus_other _ _ (by decide) (by decide), Group.status_setStatus_same _ _ (by decide)]
  rfl

theorem Group.pend_cause (g : Group) (cause on : Nat) : (g.pend cause on).cause = cause % 32 := by
  have h : (g.pend cause on).cause = bits ((g.setStatus 0 2 2).setStatus 2 5 cause).status.toNat 2 5 := rfl
  rw [h, Group.status_setStatus_same _ _ (by decide)]
  rfl

/-! ## The registers of a group that starts (R115) -/

/-- The registers of a slot are cleared before a group starts in it. -/
theorem v_sclear (k : Core) {slot r n : Nat} (hr : r < 64) (hn : n < 32) :
    ({ k with rf := sclear k.rf (slot * 2048) ((slot + 1) * 2048) } : Core).v slot r n = 0 := by
  rw [Core.v, sget_sclear, if_pos]
  unfold rfKey
  omega

/-- The uniform registers that the command gives. -/
def startUniforms (c : CoreCmd) (core slot gidx : Nat) : List Nat :=
  [bits c.args.toNat 0 32, bits c.args.toNat 32 32, gidx, c.grid, core, slot, c.window]

theorem startRegs_eq (k : Core) (c : CoreCmd) (core slot gidx : Nat) : k.startRegs c core slot gidx =
    (startUniforms c core slot gidx).zipIdx.foldl (fun k p => k.setU slot p.2 (BitVec.ofNat 32 p.1))
      (({ k with rf := sclear k.rf (slot * 2048) ((slot + 1) * 2048) } : Core).setVs slot 0 (BitVec.allOnes 32) fun t =>
        BitVec.ofNat 32 t) := rfl

/-- Uniform registers lie in row 63. -/
theorem v_foldl_setU (slot : Nat) {sl r n : Nat} (hr : r < 63) (hn : n < 32) (l : List (Nat × Nat)) (hl : ∀ p ∈ l, p.2 < 32)
    (k : Core) : (l.foldl (fun k p => k.setU slot p.2 (BitVec.ofNat 32 p.1)) k).v sl r n = k.v sl r n := by
  induction l generalizing k with
  | nil => rfl
  | cons p l ih =>
    rw [List.foldl_cons, ih (fun q hq => hl q (List.mem_cons_of_mem _ hq)), Core.setU,
      Core.v_setV _ _ (by decide) (hl p List.mem_cons_self) (by omega) hn, if_neg (by omega)]

theorem startRegs_v (k : Core) (c : CoreCmd) (core slot gidx : Nat) {r n : Nat} (hr : r < 63) (hn : n < 32) :
    (k.startRegs c core slot gidx).v slot r n = if r = 0 then BitVec.ofNat 32 n else 0 := by
  have hl : ∀ p ∈ (startUniforms c core slot gidx).zipIdx, p.2 < 32 := by
    intro p hp
    have hlt := List.snd_lt_of_mem_zipIdx hp
    have hlen : (startUniforms c core slot gidx).length = 7 := rfl
    omega
  rw [startRegs_eq, v_foldl_setU slot hr hn _ hl, Core.setVs_v _ _ _ (by decide) (by omega) hn, v_sclear k (by omega) hn, BitVec.getLsbD_allOnes]
  simp [hn]

theorem startRegs_u2 (k : Core) (c : CoreCmd) (core slot gidx : Nat) :
    (k.startRegs c core slot gidx).u slot 2 = BitVec.ofNat 32 gidx := by
  rw [startRegs_eq]
  simp only [startUniforms, List.zipIdx_cons, List.zipIdx_nil, List.foldl_cons, List.foldl_nil, Core.u, Core.setU]
  simp [Core.v_setV]

/-! ## GROUP_START, GROUP_PROMOTE and YIELD_TIMEOUT -/

/-- The group as it starts, before its wait counts as resolved. -/
theorem startGroup_eq (gidx n : Nat) : startGroup gidx n =
    (({ Group.empty with mask := BitVec.allOnes 32, gidx := gidx } : Group).pend waitStart 0).resolve n := rfl

theorem startGroup_state (gidx n : Nat) : (startGroup gidx n).state = 2 := by
  rw [startGroup_eq]
  exact Group.pend_state { Group.empty with mask := BitVec.allOnes 32, gidx := gidx } waitStart 0

theorem startGroup_cause (gidx n : Nat) : (startGroup gidx n).cause = 6 := by
  rw [startGroup_eq]
  exact Group.pend_cause { Group.empty with mask := BitVec.allOnes 32, gidx := gidx } waitStart 0

/-- The core on which a group has started. -/
def groupStarted (s : State) (g : GroupRef) (c : CoreCmd) : Core :=
  { ((s.core g.core).startRegs c g.core g.slot c.next).setGroup g.slot (startGroup c.next s.stamp) with
    cmd := some { c with next := c.next + 1 } }

theorem groupStarted_group (s : State) (g : GroupRef) (c : CoreCmd) :
    (groupStarted s g c).group g.slot = startGroup c.next s.stamp := by
  simp only [Core.group, groupStarted, Core.setGroup, sget_sset_same]

theorem execGroupStart_eq {g : GroupRef} {s : State} {c : CoreCmd} (hc : (s.core g.core).cmd = some c)
    (hr : (s.core g.core).runs = true) (hs : c.stopping = false) (hg : g.slot.val < c.resident) (he : (grp s g).state = 0)
    (hn : c.next < c.first + c.count) :
    exec (.groupStart g) s = .next (s.setCore g.core (groupStarted s g c)).tickStamp := by
  have hx : exec (.groupStart g) s = execGroupStart g s := rfl
  have he' : ((s.core g.core).group g.slot).state = 0 := he
  rw [hx, execGroupStart]
  dsimp only
  rw [hc]
  exact guarded_true _ (by simp [hr, hs, hg, he', hn])

theorem core_setCore_tickStamp (s : State) (c : Nat) (k : Core) : ((s.setCore c k).tickStamp).core c = k :=
  State.core_setCore_same s c k

theorem groupStart_starts {g : GroupRef} {s : State} {c : CoreCmd} (hc : (s.core g.core).cmd = some c)
    (hr : (s.core g.core).runs = true) (hs : c.stopping = false) (hg : g.slot.val < c.resident) (he : (grp s g).state = 0)
    (hn : c.next < c.first + c.count) :
    ∃ t, exec (.groupStart g) s = .next t ∧ (grp t g).pc = 0 ∧ (grp t g).mask = BitVec.allOnes 32 ∧
      (grp t g).exited = 0 ∧ (grp t g).state = 2 ∧ (grp t g).cause = 6 ∧ (grp t g).gidx = c.next ∧
      (∀ n < 32, (t.core g.core).v g.slot 0 n = BitVec.ofNat 32 n) ∧
      (t.core g.core).u g.slot 2 = BitVec.ofNat 32 c.next ∧
      (∀ r n, 0 < r → r < 63 → n < 32 → (t.core g.core).v g.slot r n = 0) := by
  have hcore : ((s.setCore g.core (groupStarted s g c)).tickStamp).core g.core = groupStarted s g c := core_setCore_tickStamp ..
  have hgrp : grp (s.setCore g.core (groupStarted s g c)).tickStamp g = startGroup c.next s.stamp :=
    (congrArg (Core.group · g.slot) hcore).trans (groupStarted_group s g c)
  have hv {r n : Nat} (h63 : r < 63) (h32 : n < 32) : (groupStarted s g c).v g.slot r n = if r = 0 then BitVec.ofNat 32 n else 0 :=
    startRegs_v (s.core g.core) c g.core g.slot c.next h63 h32
  refine ⟨_, execGroupStart_eq hc hr hs hg he hn, ?_⟩
  rw [hgrp, hcore]
  exact ⟨rfl, rfl, rfl, startGroup_state .., startGroup_cause .., rfl, fun n h32 => hv (by decide) h32,
    startRegs_u2 (s.core g.core) c g.core g.slot c.next, fun r n h0 h63 h32 => (hv h63 h32).trans (if_neg (by omega))⟩

theorem groupPromote_activates {s : State} {core : CoreNo} {q : Fin 4} {p : Nat × Group} (hr : (s.core core).runs = true)
    (ha : (s.core core).activeCount q < 4) (hp : earliest ((s.core core).resolvedGroups q) = some p) :
    ∃ t, exec (.groupPromote core q) s = .next t ∧ ((t.core core).group p.1).state = 1 ∧
      ((t.core core).group p.1).pc = p.2.pc ∧ t.mem = s.mem := by
  have hx : exec (.groupPromote core q) s = .next (s.setCore core ((s.core core).setGroup p.1 p.2.activate)) := by
    have he : exec (.groupPromote core q) s = execGroupPromote core q s := rfl
    rw [he, execGroupPromote, hp]
    exact guarded_true _ (by simp [hr, ha])
  refine ⟨_, hx, ?_⟩
  rw [State.core_setCore_same, Core.group_setGroup_same]
  exact ⟨Group.activate_state _, rfl, rfl⟩

theorem yieldTimeout_resolves {g : GroupRef} {s : State} {c : CoreCmd} (hc : (s.core g.core).cmd = some c)
    (hs : (grp s g).state = 2) (hy : (grp s g).cause = 5) (hr : (grp s g).resolved = none) :
    ∃ t, exec (.yieldTimeout g) s = .next t ∧ (grp t g).resolved = some s.stamp ∧ (grp t g).pc = (grp s g).pc := by
  have hs' : ((s.core g.core).group g.slot).state = 2 := hs
  have hy' : ((s.core g.core).group g.slot).cause = 5 := hy
  have hr' : ((s.core g.core).group g.slot).resolved = none := hr
  refine ⟨_, guarded_true _ (by simp [liveGroup, hc, hs', hy', hr', waitYield]), ?_⟩
  rw [grp, core_setCore_tickStamp, Core.group_setGroup_same]
  exact ⟨rfl, rfl⟩

end Sys2Proof.Machine
end

section
/-!
O30: a KERNEL command sets up each core of its ranges (R47, R111 to R114).
-/
namespace Sys2Proof.Machine
open Sys2Proof.Claims

/-- A fold establishes a property of each element of a list, where each element's step establishes it and no other step loses it. -/
theorem foldl_establishes {α : Type} {f : State → α → State} {P : α → State → Prop} {l : List α} (hnd : l.Nodup)
    (hmake : ∀ s, ∀ a ∈ l, P a (f s a)) (hkeep : ∀ s, ∀ a ∈ l, ∀ b ∈ l, a ≠ b → P a s → P a (f s b)) (s : State) :
    ∀ a ∈ l, P a (l.foldl f s) := by
  have hstay : ∀ (m : List α), (∀ b ∈ m, b ∈ l) → ∀ a ∈ l, a ∉ m → ∀ s, P a s → P a (m.foldl f s) := by
    intro m
    induction m with
    | nil => exact fun _ _ _ _ s h => h
    | cons b m ih =>
      intro hm a ha hn s h
      rw [List.mem_cons, not_or] at hn
      exact ih (fun c hc => hm c (List.mem_cons_of_mem _ hc)) a ha hn.2 _ (hkeep s a ha b (hm b List.mem_cons_self) hn.1 h)
  suffices hall : ∀ (m : List α), (∀ b ∈ m, b ∈ l) → m.Nodup → ∀ s, ∀ a ∈ m, P a (m.foldl f s) from hall l (fun _ h => h) hnd s
  intro m
  induction m with
  | nil => exact fun _ _ _ _ h => absurd h List.not_mem_nil
  | cons b m ih =>
    intro hm hnd s a ha
    rw [List.nodup_cons] at hnd
    have hm' : ∀ c ∈ m, c ∈ l := fun c hc => hm c (List.mem_cons_of_mem _ hc)
    rcases List.mem_cons.mp ha with rfl | ha
    · exact hstay m hm' a (hm a List.mem_cons_self) hnd.1 _ (hmake s a (hm a List.mem_cons_self))
    · exact ih hm' hnd.2 _ a ha

/-- A fold keeps a property that each of its steps keeps. -/
theorem foldl_keeps {α : Type} {f : State → α → State} {P : State → Prop} (hf : ∀ s a, P s → P (f s a)) (l : List α) {s : State}
    (h : P s) : P (l.foldl f s) := by
  induction l generalizing s with
  | nil => exact h
  | cons a l ih => exact ih (hf s a h)

/-! ## Ranges -/

/-- The cores of contiguous ranges rise (R111). -/
theorem rangesFrom_rises {rs : List CoreRange} {core lo hi : Nat} (h : rangesFrom rs core lo hi = true) :
    (∀ r ∈ rs, core ≤ r.core.val) ∧ rs.Pairwise fun a b => a.core ≠ b.core := by
  induction rs generalizing core lo with
  | nil => exact ⟨fun _ h => absurd h List.not_mem_nil, List.Pairwise.nil⟩
  | cons r rs ih =>
    simp only [rangesFrom, Bool.and_eq_true, decide_eq_true_eq] at h
    obtain ⟨⟨hcore, -⟩, hrest⟩ := h
    obtain ⟨hle, hpair⟩ := ih hrest
    refine ⟨fun a ha => ?_, List.Pairwise.cons (fun a ha heq => ?_) hpair⟩
    · rcases List.mem_cons.mp ha with rfl | ha
      · exact hcore
      · exact Nat.le_trans (Nat.le_succ_of_le hcore) (hle a ha)
    · have := hle a ha
      rw [heq] at this
      omega

theorem rangesOk_pairwise {s : State} {x : Step} {i : Nat} {y : Cmd} {rs : List CoreRange} (h : rangesOk s x i y rs = true) :
    rs.Pairwise fun a b => a.core ≠ b.core := by
  simp only [rangesOk, Bool.and_eq_true] at h
  exact (rangesFrom_rises h.1.1.1).2

/-! ## A core that is set up -/

/-- The core runs the command from the start of its range, with nothing of an earlier command (R112). -/
structure SetUpCore (c : CmdRef) (x : Step) (y : Cmd) (r : CoreRange) (k : Core) : Prop where
  cmd : ∃ z, k.cmd = some z ∧ z.step = c.step ∧ z.idx = c.cmd ∧ z.fn = x.fn ∧ z.first = r.first ∧ z.count = r.count ∧
    z.next = r.first ∧ z.grid = y.field 0xC 4 ∧ z.stopping = false
  groups : k.groups = []
  rf : k.rf = []
  tiles : k.tiles = []
  tickets : k.tickets = []
  mq : k.mq = []
  inbox : k.inbox = Inbox.empty

namespace SetUpCore
variable {c : CmdRef} {x : Step} {y : Cmd} {r : CoreRange} {k : Core}

theorem setupCore (s : State) (r : CoreRange) (hk : x.key = c.step) : SetUpCore c x y r (setupCore s x c.cmd y r) :=
  ⟨⟨_, rfl, hk, rfl, rfl, rfl, rfl, rfl, rfl, rfl⟩, rfl, rfl, rfl, rfl, rfl, rfl⟩

/-- The clock and the stagger are not of the command. -/
theorem withHw (h : SetUpCore c x y r k) (hw : CoreHw) : SetUpCore c x y r { k with hw := hw } :=
  ⟨h.cmd, h.groups, h.rf, h.tiles, h.tickets, h.mq, h.inbox⟩

theorem setLmark (h : SetUpCore c x y r k) (n : Nat) (b : Bool) : SetUpCore c x y r (k.setLmark n b) :=
  ⟨h.cmd, h.groups, h.rf, h.tiles, h.tickets, h.mq, h.inbox⟩

theorem lwrite (h : SetUpCore c x y r k) (a n v : Nat) : SetUpCore c x y r (k.lwrite a n v) :=
  ⟨h.cmd, h.groups, h.rf, h.tiles, h.tickets, h.mq, h.inbox⟩

theorem foldl {α : Type} {f : Core → α → Core} (hf : ∀ k a, SetUpCore c x y r k → SetUpCore c x y r (f k a)) (l : List α)
    (h : SetUpCore c x y r k) : SetUpCore c x y r (l.foldl f k) := by
  induction l generalizing k with
  | nil => exact h
  | cons a l ih => exact ih (hf k a h)

theorem cleanCovered (h : SetUpCore c x y r k) (spans : List Span) : SetUpCore c x y r (k.cleanCovered spans) := by
  refine foldl (fun k n hk => ?_) _ h
  split
  · exact hk.setLmark n false
  · exact hk

/-- After a deposit the core cannot be restarted. -/
theorem irreversible (h : SetUpCore c x y r k) :
    SetUpCore c x y r { k with cmd := k.cmd.map fun z => { z with irreversible := true } } := by
  obtain ⟨z, hz, hrest⟩ := h.cmd
  exact ⟨⟨{ z with irreversible := true }, by rw [hz]; rfl, hrest⟩, h.groups, h.rf, h.tiles, h.tickets, h.mq, h.inbox⟩

theorem deposit (h : SetUpCore c x y r k) (d : Deposit) : SetUpCore c x y r (k.deposit d) :=
  irreversible (foldl (fun _ sp hk => foldl (fun _ n hk => hk.setLmark n true) (Span.sectors sp) hk) d.bad
    ((h.lwrite d.off d.len d.data).cleanCovered [(d.off, d.len)]))

/-- A core whose range has groups left has not finished its command. -/
theorem not_done (h : SetUpCore c x y r k) (hn : r.count ≠ 0) : k.done = false := by
  obtain ⟨z, hz, -, -, -, hfirst, hcount, hnext, -, hstop⟩ := h.cmd
  have hleft : decide (z.first + z.count ≤ z.next) = false := decide_eq_false (by omega)
  simp [Core.done, hz, hstop, hleft]

end SetUpCore

/-- A core that is set up, in a state. -/
def SetUpAt (c : CmdRef) (x : Step) (y : Cmd) (r : CoreRange) (s : State) : Prop := SetUpCore c x y r (s.core r.core.val)

namespace SetUpAt
variable {c : CmdRef} {x : Step} {y : Cmd} {r : CoreRange} {s t : State}

theorem of_cores (h : SetUpAt c x y r s) (hc : t.cores = s.cores) : SetUpAt c x y r t := by
  rw [SetUpAt, State.core, hc]
  exact h

/-- A change of one core, which keeps it set up if it is the range's. -/
theorem setCore (h : SetUpAt c x y r s) (d : Nat) {k : Core} (hk : SetUpCore c x y r (s.core d) → SetUpCore c x y r k) :
    SetUpAt c x y r (s.setCore d k) := by
  rw [SetUpAt, State.core_setCore]
  split
  case isTrue hd =>
    rw [← hd] at hk
    exact hk h
  case isFalse => exact h

theorem stagger (h : SetUpAt c x y r s) (key : Nat) (p : CoreRange × Nat) : SetUpAt c x y r (staggerCore s key p) := by
  unfold staggerCore
  split
  · exact h.setCore _ fun hk => hk.withHw _
  · exact h

theorem landDeposit (h : SetUpAt c x y r s) (key : Nat) (d : Deposit) : SetUpAt c x y r (landDeposit key s d) := by
  unfold Machine.landDeposit
  dsimp only
  split
  · exact h.of_cores rfl
  · split
    · exact h.setCore _ fun hk => hk.deposit d
    · exact h.of_cores rfl

/-- A core whose range has groups left is not freed. -/
theorem settle (h : SetUpAt c x y r s) (hn : r.count ≠ 0) (d : Nat) : SetUpAt c x y r (settleCore s d) := by
  unfold settleCore
  dsimp only
  split
  · exact h
  · split
    case isTrue hdone =>
      have hfree : SetUpAt c x y r (s.setCore d (s.core d).release) :=
        h.setCore d fun hk => absurd hdone (by rw [hk.not_done hn]; decide)
      split
      · exact hfree
      · exact hfree.of_cores rfl
    case isFalse => exact h

end SetUpAt

/-! ## KERNEL -/

/-- The cores of the ranges are set up. -/
def setupCores (s : State) (c : CmdRef) (x : Step) (y : Cmd) (ranges : List CoreRange) : State :=
  ranges.foldl (fun s r => noteRan (s.setCore r.core.val (setupCore s x c.cmd y r)) r.core.val x.fn.val) s

/-- What KERNEL does once its cores are set up: stagger, deposits and the cores' names in the command. -/
def kernelPlaced (s : State) (c : CmdRef) (x : Step) (ranges : List CoreRange) : State :=
  let s := ranges.zipIdx.foldl (fun s p => staggerCore s x.key p) s
  let s := x.deposits.foldl (landDeposit x.key) s
  updStep s x.key fun z => { z with
    deposits := []
    cmds := z.cmds.zipIdx.map fun q => if q.2 = c.cmd then { q.1 with cores := ranges.map CoreRange.core } else q.1 }

theorem execKernel_eq {c : CmdRef} {ranges : List CoreRange} {s : State} {x : Step} {y : Cmd}
    (h : startable s c 1 = some (x, y)) (hr : rangesOk s x c.cmd y ranges = true) :
    exec (.kernel c ranges) s = .next (
      let t := kernelPlaced (setupCores (beginCmd s c x) c x y ranges) c x ranges
      if ranges.isEmpty then setPhase t c.step c.cmd .done else ranges.foldl (fun s r => settleCore s r.core.val) t) := by
  have he : exec (.kernel c ranges) s = execKernel c ranges s := rfl
  rw [he, execKernel, h]
  exact guarded_true _ hr

theorem setupCores_setUp (s : State) {c : CmdRef} {x : Step} (y : Cmd) {ranges : List CoreRange} (hk : x.key = c.step)
    (hd : ranges.Pairwise fun a b => a.core ≠ b.core) : ∀ r ∈ ranges, SetUpAt c x y r (setupCores s c x y ranges) := by
  have hcores : (ranges.map CoreRange.core).Nodup := List.pairwise_map.mpr hd
  have hne {a b : CoreRange} (ha : a ∈ ranges) (hb : b ∈ ranges) (hab : a ≠ b) : a.core ≠ b.core := fun he =>
    hab (List.inj_on_of_nodup_map hcores ha hb he)
  refine foldl_establishes (P := fun r s => SetUpAt c x y r s) hcores.of_map (fun s a _ => ?_)
    (fun s a ha b hb hab h => ?_) s
  · refine SetUpAt.of_cores (s := s.setCore a.core.val (setupCore s x c.cmd y a)) ?_ rfl
    rw [SetUpAt, State.core_setCore_same]
    exact SetUpCore.setupCore s a hk
  · refine SetUpAt.of_cores (s := s.setCore b.core.val (setupCore s x c.cmd y b)) ?_ rfl
    rw [SetUpAt, State.core_setCore, if_neg fun he => hne ha hb hab (Fin.ext he)]
    exact h

theorem kernelPlaced_setUp {s : State} {c : CmdRef} {x : Step} {y : Cmd} {r : CoreRange} (h : SetUpAt c x y r s)
    (ranges : List CoreRange) : SetUpAt c x y r (kernelPlaced s c x ranges) :=
  SetUpAt.of_cores (foldl_keeps (P := SetUpAt c x y r) (fun _ d h => h.landDeposit x.key d) x.deposits
    (foldl_keeps (P := SetUpAt c x y r) (fun _ p h => h.stagger x.key p) ranges.zipIdx h)) rfl

theorem landDeposit_sage (key : Nat) (s : State) (d : Deposit) : (landDeposit key s d).sage = s.sage := by
  unfold landDeposit
  dsimp only
  split
  · rfl
  · split <;> rfl

/-- With no range the command stands in its step as it began. -/
theorem kernelPlaced_nil {s : State} {c : CmdRef} {x : Step} {z : Cmd} (hk : x.key = c.step) (hz : cmdAt s c = some z) :
    ∃ w, cmdAt (kernelPlaced s c x []) c = some w := by
  have hland : (x.deposits.foldl (landDeposit x.key) s).sage = s.sage :=
    foldl_keeps (P := fun u => u.sage = s.sage) (fun u d h => (landDeposit_sage x.key u d).trans h) x.deposits rfl
  have he : kernelPlaced s c x [] = updStep (updStep (x.deposits.foldl (landDeposit x.key) s) x.key fun t =>
      { t with deposits := [] }) x.key fun t => t.onCmd c.cmd fun q => { q with cores := [] } := by
    simp only [kernelPlaced, updStep, List.zipIdx_nil, List.foldl_nil, List.map_map, List.map_nil]
    congr 2
    refine List.map_congr_left fun t _ => ?_
    by_cases ht : t.key = x.key <;> simp [ht, Step.onCmd]
  rw [he, hk, cmdAt_onCmd, ← hk, cmdAt_updStep (by intro; rfl) (by intro; rfl), cmdAt_of_steps (congrArg SageState.steps hland), hz]
  exact ⟨_, rfl⟩

/-- A KERNEL that may start sets up the cores that have groups to run; with no range it is done. -/
theorem kernel_setsUp {c : CmdRef} {ranges : List CoreRange} {s : State} {x : Step} {y : Cmd}
    (h : startable s c 1 = some (x, y)) (hr : rangesOk s x c.cmd y ranges = true) :
    ∃ t, exec (.kernel c ranges) s = .next t ∧ (ranges = [] → cmdPhase t c = some .done) ∧
      ∀ r ∈ ranges, r.count ≠ 0 → SetUpAt c x y r t := by
  have hk : x.key = c.step := findStep_key (startable_eq h).1
  refine ⟨_, execKernel_eq h hr, fun hnil => ?_, fun r hm hn => ?_⟩
  · subst hnil
    obtain ⟨z, hz, -, -⟩ := cmdAt_beginCmd hk (startable_cmdAt h)
    obtain ⟨w, hw⟩ := kernelPlaced_nil hk (s := setupCores (beginCmd s c x) c x y []) hz
    exact cmdPhase_setPhase hw .done
  · have hset := kernelPlaced_setUp (setupCores_setUp (beginCmd s c x) y hk (rangesOk_pairwise hr) r hm) ranges
    dsimp only
    split
    · exact hset.of_cores rfl
    · exact foldl_keeps (P := SetUpAt c x y r) (fun _ d h => h.settle hn d.core.val) ranges hset

/-- Settles O30: the rows of groups, and the cores that KERNEL sets up. -/
theorem kernelsAndGroupsStart : Obligations.KernelsAndGroupsStart := by
  refine ⟨fun g s c => ⟨groupStart_starts, fun _ _ => groupPromote_activates, yieldTimeout_resolves⟩, fun c ranges s x y h hr => ?_⟩
  obtain ⟨t, ht, hnil, hset⟩ := kernel_setsUp h hr
  refine ⟨t, ht, hnil, fun r hm hn => ?_⟩
  obtain ⟨hcmd, hgroups, hrf, htiles, htickets, hmq, hinbox⟩ := hset r hm hn
  exact ⟨hcmd, hgroups, hrf, htiles, htickets, hmq, hinbox⟩

end Sys2Proof.Machine
end

section
/-!
The lines of device memory: what a controller's write of a line leaves of each line (R305, R311), and the copies of mirrors (R314).
-/
namespace Sys2Proof.Machine
open Sys2Proof.Claims

/-! ## Wide reads -/

theorem memRead_congr {m m' : List Host.Cell} (n : Nat) : ∀ a, (∀ i < n, memGet m (a + i) = memGet m' (a + i)) →
    memRead m a n = memRead m' a n := by
  induction n with
  | zero => exact fun _ _ => rfl
  | succ n ih =>
    intro a h
    have h0 := h 0 (by omega)
    rw [Nat.add_zero] at h0
    rw [memRead, memRead, h0, ih (a + 1) fun i hi => by rw [Nat.add_assoc, Nat.add_comm 1]; exact h (i + 1) (by omega)]

/-- A wide read of what a wide write wrote. -/
theorem memRead_memWrite (n : Nat) : ∀ (m : List Host.Cell) (a v : Nat), memRead (memWrite m a n v) a n = v % 256 ^ n := by
  induction n with
  | zero => intro m a v; rw [memRead, Nat.pow_zero, Nat.mod_one]
  | succ n ih =>
    intro m a v
    have h0 : memGet (memWrite m a (n + 1) v) a = BitVec.ofNat 8 v := by
      simpa using memGet_memWrite_inside (n + 1) m a v 0 (by omega)
    have hp : 256 ^ (n + 1) = 256 * 256 ^ n := Nat.pow_succ'
    rw [memRead, h0, memWrite, ih, BitVec.toNat_ofNat, hp]
    exact (Nat.mod_mul ..).symm

theorem memRead_memWrite_ofNat (n : Nat) (m : List Host.Cell) (a : Nat) (d : BitVec (8 * n)) :
    BitVec.ofNat (8 * n) (memRead (memWrite m a n d.toNat) a n) = d := by
  have hp : (256 : Nat) ^ n = 2 ^ (8 * n) := by rw [Nat.pow_mul]
  rw [memRead_memWrite, hp, Nat.mod_eq_of_lt d.isLt, BitVec.ofNat_toNat, BitVec.setWidth_eq]

theorem memRead_memWrite_line (m : List Host.Cell) (no : Nat) (d : LineData) :
    BitVec.ofNat 4096 (memRead (memWrite m (512 * no) 512 d.toNat) (512 * no) 512) = d :=
  memRead_memWrite_ofNat 512 m (512 * no) d

theorem memRead_memWrite_otherLine (m : List Host.Cell) {no no' : Nat} (d : LineData) (h : no' ≠ no) :
    memRead (memWrite m (512 * no) 512 d.toNat) (512 * no') 512 = memRead m (512 * no') 512 :=
  memRead_congr 512 _ fun _ _ => memGet_memWrite_outside 512 _ _ _ _ (by omega)

/-! ## Sector marks -/

/-- The four sectors of a line in a table of sectors. -/
def putSectors (p : Sparse Bool) (no : Nat) (f : Nat → Bool) : Sparse Bool :=
  sset (fun _ => false) (sset (fun _ => false) (sset (fun _ => false) (sset (fun _ => false) p (4 * no + 0) (f 0))
    (4 * no + 1) (f 1)) (4 * no + 2) (f 2)) (4 * no + 3) (f 3)

theorem sget_putSectors (p : Sparse Bool) (no no' : Nat) (f : Nat → Bool) {i : Nat} (hi : i < 4) :
    sget (fun _ => false) (putSectors p no f) (4 * no' + i) =
      if no' = no then f i else sget (fun _ => false) p (4 * no' + i) := by
  simp only [putSectors, sget_sset]
  by_cases h : no' = no
  · subst h
    have hi' : i = 0 ∨ i = 1 ∨ i = 2 ∨ i = 3 := by omega
    rcases hi' with rfl | rfl | rfl | rfl <;> simp
  · rw [if_neg (by omega), if_neg (by omega), if_neg (by omega), if_neg (by omega), if_neg h]

/-- Whether a line lies on a slow channel whose code pages were remapped: a sector that nothing wrote since reads marked (R298). -/
def remapped (s : State) (no : Nat) : Bool := decide (sget (fun _ => 0) s.mem.remap (channelOf no - 128) = 1) && !fastLine no

theorem sectorMark_eq (s : State) (no i : Nat) : sectorMark s no i = (sget (fun _ => false) s.mem.poison (4 * no + i) ||
    (remapped s no && !sget (fun _ => false) s.mem.clean (4 * no + i))) := rfl

theorem setMarks_eq (s : State) (no : Nat) (m : Marks) : setMarks s no m = { s with mem := { s.mem with
    poison := putSectors s.mem.poison no m.getLsbD
    clean := if sget (fun _ => 0) s.mem.remap (channelOf no - 128) = 1 ∧ fastLine no = false
      then putSectors s.mem.clean no fun _ => true else s.mem.clean } } := rfl

theorem sectorMark_setMarks (s : State) (no no' : Nat) (m : Marks) {i : Nat} (hi : i < 4) :
    sectorMark (setMarks s no m) no' i = if no' = no then m.getLsbD i else sectorMark s no' i := by
  have hr : remapped (setMarks s no m) no' = remapped s no' := rfl
  have hp : sget (fun _ => false) (setMarks s no m).mem.poison (4 * no' + i) =
      if no' = no then m.getLsbD i else sget (fun _ => false) s.mem.poison (4 * no' + i) := sget_putSectors _ _ _ _ hi
  have hc : sget (fun _ => false) (setMarks s no m).mem.clean (4 * no' + i) =
      if no' = no ∧ remapped s no = true then true else sget (fun _ => false) s.mem.clean (4 * no' + i) := by
    have hcond : (sget (fun _ => 0) s.mem.remap (channelOf no - 128) = 1 ∧ fastLine no = false) ↔ remapped s no = true := by
      simp [remapped]
    rw [setMarks_eq]
    dsimp only
    by_cases h : remapped s no = true
    · rw [if_pos (hcond.mpr h), sget_putSectors _ _ _ _ hi]
      simp [h]
    · rw [if_neg fun hn => h (hcond.mp hn)]
      simp [h]
  rw [sectorMark_eq, sectorMark_eq, hr, hp, hc]
  by_cases h : no' = no
  · subst h
    cases remapped s no' <;> simp
  · simp [h]

theorem marks_of_bits (m : Marks) : BitVec.ofNat 4 (b2n (m.getLsbD 0) + 2 * b2n (m.getLsbD 1) + 4 * b2n (m.getLsbD 2) +
    8 * b2n (m.getLsbD 3)) = m := by
  revert m
  decide

theorem memMarks_of_sectorMark {s : State} {no : Nat} {m : Marks} (h : ∀ i < 4, sectorMark s no i = m.getLsbD i) :
    memMarks s no = m := by
  rw [memMarks, h 0 (by decide), h 1 (by decide), h 2 (by decide), h 3 (by decide)]
  exact marks_of_bits m

theorem memMarks_congr {s t : State} {no : Nat} (h : ∀ i < 4, sectorMark t no i = sectorMark s no i) :
    memMarks t no = memMarks s no := by
  rw [memMarks, memMarks, h 0 (by decide), h 1 (by decide), h 2 (by decide), h 3 (by decide)]

/-! ## A controller's write of a line -/

theorem ctrlWrite_eq {s : State} {no : Nat} (h : pageLost s no = false) (d : LineData) (m : Marks) :
    ctrlWrite s no d m = { setMarks s no m with mem := { (setMarks s no m).mem with
      dev := memWrite s.mem.dev (512 * no) 512 d.toNat
      discard := sset (fun _ => false) s.mem.discard no false } } := by
  rw [ctrlWrite, h]
  rfl

theorem memMarks_ctrlWrite {s : State} {no : Nat} (h : pageLost s no = false) (d : LineData) (m : Marks) (no' : Nat) :
    memMarks (ctrlWrite s no d m) no' = if no' = no then m else memMarks s no' := by
  have hs (i : Nat) : sectorMark (ctrlWrite s no d m) no' i = sectorMark (setMarks s no m) no' i := by
    rw [ctrlWrite_eq h, sectorMark_eq, sectorMark_eq, remapped, remapped]
  split
  case isTrue he => exact memMarks_of_sectorMark fun i hi => by rw [hs, sectorMark_setMarks s no no' m hi, if_pos he]
  case isFalse he => exact memMarks_congr fun i hi => by rw [hs, sectorMark_setMarks s no no' m hi, if_neg he]

theorem dev_ctrlWrite {s : State} {no : Nat} (h : pageLost s no = false) (d : LineData) (m : Marks) :
    (ctrlWrite s no d m).mem.dev = memWrite s.mem.dev (512 * no) 512 d.toNat := by rw [ctrlWrite_eq h]

theorem memData_ctrlWrite {s : State} {no : Nat} (h : pageLost s no = false) (d : LineData) (m : Marks) (no' : Nat) :
    memData (ctrlWrite s no d m) no' = if no' = no then d else memData s no' := by
  rw [memData, dev_ctrlWrite h]
  split
  case isTrue he => rw [he, memRead_memWrite_line]
  case isFalse he => rw [memRead_memWrite_otherLine _ d he, memData]

/-! ## Copies of lines -/

/-- Two states that differ in memory alone, with the same channels and the same operations at the controllers. -/
structure SameChannels (s t : State) : Prop where
  dict : t.dict = s.dict
  grade : t.grade = s.grade
  remap : t.mem.remap = s.mem.remap
  ctrl : t.mem.ctrl = s.mem.ctrl

namespace SameChannels
variable {s t : State}

theorem refl : SameChannels s s := ⟨rfl, rfl, rfl, rfl⟩

theorem ctrlWrite (h : SameChannels s t) {no : Nat} (hn : pageLost t no = false) (d : LineData) (m : Marks) :
    SameChannels s (ctrlWrite t no d m) := by
  rw [ctrlWrite_eq hn]
  exact ⟨h.dict, h.grade, h.remap, h.ctrl⟩

theorem chanOf (h : SameChannels s t) (no : Nat) : chanOf t no = chanOf s no := by rw [Machine.chanOf, Machine.chanOf, h.remap]

theorem pageLost (h : SameChannels s t) (no : Nat) : pageLost t no = pageLost s no := by
  rw [Machine.pageLost, Machine.pageLost, h.chanOf, State.obj_eq_of_dict h.dict h.grade]

theorem pendingWrite (h : SameChannels s t) (no : Nat) : pendingWrite t no = pendingWrite s no := by
  rw [Machine.pendingWrite, Machine.pendingWrite, h.chanOf, ctrlOf, ctrlOf, h.ctrl]

/-- A line whose stored data and marks are the same is returned the same. -/
theorem ctrlRead (h : SameChannels s t) {no : Nat} (hd : memData t no = memData s no) (hm : memMarks t no = memMarks s no) :
    ctrlRead t no = ctrlRead s no := by
  rw [Machine.ctrlRead, Machine.ctrlRead, h.pageLost, h.pendingWrite, hd, hm]

end SameChannels

/-- What a copy of `k` lines has done (R311, R314): the first `k` destination lines hold what the source lines' controllers return,
and no other line has changed. -/
structure CopiedLines (s : State) (src dst k : Nat) (t : State) : Prop where
  channels : SameChannels s t
  copied : ∀ i < k, memData t (dst + i) = (ctrlRead s (src + i)).1 ∧ memMarks t (dst + i) = (ctrlRead s (src + i)).2
  others : ∀ no, ¬(dst ≤ no ∧ no < dst + k) → memData t no = memData s no ∧ memMarks t no = memMarks s no
  bytes : DevSameOutside s t (512 * dst) (512 * k)

theorem copyLines_succ (s : State) (src dst n : Nat) : copyLines s src dst (n + 1) =
    ctrlWrite (copyLines s src dst n) (dst + n) (ctrlRead (copyLines s src dst n) (src + n)).1
      (ctrlRead (copyLines s src dst n) (src + n)).2 := by
  rw [copyLines, List.range_succ, List.foldl_append]
  rfl

/-- A copy between ranges that do not meet, on channels in service. -/
theorem copyLines_copied {s : State} {src dst n : Nat} (hdst : ∀ i < n, pageLost s (dst + i) = false)
    (hapart : src + n ≤ dst ∨ dst + n ≤ src) (k : Nat) (hk : k ≤ n) : CopiedLines s src dst k (copyLines s src dst k) := by
  induction k with
  | zero => exact ⟨.refl, fun i hi => absurd hi (Nat.not_lt_zero i), fun _ _ => ⟨rfl, rfl⟩, fun _ _ => rfl⟩
  | succ k ih =>
    obtain ⟨hch, hcopied, hothers, hbytes⟩ := ih (by omega)
    have hserve : pageLost (copyLines s src dst k) (dst + k) = false := by rw [hch.pageLost]; exact hdst k (by omega)
    obtain ⟨hsd, hsm⟩ := hothers (src + k) (by omega)
    have hread : ctrlRead (copyLines s src dst k) (src + k) = ctrlRead s (src + k) := hch.ctrlRead hsd hsm
    rw [copyLines_succ, hread]
    refine ⟨hch.ctrlWrite hserve _ _, fun i hi => ?_, fun no hno => ?_, fun x hx => ?_⟩
    · rw [memData_ctrlWrite hserve, memMarks_ctrlWrite hserve]
      by_cases hik : i = k
      · subst hik
        rw [if_pos rfl, if_pos rfl]
        exact ⟨rfl, rfl⟩
      · rw [if_neg (by omega), if_neg (by omega)]
        exact hcopied i (by omega)
    · rw [memData_ctrlWrite hserve, memMarks_ctrlWrite hserve, if_neg (by omega), if_neg (by omega)]
      exact hothers no (by omega)
    · rw [dev_ctrlWrite hserve, memGet_memWrite_outside 512 _ _ _ _ (by omega)]
      exact hbytes x (by omega)

end Sys2Proof.Machine
end

section
/-!
O44: mark-only updates, mirror copies, lost channels and scrub passes (R241, R298 to R300, R314, R318 to R321).
-/
namespace Sys2Proof.Machine
open Sys2Proof.Claims

/-! ## MARK_ONLY_UPDATE and MIRROR_COPY_DONE -/

theorem takeFirst_sat {α : Type} {p : α → Bool} {l : List α} {x : α} {rest : List α} (h : takeFirst p l = some (x, rest)) :
    p x = true := by
  induction l generalizing rest with
  | nil => cases h
  | cons a l ih =>
    rw [takeFirst] at h
    split at h
    case isTrue hp =>
      cases h
      exact hp
    case isFalse =>
      obtain ⟨⟨y, r⟩, hy, he⟩ := Option.map_eq_some_iff.mp h
      cases he
      exact ih hy

/-- The operation that a slot holds for a line is of that line. -/
theorem slotOp_line {s : State} {no : Nat} {p : CtrlOp → Bool} {o : CtrlOp} {c : Ctrl} (h : slotOp s no p = some (o, c)) :
    o.line = no := by
  unfold slotOp at h
  dsimp only at h
  split at h
  · cases h
  case h_2 o' rest ht =>
    split at h <;> cases h
    have hsat := takeFirst_sat ht
    rw [Bool.and_eq_true, decide_eq_true_eq] at hsat
    exact hsat.2

theorem pageLost_setCtrl (s : State) (ch : Nat) (c : Ctrl) (no : Nat) : pageLost (setCtrl s ch c) no = pageLost s no := rfl

theorem ctrlOf_setCtrl (s : State) (ch : Nat) (c : Ctrl) : ctrlOf (setCtrl s ch c) ch = c := sget_sset_same ..

theorem discard_setDiscard (s : State) (no : Nat) : sget (fun _ => false) (setDiscard s no).mem.discard no = true := by
  simp only [setDiscard, sget_sset_same]

theorem markOnlyUpdate_marks {s : State} {no : Nat} {o : CtrlOp} {c : Ctrl}
    (h : slotOp s no (fun o => o.kind == .mark) = some (o, c)) :
    ∃ t, exec (.markOnlyUpdate no) s = .next t ∧ ctrlOf t (chanOf s no) = c ∧ t.mem.dev = s.mem.dev ∧ t.coh = s.coh ∧
      (pageLost s no = false → sget (fun _ => false) t.mem.discard no = true) := by
  have hx : exec (.markOnlyUpdate no) s = .next (if pageLost s no then setCtrl s (chanOf s no) c
      else setDiscard (setCtrl s (chanOf s no) c) no) := by
    have he : exec (.markOnlyUpdate no) s = execMarkOnlyUpdate no s := rfl
    rw [he, execMarkOnlyUpdate, h]
    dsimp only
    rw [slotOp_line h, pageLost_setCtrl]
  cases hl : pageLost s no with
  | true =>
    rw [hl, if_pos rfl] at hx
    exact ⟨_, hx, ctrlOf_setCtrl .., rfl, rfl, fun hf => absurd hf (by decide)⟩
  | false =>
    rw [hl, if_neg (by decide)] at hx
    exact ⟨_, hx, ctrlOf_setCtrl .., rfl, rfl, fun _ => discard_setDiscard ..⟩

/-- The copy of an entry, whose state is ACTIVE with it (R314). -/
theorem execMirrorCopyDone_eq {s : State} {e : Fin 64} (h : s.obj 0x2051 2 e.val = 1) (hj : jobOpen s (mirrorJob e.val) = false) :
    exec (.mirrorCopyDone e) s = .next ((copyLines s (repPrimary s e.val / 512) (repMirror s e.val / 512)
      (repPages s e.val * 128)).setObj 0x2051 2 e.val 2) := guarded_true _ (by simp [h, hj])

/-- A mirror copy between ranges that do not meet, on channels in service. -/
theorem mirrorCopyDone_copies {s : State} {e : Fin 64} (h : s.obj 0x2051 2 e.val = 1) (hj : jobOpen s (mirrorJob e.val) = false) :
    let p := repPrimary s e.val / 512
    let m := repMirror s e.val / 512
    let n := repPages s e.val * 128
    (∃ t, exec (.mirrorCopyDone e) s = .next t ∧ t.obj 0x2051 2 e.val = 2) ∧
    ((∀ i < n, pageLost s (p + i) = false ∧ pageLost s (m + i) = false) → p + n ≤ m ∨ m + n ≤ p →
      ∃ t, exec (.mirrorCopyDone e) s = .next t ∧ DevSameOutside s t (512 * m) (512 * n) ∧
        ∀ i < n, memData t (m + i) = (ctrlRead s (p + i)).1 ∧ memMarks t (m + i) = (ctrlRead s (p + i)).2) := by
  intro p m n
  refine ⟨⟨_, execMirrorCopyDone_eq h hj, State.obj_setObj_same ..⟩, fun hserve hapart => ?_⟩
  obtain ⟨-, hcopied, -, hbytes⟩ := copyLines_copied (fun i hi => (hserve i hi).2) hapart n (Nat.le_refl n)
  exact ⟨_, execMirrorCopyDone_eq h hj, hbytes, hcopied⟩

/-! ## Channels (R287) -/

theorem channelOf_lt_of_fast {no : Nat} (h : fastLine no = true) : channelOf no < 128 := by
  have hno : no < 0x4000000000 / 512 := of_decide_eq_true h
  rw [channelOf, if_pos h]
  omega

theorem le_channelOf_of_slow {no : Nat} (h : fastLine no = false) : 128 ≤ channelOf no := by
  rw [channelOf, if_neg (by rw [h]; decide)]
  dsimp only
  omega

theorem fastLine_eq (no : Nat) : fastLine no = decide (channelOf no < 128) := by
  cases h : fastLine no with
  | true => exact (decide_eq_true (channelOf_lt_of_fast h)).symm
  | false => exact (decide_eq_false (Nat.not_lt.mpr (le_channelOf_of_slow h))).symm

theorem chanOf_of_fast {s : State} {no : Nat} (h : fastLine no = true) : chanOf s no = channelOf no := by
  simp only [chanOf, h, Bool.true_or, if_true]

/-- A line whose channel reads 2 or more in 4050h:05h is returned with every mark (R298 to R300). -/
theorem ctrlRead_lost {s : State} {no : Nat} (h : 2 ≤ s.obj 0x4050 5 (chanOf s no)) : (ctrlRead s no).2 = 15 := by
  have hl : pageLost s no = true := decide_eq_true h
  rw [ctrlRead, if_pos hl]

/-! ## Lost channels -/

theorem RecordsOnly.hwRecord (s : State) (r : LogRec) : RecordsOnly s (Machine.hwRecord s r) :=
  ((RecordsOnly.logRecord ..).trans (RecordsOnly.setObj ..)).trans (RecordsOnly.setObj ..)

theorem RecordsOnly.flagReplace (s : State) (reason : Nat) : RecordsOnly s (Machine.flagReplace s reason) :=
  (RecordsOnly.setObj ..).trans (RecordsOnly.setObj ..)

/-- What flags the module and logs a lost channel (R299, R300). -/
def channelReported (s : State) (reason ch : Nat) : State := channelRecord (flagReplace s reason) ch

theorem channelReported_recordsOnly (s : State) (reason ch : Nat) : RecordsOnly s (channelReported s reason ch) :=
  (RecordsOnly.flagReplace ..).trans (RecordsOnly.hwRecord ..)

theorem channelRecord_kept (s : State) (ch : Nat) : Kept s (channelRecord s ch) := Kept.refl.thenHwRecord (show 0x5C < 256 by decide)

theorem channelReported_flagged (s : State) (reason ch : Nat) : (channelReported s reason ch).obj 0x4000 1 0 = 1 := by
  have hk := (channelRecord_kept (flagReplace s reason) ch).obj 0x4000 1 0 (by decide) (by decide) (by decide)
  rw [channelReported, hk, flagReplace, State.obj_setObj _ _ (by decide) (by decide) (by decide) (by decide), if_neg (by decide),
    State.obj_setObj_same]

theorem channelReported_state (s : State) (reason ch : Nat) {e : Nat} (he : e < 2 ^ 20) :
    (channelReported s reason ch).obj 0x4050 5 e = s.obj 0x4050 5 e := by
  have hk := (channelRecord_kept (flagReplace s reason) ch).obj 0x4050 5 e (by decide) (by decide) he
  rw [channelReported, hk, flagReplace, State.obj_setObj _ _ (by decide) (by decide) (by decide) he, if_neg (by omega),
    State.obj_setObj _ _ (by decide) (by decide) (by decide) he, if_neg (by omega)]

theorem channelReported_logged (s : State) (reason ch : Nat) :
    Logged (channelReported s reason ch) fun r => r.cause = 0x5C ∧ r.detail = ch := by
  simp only [Logged, channelReported, channelRecord, hwRecord, State.bump32_mgmt, State.setObj_mgmt, logRecord_logPend]
  exact ⟨_, List.mem_append_right _ (List.mem_singleton.mpr rfl), rfl, rfl⟩

theorem fastChannelLost_reads {s : State} {ch : Fin 128} (h : s.obj 0x4050 5 ch.val ≤ 1) :
    ∃ t, exec (.fastChannelLost ch) s = .next t ∧ t.obj 0x4000 1 0 = 1 ∧ t.obj 0x4050 5 ch.val = 3 ∧
      (Logged t fun r => r.cause = 0x5C ∧ r.detail = ch.val) ∧ t.mem = s.mem ∧
      ∀ no, channelOf no = ch.val → (ctrlRead t no).2 = 15 := by
  have hx : exec (.fastChannelLost ch) s = .next (channelReported (s.setObj 0x4050 5 ch.val 3) 2 ch.val) :=
    guarded_true _ (decide_eq_true h)
  have hstate : (channelReported (s.setObj 0x4050 5 ch.val 3) 2 ch.val).obj 0x4050 5 ch.val = 3 := by
    rw [channelReported_state _ _ _ (by omega), State.obj_setObj_same]
  refine ⟨_, hx, channelReported_flagged .., hstate, channelReported_logged ..,
    (channelReported_recordsOnly ..).mem.trans (State.setObj_mem ..),
    fun no hno => ctrlRead_lost ?_⟩
  have hfast : fastLine no = true := by
    rw [fastLine_eq, hno]
    exact decide_eq_true ch.isLt
  have hchan : chanOf (channelReported (s.setObj 0x4050 5 ch.val 3) 2 ch.val) no = ch.val := by
    rw [chanOf_of_fast hfast, hno]
  rw [hchan, hstate]
  decide

/-! ## Remapping (R298) -/

/-- A remapping's table and what was written since stay as they are. -/
def SameRemap (s t : State) : Prop := t.mem.remap = s.mem.remap ∧ t.mem.clean = s.mem.clean

theorem SameRemap.foldl {α : Type} {f : State → α → State} (hf : ∀ s a, SameRemap s (f s a)) (l : List α) (s : State) :
    SameRemap s (l.foldl f s) :=
  foldl_keeps (P := SameRemap s) (fun u a h => ⟨(hf u a).1.trans h.1, (hf u a).2.trans h.2⟩) l ⟨rfl, rfl⟩

theorem SameRemap.trans {s t u : State} (h : SameRemap s t) (k : SameRemap t u) : SameRemap s u := ⟨k.1.trans h.1, k.2.trans h.2⟩

theorem takeSpares_sameRemap (s : State) (chan : Nat) : SameRemap s (takeSpares s chan) := by
  unfold takeSpares
  exact SameRemap.foldl (by intros; exact ⟨rfl, rfl⟩) _ s

theorem moveOps_sameRemap (s : State) (ch : Nat) : SameRemap s (moveOps s ch) := by
  unfold moveOps
  exact SameRemap.trans (t := setCtrl s ch { Ctrl.idle with last := (ctrlOf s ch).last }) ⟨rfl, rfl⟩
    (SameRemap.foldl (by intros; exact ⟨rfl, rfl⟩) _ _)

theorem putJob_sameRemap (s : State) (job : Nat) (counts : Sparse Nat) : SameRemap s (putJob s job counts) := by
  unfold putJob
  exact SameRemap.foldl (by intros; exact ⟨rfl, rfl⟩) _ s

theorem takeSpares_kept (s : State) (chan : Nat) (hc : chan < 2 ^ 16) : KeptOutside [0x2053] s (takeSpares s chan) := by
  refine KeptOutside.thenFoldl _ (fun u p hp => ?_) .refl
  obtain ⟨q, hq, rfl⟩ := List.mem_map.mp hp
  have hk := (List.mem_filter.mp (List.fst_mem_of_mem_zipIdx hq)).1
  obtain ⟨k, hk24, hk⟩ := List.mem_map.mp hk
  rw [List.mem_range] at hk24
  exact KeptOutside.thenSetObj (.of_same rfl rfl rfl) (by decide) (by decide) (by dsimp only; omega)

theorem moveOps_kept {L : List Nat} (s : State) (ch : Nat) : KeptOutside L s (moveOps s ch) := by
  unfold moveOps
  exact KeptOutside.thenFoldl _ (fun _ _ _ => .of_same rfl rfl rfl)
    (.of_same (t := setCtrl s ch { Ctrl.idle with last := (ctrlOf s ch).last }) rfl rfl rfl)

theorem putJob_kept {L : List Nat} (s : State) (job : Nat) (counts : Sparse Nat) : KeptOutside L s (putJob s job counts) :=
  KeptOutside.thenFoldl counts (fun _ _ _ => .of_same rfl rfl rfl) .refl

/-- The code pages of a lost slow channel move to the others, and pass the queues (R298). -/
def remapStarted (s : State) (ch : Nat) : State := putJob (remapPages s ch) (remapJob ch) (remapCounts ch)

/-- A channel's remapping with none of its sectors written since. -/
def remapMarked (s : State) (ch : Nat) : State :=
  { s with mem := { s.mem with
      remap := sset (fun _ => 0) s.mem.remap ch 1
      clean := s.mem.clean.filter fun p => channelOf (p.1 / 4) ≠ 128 + ch } }

theorem remapPages_eq (s : State) (ch : Nat) : remapPages s ch = moveOps (takeSpares (remapMarked s ch) ch) (128 + ch) := rfl

theorem remapStarted_sameRemap (s : State) (ch : Nat) : SameRemap (remapMarked s ch) (remapStarted s ch) := by
  rw [remapStarted, remapPages_eq]
  exact ((takeSpares_sameRemap ..).trans (moveOps_sameRemap ..)).trans (putJob_sameRemap ..)

theorem remapStarted_kept (s : State) {ch : Nat} (hc : ch < 2 ^ 16) : KeptOutside [0x2053] s (remapStarted s ch) := by
  have hm : KeptOutside [0x2053] s (remapMarked s ch) := .of_same rfl rfl rfl
  rw [remapStarted, remapPages_eq]
  exact ((hm.trans (takeSpares_kept _ _ hc)).trans (moveOps_kept ..)).trans (putJob_kept ..)

theorem sget_of_keys_ne {α : Type} (d : Nat → α) {m : Sparse α} {k : Nat} (h : ∀ p ∈ m, p.1 ≠ k) : sget d m k = d k := by
  induction m with
  | nil => rfl
  | cons p m ih => rw [sget, if_neg (h p List.mem_cons_self), ih fun q hq => h q (List.mem_cons_of_mem _ hq)]

/-- Every sector of a line of a remapped channel reads marked until it is written. -/
theorem memMarks_remapMarked {s t : State} {ch no : Nat} (h : SameRemap (remapMarked s ch) t) (hno : channelOf no = 128 + ch) :
    memMarks t no = 15 := by
  have hr : remapped t no = true := by
    have hget : sget (fun _ => 0) (remapMarked s ch).mem.remap (channelOf no - 128) = 1 := by
      rw [hno, Nat.add_sub_cancel_left]
      simp only [remapMarked, sget_sset_same]
    have hslow : fastLine no = false := by
      rw [fastLine_eq, hno]
      exact decide_eq_false (by omega)
    rw [remapped, h.1, hget, hslow]
    rfl
  refine memMarks_of_sectorMark fun i hi => ?_
  have hc : sget (fun _ => false) t.mem.clean (4 * no + i) = false := by
    rw [h.2]
    refine sget_of_keys_ne _ fun p hp he => ?_
    have hne := of_decide_eq_true (List.mem_filter.mp hp).2
    rw [he, show (4 * no + i) / 4 = no by omega] at hne
    exact hne hno
  rw [sectorMark_eq, hr, hc]
  have hi' : i = 0 ∨ i = 1 ∨ i = 2 ∨ i = 3 := by omega
  rcases hi' with rfl | rfl | rfl | rfl <;> simp

theorem slowChannelLost_reads {s : State} {ch : Fin 96} (h : s.obj 0x4050 5 (128 + ch.val) ≤ 1) :
    ∃ t, exec (.slowChannelLost ch) s = .next t ∧ t.obj 0x4000 1 0 = 1 ∧
      (Logged t fun r => r.cause = 0x5C ∧ r.detail = 128 + ch.val) ∧ t.obj 0x4050 5 (128 + ch.val) = 3 ∧
      (regionFull s ch.val = false → ∀ no, channelOf no = 128 + ch.val → memMarks t no = 15) ∧
      (regionFull s ch.val = true → ∀ no, chanOf s no = 128 + ch.val → (ctrlRead t no).2 = 15) := by
  have hch := ch.isLt
  have hx : exec (.slowChannelLost ch) s = .next (channelReported (if regionFull s ch.val then s.setObj 0x4050 5 (128 + ch.val) 3
      else remapStarted (s.setObj 0x4050 5 (128 + ch.val) 3) ch.val) 3 (128 + ch.val)) := guarded_true _ (decide_eq_true h)
  cases hf : regionFull s ch.val with
  | true =>
    have hstate : (channelReported (s.setObj 0x4050 5 (128 + ch.val) 3) 3 (128 + ch.val)).obj 0x4050 5 (128 + ch.val) = 3 := by
      rw [channelReported_state _ _ _ (by omega), State.obj_setObj_same]
    rw [hf, if_pos rfl] at hx
    refine ⟨_, hx, channelReported_flagged .., channelReported_logged .., hstate, fun hn => absurd hn (by decide),
      fun _ no hno => ctrlRead_lost ?_⟩
    have hchan : chanOf (channelReported (s.setObj 0x4050 5 (128 + ch.val) 3) 3 (128 + ch.val)) no = 128 + ch.val := by
      rw [chanOf, (channelReported_recordsOnly ..).mem]
      exact hno
    rw [hchan, hstate]
    decide
  | false =>
    rw [hf, if_neg (by decide)] at hx
    refine ⟨_, hx, channelReported_flagged .., channelReported_logged .., ?_, fun _ no hno => ?_, fun hn => absurd hn (by decide)⟩
    · rw [channelReported_state _ _ _ (by omega),
        (remapStarted_kept _ (by omega)).obj _ _ _ (by decide) (by decide) (by omega), State.obj_setObj_same]
    · refine memMarks_remapMarked (s := s.setObj 0x4050 5 (128 + ch.val) 3) ?_ hno
      rw [SameRemap, (channelReported_recordsOnly ..).mem]
      exact remapStarted_sameRemap ..

end Sys2Proof.Machine
end

section
/-!
O44: scrub passes of the dictionary, and SCRUB (R318 to R321).
-/
namespace Sys2Proof.Machine
open Sys2Proof.Claims

/-! ## What a check of a code page leaves alone -/

theorem RecordsOnly.bump (s : State) (i sub e n : Nat) : RecordsOnly s (s.bump i sub e n) := ⟨_, _, rfl⟩

/-- Grants are counted (R293). -/
theorem RecordsOnly.countGrant (s : State) (ch q : Nat) (byGuard : Bool) : RecordsOnly s (Machine.countGrant s ch q byGuard) := by
  unfold Machine.countGrant
  dsimp only
  split <;> split
  · exact (RecordsOnly.bump ..).trans (RecordsOnly.bump ..)
  · exact RecordsOnly.bump ..
  · exact RecordsOnly.bump ..
  · exact RecordsOnly.refl

/-- Correctable decodes are counted (R307). -/
theorem RecordsOnly.countCe (s : State) (no n : Nat) : RecordsOnly s (Machine.countCe s no n) := by
  unfold Machine.countCe
  dsimp only
  split
  · exact ((RecordsOnly.bump ..).trans (RecordsOnly.setObj ..)).trans (RecordsOnly.bump ..)
  · exact (RecordsOnly.bump ..).trans (RecordsOnly.setObj ..)

/-- The pass that runs, host memory, the device time and the state of control, power and steps are as before. -/
structure PassKept (s t : State) : Prop where
  scrub : t.mem.scrub = s.mem.scrub
  host : t.mem.host = s.mem.host
  now : t.now = s.now
  ctl : t.ctl = s.ctl
  power : t.power = s.power
  sage : t.sage = s.sage

namespace PassKept
variable {s t u : State}

theorem refl : PassKept s s := ⟨rfl, rfl, rfl, rfl, rfl, rfl⟩

theorem trans (h : PassKept s t) (k : PassKept t u) : PassKept s u :=
  ⟨k.scrub.trans h.scrub, k.host.trans h.host, k.now.trans h.now, k.ctl.trans h.ctl, k.power.trans h.power,
    k.sage.trans h.sage⟩

theorem foldl {α : Type} {f : State → α → State} (hf : ∀ s a, PassKept s (f s a)) (l : List α) (s : State) :
    PassKept s (l.foldl f s) := foldl_keeps (P := PassKept s) (fun u a h => h.trans (hf u a)) l refl

theorem recordsOnly (h : RecordsOnly s t) : PassKept s t :=
  ⟨congrArg MemState.scrub h.mem, congrArg MemState.host h.mem, h.now, h.ctl, h.power, h.sage⟩

/-- Contents of memory other than the pass and host memory. -/
theorem withMem (s : State) (m : MemState) (hs : m.scrub = s.mem.scrub) (hh : m.host = s.mem.host) :
    PassKept s { s with mem := m } := ⟨hs, hh, rfl, rfl, rfl, rfl⟩

theorem setMarks (s : State) (no : Nat) (m : Marks) : PassKept s (setMarks s no m) := withMem s _ (by rfl) (by rfl)

theorem setCtrl (s : State) (ch : Nat) (c : Ctrl) : PassKept s (setCtrl s ch c) :=
  withMem s _ (by rfl) (by rfl)

theorem withDev (s : State) (dev : List Host.Cell) : PassKept s { s with mem := { s.mem with dev := dev } } :=
  withMem s _ rfl rfl

theorem withDiscard (s : State) (x : Sparse Bool) : PassKept s { s with mem := { s.mem with discard := x } } :=
  withMem s _ rfl rfl

theorem withLine (s : State) (dev : List Host.Cell) (x : Sparse Bool) :
    PassKept s { s with mem := { s.mem with dev := dev, discard := x } } :=
  withMem s _ rfl rfl

theorem ctrlWrite (s : State) (no : Nat) (d : LineData) (m : Marks) : PassKept s (ctrlWrite s no d m) := by
  unfold Machine.ctrlWrite
  split
  · exact recordsOnly (RecordsOnly.bump ..)
  · exact (setMarks s no m).trans (withLine ..)

theorem memRecord (s : State) (cause no symbols : Nat) : PassKept s (memRecord s cause no symbols) :=
  recordsOnly (RecordsOnly.hwRecord ..)

theorem passGrant (s : State) (ch q : Nat) : PassKept s (passGrant s ch q) :=
  (setCtrl s ch _).trans (recordsOnly (RecordsOnly.countGrant ..))

theorem countCe (s : State) (no n : Nat) : PassKept s (countCe s no n) := recordsOnly (RecordsOnly.countCe ..)

theorem flipData (s : State) (page flips : Nat) : PassKept s (flipData s page flips) := by
  unfold Machine.flipData
  split
  · exact refl
  · exact withDev ..

theorem applyFlips (s : State) (page flips : Nat) : PassKept s (applyFlips s page flips) := by
  unfold Machine.applyFlips
  refine (flipData s page flips).trans (foldl (fun s i => ?_) _ _)
  dsimp only
  split <;> split
  · exact withDiscard ..
  · exact (setMarks ..).trans (withDiscard ..)
  · exact refl
  · exact setMarks ..

theorem uncorrectable (s : State) (page flips : Nat) (keep : Nat → Bool) : PassKept s (uncorrectable s page flips keep) := by
  unfold Machine.uncorrectable
  have hmarks := (applyFlips s page flips).trans (foldl (fun s no => setMarks s no 15)
    (((failedCrcs flips).map fun i => 4 * page + i).filter fun no => !keep no) _)
  exact (hmarks.trans (recordsOnly (RecordsOnly.bump ..))).trans (memRecord ..)

theorem repairLine (s : State) (no : Nat) : PassKept s (repairLine s no) := by
  unfold Machine.repairLine
  split
  · exact refl
  case h_2 o _ => exact ((ctrlWrite s no (ctrlRead s o).1 0).trans (recordsOnly (RecordsOnly.bump ..))).trans (memRecord ..)

/-- A check of a code page corrects, marks or restores its lines (R319). -/
theorem scrubPage (s : State) (tl : Tally) (page flips : Nat) : PassKept s (scrubPage s tl page flips).1 := by
  unfold Machine.scrubPage
  dsimp only
  split
  · exact passGrant ..
  · split
    · exact passGrant ..
    · exact ((passGrant ..).trans (applyFlips ..)).trans (countCe ..)
    · exact ((passGrant ..).trans (uncorrectable ..)).trans (foldl repairLine _ _)

end PassKept

/-! ## A check without an array error -/

/-- With no bit inverted there is nothing to correct. -/
theorem decodeFlips_zero (t : Nat) : decodeFlips t 0 = some (0, 0) := by
  have hcrc : failedCrcs 0 = [] := by simp [failedCrcs, crcFails]
  have hfix : fromSymbols (([] : List Nat).take messageSymbols) = 0 := rfl
  have hleft : bits 0 0 messageBits ^^^ 0 = 0 := by simp [bits]
  have hpos : ¬ 2 ^ messageBits ≤ 0 := Nat.not_le.mpr (Nat.two_pow_pos _)
  rw [decodeFlips, if_pos rfl]
  dsimp only
  rw [hfix, hleft, hcrc, if_neg (by simp [hpos])]
  rfl

theorem passGrant_dev (s : State) (ch q : Nat) : (passGrant s ch q).mem.dev = s.mem.dev := by
  rw [passGrant, (RecordsOnly.countGrant ..).mem]
  rfl

theorem scrubPage_zero_dev (s : State) (tl : Tally) (page : Nat) : (scrubPage s tl page 0).1.mem.dev = s.mem.dev := by
  unfold scrubPage
  dsimp only
  split
  · exact passGrant_dev ..
  · rw [decodeFlips_zero]
    exact passGrant_dev ..

/-! ## A pass of the dictionary -/

theorem errFlips_nil (page : Nat) : errFlips ((([] : List (Nat × ArrayErr)).find? fun e => e.1 = page).map Prod.snd) = 0 := rfl

theorem scrubTarget_none (s : State) (a : Nat) : (scrubTarget s none a).2 = s := rfl

/-- A pass over device-physical addresses keeps what each of its checks keeps. -/
theorem scrubPages_none_keeps {P : State → Prop} {errs : List (Nat × ArrayErr)}
    (hp : ∀ s tl page, P s → P (scrubPage s tl page (errFlips ((errs.find? fun e => e.1 = page).map Prod.snd))).1) (n : Nat) :
    ∀ (a : Nat) (s : State) (tl : Tally), P s → P (scrubPages none errs n a s tl).1 := by
  induction n with
  | zero => exact fun _ _ _ h => h
  | succ n ih =>
    intro a s tl h
    rw [scrubPages]
    dsimp only
    split
    · exact ih _ _ _ h
    · exact ih _ _ _ (hp _ _ _ h)

/-- The state in which a pass has run. -/
def passRun (s : State) (ns : Nat) (errs : List (Nat × ArrayErr)) (p : ScrubPass) : State × Tally :=
  scrubPages none errs (pagesOf p.base p.length) (p.base / 2048 * 2048)
    { (s.at ns) with mem := { s.mem with scrub := none } } Tally.zero

theorem scrubPassDone_ends {s : State} {ns : Nat} {errs : List (Nat × ArrayErr)} (hp : s.mem.scrub.isSome = true)
    (hn : s.now ≤ ns) (hj : jobOpen s scrubJob = false) :
    ∃ t, exec (.scrubPassDone ns errs) s = .next t ∧ t.mem.scrub = none ∧ t.obj 0x2052 4 0 = 0 ∧ t.now = ns ∧
      (errs = [] → t.mem.dev = s.mem.dev) := by
  obtain ⟨p, hp⟩ := Option.isSome_iff_exists.mp hp
  have hx : exec (.scrubPassDone ns errs) s = .next (((passRun s ns errs p).1.setObj 0x2052 4 0 0).setObj 0x2052 5 0
      (scrubRecord p.base p.length p.startNs ns 0 (passRun s ns errs p).2)) := by
    have he : exec (.scrubPassDone ns errs) s = execScrubPassDone ns errs s := rfl
    rw [he, execScrubPassDone, hp]
    exact guarded_true _ (by simp [notBefore, hn, hj])
  have hstep (u : State) (tl : Tally) (page flips : Nat) : PassKept u (scrubPage u tl page flips).1 := PassKept.scrubPage ..
  have hkept : PassKept { (s.at ns) with mem := { s.mem with scrub := none } } (passRun s ns errs p).1 :=
    scrubPages_none_keeps (P := PassKept _) (fun u tl page h => h.trans (hstep u tl page _)) _ _ _ _ .refl
  refine ⟨_, hx, hkept.scrub, ?_, hkept.now, fun herrs => ?_⟩
  · rw [State.obj_setObj _ _ (by decide) (by decide) (by decide) (by decide), if_neg (by decide), State.obj_setObj_same]
  · subst herrs
    refine scrubPages_none_keeps (P := fun t => t.mem.dev = s.mem.dev) (fun u tl page h => ?_) _ _ _ _ rfl
    rw [errFlips_nil, scrubPage_zero_dev, h]

/-! ## SCRUB -/

theorem execScrub_startable {c : CmdRef} {t0 : Nat} {work : SliceWork} {s : State} {x : Step} {y : Cmd}
    (h : startable s c 7 = some (x, y)) (hn : s.now ≤ t0) (hg : t0 < guardStart s) :
    exec (.scrub c t0 false work) s = scrubSlice (beginCmd (s.at t0) c x) c x y t0 t0 work := by
  have he : exec (.scrub c t0 false work) s = execScrub c t0 false work s := rfl
  rw [he, execScrub, if_neg (by decide), h]
  dsimp only
  rw [if_pos (by simp [notBefore, hn, hg])]

theorem execScrub_cancelled {c : CmdRef} {t0 : Nat} {work : SliceWork} {s : State} {x : Step} {y : Cmd}
    (h : cancelledScrub s c = some (x, y)) (ht : t0 = y.startNs) (hu : work.units = 0) (he : t0 ≤ work.endNs) :
    exec (.scrub c t0 true work) s = endScrub s c x y { cmdAccess (agentChervil 0) x y with lat := false } t0 work.endNs true
      y.counts := by
  have hx : exec (.scrub c t0 true work) s = execScrub c t0 true work s := rfl
  rw [hx, execScrub, if_pos rfl, h]
  dsimp only
  rw [if_pos (by simp [hu, ← ht, he])]

/-- The record of a pass where RESULT can be written. -/
theorem endScrub_ok {s : State} {c : CmdRef} {x : Step} {y : Cmd} {acc : Access} {a b : Nat} {stopped : Bool} {tl : Tally}
    (h : (vwrite s acc (bits y.block 0 64) 256 (scrubRecord (y.field 0x10 8) (y.field 0x18 8) a b (b2n stopped) tl)).1 = .ok ()) :
    endScrub s c x y acc a b stopped tl = .next (setPhase (setSlice
      (vwrite s acc (bits y.block 0 64) 256 (scrubRecord (y.field 0x10 8) (y.field 0x18 8) a b (b2n stopped) tl)).2 c none)
      c.step c.cmd (if stopped then .cancelled else .done)) := by
  rw [endScrub, h]

/-- The fault of a pass whose RESULT has no mapping. -/
theorem endScrub_unmapped {s : State} {c : CmdRef} {x : Step} {y : Cmd} {acc : Access} {a b va e : Nat} {stopped : Bool} {tl : Tally}
    (h : (vwrite s acc (bits y.block 0 64) 256 (scrubRecord (y.field 0x10 8) (y.field 0x18 8) a b (b2n stopped) tl)).1 =
      .error (.unmapped va e)) :
    endScrub s c x y acc a b stopped tl = .next (setPhase (stepFaultAt (setSlice
      (vwrite s acc (bits y.block 0 64) 256 (scrubRecord (y.field 0x10 8) (y.field 0x18 8) a b (b2n stopped) tl)).2 c none)
      x.key 8 c.cmd va e) c.step c.cmd .cancelled) := by
  rw [endScrub, h]

/-- The pages that a slice has checked, and its counts. -/
def sliceRun (b : State) (c : CmdRef) (x : Step) (y : Cmd) (work : SliceWork) : State × Tally :=
  scrubPages (if bit (y.field 0xC 2) 0 then none else some (scrubAccess b c x y)) work.errs work.units
    (y.field 0x10 8 / 2048 * 2048 + 2048 * y.units) b y.counts

/-- The state after them, with the counts kept in the command. -/
def sliceKept (b : State) (c : CmdRef) (x : Step) (y : Cmd) (work : SliceWork) : State :=
  updStep (countUnits (sliceRun b c x y work).1 c work.units work.endNs) c.step fun t => { t with cmds := t.cmds.zipIdx.map fun q =>
    if q.2 = c.cmd then { q.1 with tally := (sliceRun b c x y work).2.keep } else q.1 }

theorem scrubSlice_eq {b : State} {c : CmdRef} {x : Step} {y : Cmd} {t0 : Nat} {work : SliceWork}
    (hw : workOk b t0 (pagesOf (y.field 0x10 8) (y.field 0x18 8) - y.units) work = true) :
    scrubSlice b c x y t0 t0 work = if work.units = pagesOf (y.field 0x10 8) (y.field 0x18 8) - y.units
      then endScrub (sliceKept b c x y work) c x y (scrubAccess b c x y) t0 work.endNs false (sliceRun b c x y work).2
      else .next (sliceKept b c x y work) := by
  rw [scrubSlice]
  dsimp only
  rw [if_pos hw]
  rfl

/-- Settles O44: mirrors and lost channels by what a write of a line, a lost channel's state and a remapping leave of a read; a pass by
what each check of a code page leaves. -/
theorem mirrorsLostChannelsAndScrubbing : Obligations.MirrorsLostChannelsAndScrubbing := by
  refine ⟨fun s => ⟨fun _ _ _ => markOnlyUpdate_marks, fun _ => mirrorCopyDone_copies, fun _ => slowChannelLost_reads,
    fun _ => fastChannelLost_reads, fun _ _ => scrubPassDone_ends⟩, fun c t0 work s x y => ?_⟩
  intro base len
  refine ⟨fun h hn hg => ?_, fun h ht hu he => ?_⟩
  · intro b acc left p d w hw
    have hx := (execScrub_startable h hn hg).trans (scrubSlice_eq hw)
    refine ⟨fun hne => hx.trans (if_neg hne), fun he hok => ?_, fun va e he herr => ?_⟩
    · exact (hx.trans (if_pos he)).trans (endScrub_ok hok)
    · exact (hx.trans (if_pos he)).trans (endScrub_unmapped herr)
  · intro w hok
    exact (execScrub_cancelled h ht hu he).trans (endScrub_ok hok)

end Sys2Proof.Machine
end

section
/-!
What the work of a start leaves alone. `StartKeeps s t`: the start in progress, the power state and host memory are as before, and
no step joins an empty store. There is one lemma for each part of the work of a cold and of a warm start.
-/
namespace Sys2Proof.Machine
open Sys2Proof.Claims

/-- The start in progress, power and host memory stay; an empty step store stays empty. -/
structure StartKeeps (s t : State) : Prop where
  start : t.ctl.start = s.ctl.start
  power : t.power = s.power
  host : t.mem.host = s.mem.host
  steps : s.sage.steps = [] → t.sage.steps = []

namespace StartKeeps
variable {s t u : State}

theorem refl : StartKeeps s s := ⟨rfl, rfl, rfl, fun h => h⟩

theorem trans (h : StartKeeps s t) (k : StartKeeps t u) : StartKeeps s u :=
  ⟨k.start.trans h.start, k.power.trans h.power, k.host.trans h.host, fun hs => k.steps (h.steps hs)⟩

theorem of_same (hc : t.ctl.start = s.ctl.start) (hp : t.power = s.power) (hm : t.mem.host = s.mem.host)
    (hs : t.sage = s.sage) : StartKeeps s t := ⟨hc, hp, hm, fun h => by rw [hs]; exact h⟩

theorem recordsOnly (h : RecordsOnly s t) : StartKeeps s t :=
  of_same (congrArg CtlState.start h.ctl) h.power (congrArg MemState.host h.mem) h.sage

theorem foldl {α : Type} {f : State → α → State} (hf : ∀ s a, StartKeeps s (f s a)) (l : List α) (s : State) :
    StartKeeps s (l.foldl f s) := foldl_keeps (P := StartKeeps s) (fun u a h => h.trans (hf u a)) l refl

theorem ite {p : Prop} [Decidable p] (ht : StartKeeps s t) (hu : StartKeeps s u) : StartKeeps s (if p then t else u) := by
  split <;> assumption

/-! ## Parts of the state -/

theorem setObj (s : State) (i sub e v : Nat) : StartKeeps s (s.setObj i sub e v) := recordsOnly (RecordsOnly.setObj ..)

theorem bump (s : State) (i sub e n : Nat) : StartKeeps s (s.bump i sub e n) := recordsOnly (RecordsOnly.bump ..)

theorem flagReplace (s : State) (reason : Nat) : StartKeeps s (flagReplace s reason) := recordsOnly (RecordsOnly.flagReplace ..)

theorem withMgmt (s : State) (m : MgmtState) : StartKeeps s { s with mgmt := m } := of_same rfl rfl rfl rfl

theorem withNet (s : State) (n : NetState) : StartKeeps s { s with net := n } := of_same rfl rfl rfl rfl

theorem withCoh (s : State) (c : CohState) : StartKeeps s { s with coh := c } := of_same rfl rfl rfl rfl

theorem withCtl (s : State) (c : CtlState) (h : c.start = s.ctl.start) : StartKeeps s { s with ctl := c } :=
  of_same h rfl rfl rfl

theorem withMem (s : State) (m : MemState) (h : m.host = s.mem.host) : StartKeeps s { s with mem := m } :=
  of_same rfl rfl h rfl

theorem setCore (s : State) (c : Nat) (k : Core) : StartKeeps s (s.setCore c k) := of_same rfl rfl rfl rfl

theorem setCtrl (s : State) (ch : Nat) (c : Ctrl) : StartKeeps s (setCtrl s ch c) := withMem _ _ rfl

theorem setLink (s : State) (k : Nat) (d : LinkDir) : StartKeeps s (setLink s k d) := of_same rfl rfl rfl rfl

theorem tickStamp (s : State) : StartKeeps s s.tickStamp := of_same rfl rfl rfl rfl

theorem printStart (s : State) : StartKeeps s (printStart s) := by
  unfold Machine.printStart uartLine
  split
  · exact ite (of_same rfl rfl rfl rfl) refl
  · exact refl

/-! ## Steps -/

theorem updStep (s : State) (key : Nat) (f : Step → Step) : StartKeeps s (updStep s key f) :=
  ⟨rfl, rfl, rfl, fun h => by unfold Machine.updStep; simp [h]⟩

theorem queueEvent (s : State) (fn : Fn) (a b c d : Nat) : StartKeeps s (queueEvent s fn a b c d) := of_same rfl rfl rfl rfl

theorem fnRecord (s : State) (fn : Fn) (r : LogRec) (a b c : Nat) : StartKeeps s (fnRecord s fn r a b c) :=
  (recordsOnly (RecordsOnly.logRecord ..)).trans (queueEvent ..)

theorem coreLost (s : State) (core : Nat) (cmd : CoreCmd) : StartKeeps s (coreLost s core cmd) := by
  unfold Machine.coreLost
  split
  · exact refl
  · exact (fnRecord ..).trans (updStep ..)

theorem endRerun (s : State) (core : Nat) (cmd : CoreCmd) : StartKeeps s (endRerun s core cmd) :=
  ite (coreLost ..) (((coreLost ..).trans (updStep ..)).trans (updStep ..))

theorem withSpills (s : State) (x : List SpillRec) : StartKeeps s { s with sage := { s.sage with spills := x } } :=
  ⟨rfl, rfl, rfl, fun h => h⟩

/-! ## Numbers, sites and routers -/

theorem assignSite (s : State) (core psn : Nat) : StartKeeps s (assignSite s core psn) := by
  unfold Machine.assignSite
  dsimp only
  refine StartKeeps.trans ?_ (withCtl _ _ (by rfl))
  refine StartKeeps.trans ?_ (setCore ..)
  exact (((((((setObj ..).trans (setObj ..)).trans (setObj ..)).trans (setObj ..)).trans (setObj ..)).trans (setObj ..)).trans
    (setObj ..)).trans (setObj ..)

theorem numberOut (s : State) (core : Nat) : StartKeeps s (numberOut s core) := by
  unfold Machine.numberOut
  dsimp only
  refine StartKeeps.trans ?_ (flagReplace ..)
  refine StartKeeps.trans ?_ (withCtl _ _ (by rfl))
  exact ((((withSpills ..).trans (foldl (fun s c => endRerun s core c) _ _)).trans (setObj ..)).trans (setObj ..)).trans (setObj ..)

theorem moveNumber (s : State) (die c : Nat) : StartKeeps s (moveNumber s die c) := by
  unfold Machine.moveNumber
  split
  · exact ite ((assignSite ..).trans (flagReplace ..)) (assignSite ..)
  · exact numberOut ..

theorem retireAtStart (s : State) (psn : Nat) : StartKeeps s (retireAtStart s psn) := by
  unfold Machine.retireAtStart
  split
  case h_1 hnone =>
    have hret : StartKeeps s (retireSite s psn) := by
      unfold retireSite
      rw [hnone]
      exact ite (((setObj ..).trans (setObj ..)).trans (setObj ..)) (setObj ..)
    exact ite hret (setObj ..)
  case h_2 => exact (setObj ..).trans (moveNumber ..)

theorem loseElevator (s : State) (e : Nat) : StartKeeps s (loseElevator s e) := (setObj ..).trans (flagReplace ..)

theorem routerAtStart (s : State) (psn : Nat) : StartKeeps s (routerAtStart s psn) :=
  (((retireAtStart ..).trans (setObj ..)).trans (withNet ..)).trans (foldl loseElevator _ _)

theorem rejoinSite (s : State) (psn : Nat) : StartKeeps s (rejoinSite s psn) := by
  unfold Machine.rejoinSite
  refine ite ?_ refl
  exact (((setObj ..).trans (setObj ..)).trans (setObj ..)).trans (of_same rfl rfl rfl rfl)

theorem restoreMap (s : State) : StartKeeps s (restoreMap s) :=
  (foldl (fun _ _ => ite (moveNumber ..) refl) _ _).trans (foldl rejoinSite _ _)

/-! ## Banks and bundles -/

theorem mapNumbers (s : State) (sl b : Nat) (ns : List Nat) : StartKeeps s (mapNumbers s sl b ns) :=
  foldl (fun s _ => withCoh s _) _ _

theorem setBank (s : State) (sl b v : Nat) : StartKeeps s (setBank s sl b v) := setObj ..

theorem bankAtStart (s : State) (sl b : Nat) : StartKeeps s (bankAtStart s sl b) := by
  unfold Machine.bankAtStart
  refine ite (setBank ..) (ite (((setBank ..).trans (setBank ..)).trans (mapNumbers ..)) ?_)
  split
  · have hmap := mapNumbers s sl (numberBank s sl ‹Nat›) (bankNumbers s sl b)
    exact ((ite (hmap.trans (setBank ..)) hmap).trans (setBank ..)).trans (flagReplace ..)
  · exact setBank ..

theorem passSlot (dir : Nat) (s : State) (slot : Nat) : StartKeeps s (passSlot dir s slot) := by
  unfold Machine.passSlot
  split
  · exact refl
  · exact withNet ..

theorem shiftPair (s : State) (e : Nat) : StartKeeps s (shiftPair s e) := by
  unfold Machine.shiftPair
  exact ite refl (withNet ..)

theorem bundleAtStart (s : State) (b : Nat) : StartKeeps s (bundleAtStart s b) :=
  (((((setObj ..).trans (setObj ..)).trans (foldl (passSlot _) _ _)).trans (shiftPair ..)).trans (shiftPair ..)).trans
    (flagReplace ..)

theorem finishSwaps (s : State) : StartKeeps s (finishSwaps s) :=
  foldl (fun _ _ => ite ((setObj ..).trans (setObj ..)) refl) _ _

/-! ## Channels -/

theorem ctrlWrite (s : State) (no : Nat) (d : LineData) (m : Marks) : StartKeeps s (ctrlWrite s no d m) :=
  ite (bump ..) ((withMem s _ (by rfl)).trans (withMem _ _ (by rfl)))

theorem restoreLines (s : State) (ch : Nat) : StartKeeps s (restoreLines s ch) := foldl (fun _ _ => ctrlWrite ..) _ _

theorem copyLines (s : State) (src dst n : Nat) : StartKeeps s (copyLines s src dst n) := foldl (fun _ _ => ctrlWrite ..) _ _

theorem takeSpares (s : State) (chan : Nat) : StartKeeps s (takeSpares s chan) :=
  foldl (fun s _ => (withMem s _ (by rfl)).trans (setObj ..)) _ _

theorem moveOps (s : State) (ch : Nat) : StartKeeps s (moveOps s ch) := (setCtrl ..).trans (foldl (fun _ _ => setCtrl ..) _ _)

theorem remapPages (s : State) (chan : Nat) : StartKeeps s (remapPages s chan) :=
  ((withMem s _ (by rfl)).trans (takeSpares ..)).trans (moveOps ..)

theorem slowAtStart (s : State) (chan : Nat) : StartKeeps s (slowAtStart s chan) :=
  (ite (setObj ..) (((remapPages ..).trans (setObj ..)).trans (restoreLines ..))).trans (flagReplace ..)

theorem fastAtStart (s : State) (chan : Nat) : StartKeeps s (fastAtStart s chan) := (setObj ..).trans (flagReplace ..)

theorem settleChannels (s : State) : StartKeeps s (settleChannels s) :=
  (foldl (fun _ _ => ite (setObj ..) refl) _ _).trans
    (foldl (fun _ _ => ite ((setObj ..).trans (restoreLines ..)) refl) _ _)

/-! ## Blocks found failing -/

theorem failAtStart (s : State) (b : Block) : StartKeeps s (failAtStart s b) := by
  unfold Machine.failAtStart
  dsimp only
  refine (withCtl s { s.ctl with unusable := s.ctl.unusable ++ [b] } rfl).trans ?_
  split
  · exact retireAtStart ..
  · exact routerAtStart ..
  · exact (setObj ..).trans (flagReplace ..)
  · exact fastAtStart ..
  · exact slowAtStart ..
  · exact bundleAtStart ..
  · exact bankAtStart ..
  · exact (setObj ..).trans (flagReplace ..)
  · exact (setObj ..).trans (flagReplace ..)
  · exact refl

theorem failAll (s : State) (l : List Block) : StartKeeps s (failAll s l) :=
  foldl (fun _ _ => ite (failAtStart ..) refl) _ _

theorem setFwSlot (s : State) (i : Nat) (x : FwSlot) : StartKeeps s (setFwSlot s i x) := ite (withMgmt ..) (withMgmt ..)

theorem applyPrevious (s : State) : StartKeeps s (applyPrevious s) := by
  unfold Machine.applyPrevious
  split
  · exact ite (ite (setFwSlot ..) (ite (failAtStart ..) refl)) refl
  · exact refl

theorem trainFast (l : List LaneLoss) (s : State) (chan : Nat) : StartKeeps s (trainFast l s chan) :=
  ite refl (ite (fastAtStart ..) ((setObj ..).trans (setObj ..)))

theorem trainBundle (l : List LaneLoss) (s : State) (b : Nat) : StartKeeps s (trainBundle l s b) :=
  ite refl (ite (bundleAtStart ..) ((setObj ..).trans (setObj ..)))

theorem trainLanes (s : State) (l : List LaneLoss) : StartKeeps s (trainLanes s l) :=
  (foldl (trainFast l) _ _).trans (foldl (trainBundle l) _ _)

/-! ## Firmware, processors and replicas -/

theorem runSlot (s : State) (i : Nat) : StartKeeps s (runSlot s i) :=
  (((ite refl (setFwSlot ..)).trans (setObj ..)).trans (setObj ..)).trans (withMgmt ..)

theorem chooseProcessors (s : State) : StartKeeps s (chooseProcessors s) :=
  ((withMgmt s _).trans (setObj ..)).trans (setObj ..)

theorem activateReplicas (s : State) (copying : List Nat) : StartKeeps s (activateReplicas s copying) :=
  foldl (fun _ _ => setObj ..) _ _

theorem finishCopies (s : State) (copying : List Nat) : StartKeeps s (finishCopies s copying) :=
  foldl (fun _ _ => (copyLines ..).trans (setObj ..)) _ _

end StartKeeps
end Sys2Proof.Machine
end

section
/-!
What the write-back, the verification scrub and the configuration of a start leave alone.
-/
namespace Sys2Proof.Machine
open Sys2Proof.Claims

namespace StartKeeps
variable {s t u : State}

/-! ## Links -/

theorem drainLink (k n : Nat) : ∀ s, StartKeeps s (drainLink k n s) := by
  induction n with
  | zero => exact fun _ => refl
  | succ n ih =>
    intro s
    unfold Machine.drainLink
    split
    · split
      · exact refl
      case h_2 u hu =>
        obtain ⟨d, rfl⟩ := sendNext_eq_setLink hu
        exact (setLink ..).trans (ih _)
    · exact refl

theorem crossLink (s : State) (k : Nat) (p : LinkPacket) : StartKeeps s (crossLink s k p) :=
  (setLink ..).trans (drainLink ..)

theorem crossRing (s : State) (src dst : Nat) (p : LinkPacket) : StartKeeps s (crossRing s src dst p) :=
  ite (withNet ..) (foldl (fun _ _ => crossLink ..) _ _)

/-! ## Write-back -/

theorem enqueue (s : State) (q : Nat) (o : CtrlOp) : StartKeeps s (enqueue s q o) := (setCtrl ..).trans (tickStamp ..)

theorem crossCtrl (s : State) (slice no : Nat) (toCtrl : Bool) (vc units : Nat) :
    StartKeeps s (crossCtrl s slice no toCtrl vc units) := by
  unfold Machine.crossCtrl
  exact crossRing ..

theorem queueWrite (s : State) (slice no : Nat) (d : LineData) (m : Marks) : StartKeeps s (queueWrite s slice no d m) :=
  (enqueue ..).trans (crossCtrl ..)

theorem queueMark (s : State) (no : Nat) : StartKeeps s (queueMark s no) := by
  unfold Machine.queueMark
  exact (enqueue ..).trans (crossCtrl ..)

theorem homeWrite (s : State) (no : Nat) (d : LineData) (m : Marks) : StartKeeps s (homeWrite s no d m) := by
  unfold Machine.homeWrite
  dsimp only
  split
  · exact queueWrite ..
  · exact (queueWrite ..).trans (queueWrite ..)

theorem dropPlace (s : State) (l : Line) (n : Nat) : StartKeeps s (dropPlace s l n) := by
  unfold Machine.dropPlace
  split
  · exact (withCoh s _).trans (withCoh _ _)
  · split
    · exact refl
    · exact setCore ..

theorem dropPlaces (s : State) (l : Line) (p : BitVec 292) : StartKeeps s (dropPlaces s l p) :=
  foldl (fun s b => dropPlace s l b) _ _

theorem unpinCounts (s : State) (h : HomeLine) : StartKeeps s (unpinCounts s h) :=
  foldl (fun _ _ => ite ((setObj ..).trans (setObj ..)) (setObj ..)) _ _

theorem evictHome (s : State) (l : Line) : StartKeeps s (evictHome s l) := by
  unfold Machine.evictHome
  dsimp only
  refine StartKeeps.trans ?_ (withCoh ..)
  have hcount := ((ite (p := (homeLine s l).st = 3) (bump s 0x3072 4 (homeSlice l) 1) refl).trans
    (bump _ 0x3071 3 (homeSlice l) (places (homeLine s l).presence).length)).trans (dropPlaces _ l (homeLine s l).presence)
  have hpins := ite (p := (homeLine s l).pins.isEmpty = true) hcount
    ((hcount.trans (unpinCounts _ (homeLine s l))).trans
      (foldl (f := fun s p => s.bump 0x7040 4 p.1 1) (fun _ _ => bump ..) (homeLine s l).pins _))
  exact ite hpins (ite (hpins.trans (queueMark ..)) (ite (hpins.trans (homeWrite ..)) hpins))

theorem setDiscard (s : State) (no : Nat) : StartKeeps s (setDiscard s no) := withMem s _ (by rfl)

theorem flushControllers (s : State) : StartKeeps s (flushControllers s) := by
  unfold Machine.flushControllers
  refine (withMem s { s.mem with ctrl := [] } rfl).trans (foldl (fun s p => foldl (fun s o => ?_) _ _) _ _)
  cases o.kind
  case write => exact ctrlWrite ..
  case mark => exact ite refl (setDiscard ..)
  all_goals exact refl

theorem writeBackAll (s : State) : StartKeeps s (writeBackAll s) :=
  (foldl (fun s (p : Nat × HomeLine) => evictHome s (keyLine p.1)) _ _).trans (flushControllers ..)

/-! ## Verification scrub -/

theorem passKept (h : PassKept s t) : StartKeeps s t := of_same (congrArg CtlState.start h.ctl) h.power h.host h.sage

theorem verifyPages (errs : List (Nat × ArrayErr)) (r : State × Tally) (run : Nat × Nat) :
    StartKeeps r.1 (verifyPages errs r run).1 :=
  passKept (scrubPages_none_keeps (P := PassKept r.1) (fun u tl page h => h.trans (PassKept.scrubPage u tl page _)) _ _ _ _ .refl)

theorem verifyRuns (errs : List (Nat × ArrayErr)) (l : List (Nat × Nat)) (r : State × Tally) :
    StartKeeps r.1 (l.foldl (Machine.verifyPages errs) r).1 := by
  induction l generalizing r with
  | nil => exact refl
  | cons run l ih => exact (verifyPages errs r run).trans (ih _)

/-! ## Records of a start -/

theorem changeRecord (s : State) (f : StartRec → StartRec) : StartKeeps s (changeRecord s f) := by
  unfold Machine.changeRecord
  split
  · exact refl
  · exact withMgmt ..

theorem setRecord (s : State) (f : StartRec → StartRec) : StartKeeps s (setRecord s f) := (changeRecord ..).trans (printStart ..)

end StartKeeps
end Sys2Proof.Machine
end

section
/-!
The configuration of a start takes effect, and its work ends: what they set and what they leave alone.
-/
namespace Sys2Proof.Machine
open Sys2Proof.Claims

/-! ## The configuration takes effect -/

/-- Objects of an index above 2040h do not reach RACE_MODE. -/
theorem State.obj_setObj_above_raceMode (s : State) {i : Nat} (h : 0x2040 < i) (sub e v : Nat) :
    (s.setObj i sub e v).obj 0x2040 1 0 = s.obj 0x2040 1 0 := by
  simp only [State.obj, State.setObj]
  refine sget_sset_other _ _ _ ?_
  unfold dkey
  omega

/-- What setting up the configuration leaves alone: RACE_MODE, the domains from PD18 on, and all but objects and the network. -/
structure Configures (s t : State) : Prop where
  raceMode : t.obj 0x2040 1 0 = s.obj 0x2040 1 0
  domains : ∀ k, 18 ≤ k → t.power.domains.getLsbD k = s.power.domains.getLsbD k
  pll : t.power.pllLocked = s.power.pllLocked
  ctl : t.ctl = s.ctl
  sage : t.sage = s.sage
  mem : t.mem = s.mem
  coh : t.coh = s.coh
  mgmt : t.mgmt = s.mgmt

namespace Configures
variable {s t u : State}

theorem refl : Configures s s := ⟨rfl, fun _ _ => rfl, rfl, rfl, rfl, rfl, rfl, rfl⟩

theorem trans (h : Configures s t) (k : Configures t u) : Configures s u :=
  ⟨k.raceMode.trans h.raceMode, fun i hi => (k.domains i hi).trans (h.domains i hi), k.pll.trans h.pll, k.ctl.trans h.ctl,
    k.sage.trans h.sage, k.mem.trans h.mem, k.coh.trans h.coh, k.mgmt.trans h.mgmt⟩

theorem foldl {α : Type} {f : State → α → State} (hf : ∀ s a, Configures s (f s a)) (l : List α) (s : State) :
    Configures s (l.foldl f s) := foldl_keeps (P := Configures s) (fun u a h => h.trans (hf u a)) l refl

theorem setObj (s : State) {i : Nat} (h : 0x2040 < i) (sub e v : Nat) : Configures s (s.setObj i sub e v) :=
  ⟨State.obj_setObj_above_raceMode s h sub e v, fun _ _ => rfl, rfl, rfl, rfl, rfl, rfl, rfl⟩

theorem updateSetPoints (s : State) : Configures s (updateSetPoints s) := foldl (fun s _ => setObj s (by decide) ..) _ _

theorem withDomains (s : State) (d : BitVec 20) (h : ∀ k, 18 ≤ k → d.getLsbD k = s.power.domains.getLsbD k) :
    Configures s { s with power := { s.power with domains := d } } := ⟨State.obj_eq_of_dict rfl rfl _ _ _, h, rfl, rfl, rfl, rfl, rfl, rfl⟩

/-- PD16 and PD17 follow the ports; the domains above them stay. -/
theorem portDomains (s : State) : Configures s (portDomains s) := by
  refine withDomains s _ fun k hk => ?_
  rw [BitVec.getLsbD_ofNat, testBit_putBits, testBit_putBits, if_neg (by omega), if_neg (by omega), BitVec.testBit_toNat]
  by_cases h20 : k < 20
  · simp [h20]
  · simp [h20, BitVec.getLsbD_of_ge _ _ (Nat.le_of_not_lt h20)]

theorem monRestart (s : State) (i : Nat) : Configures s (monRestart s i) := setObj s (by decide) ..

end Configures

/-- The configuration counts as applied, and RACE_MODE is in effect as its object reads (R268). -/
theorem applyConfig_configured (s : State) : (applyConfig s).mgmt.cfgApplied = true ∧
    (applyConfig s).coh.raceMode = (applyConfig s).obj 0x2040 1 0 ∧ (applyConfig s).ctl = s.ctl ∧ (applyConfig s).sage = s.sage ∧
    (applyConfig s).mem = s.mem ∧ (applyConfig s).power.pllLocked = s.power.pllLocked ∧
    ∀ k, 18 ≤ k → (applyConfig s).power.domains.getLsbD k = s.power.domains.getLsbD k := by
  have hports (u : State) : Configures u ((List.range 8).foldl (fun s p =>
      if s.obj 0x8010 3 p ≠ 6 ∧ s.obj 0x8010 1 p = 0 then s.setObj 0x8010 3 p 0 else s) u) :=
    Configures.foldl (fun u p => by
      split
      · exact Configures.setObj u (by decide) ..
      · exact Configures.refl) _ _
  have hset : Configures { latchLimits s with
      coh := { s.coh with raceMode := s.obj 0x2040 1 0 }
      mgmt := { s.mgmt with cfgApplied := true } } (applyConfig s) :=
    ((((Configures.updateSetPoints _).trans (hports _)).trans (Configures.portDomains _)).trans
      (Configures.setObj _ (by decide) ..)).trans (Configures.foldl Configures.monRestart _ _)
  exact ⟨congrArg MgmtState.cfgApplied hset.mgmt, (congrArg CohState.raceMode hset.coh).trans hset.raceMode.symm, hset.ctl,
    hset.sage, hset.mem, hset.pll, hset.domains⟩

/-! ## The end of the work -/

/-- What the record of a start leaves alone: everything but the records and what is sent out. -/
structure RecordsStart (s t : State) : Prop where
  dict : t.dict = s.dict
  grade : t.grade = s.grade
  now : t.now = s.now
  power : t.power = s.power
  ctl : t.ctl = s.ctl
  sage : t.sage = s.sage
  mem : t.mem = s.mem
  coh : t.coh = s.coh
  cfgApplied : t.mgmt.cfgApplied = s.mgmt.cfgApplied
  host : t.host = s.host

namespace RecordsStart
variable {s t u : State}

theorem refl : RecordsStart s s := ⟨rfl, rfl, rfl, rfl, rfl, rfl, rfl, rfl, rfl, rfl⟩

theorem trans (h : RecordsStart s t) (k : RecordsStart t u) : RecordsStart s u :=
  ⟨k.dict.trans h.dict, k.grade.trans h.grade, k.now.trans h.now, k.power.trans h.power, k.ctl.trans h.ctl,
    k.sage.trans h.sage, k.mem.trans h.mem, k.coh.trans h.coh, k.cfgApplied.trans h.cfgApplied, k.host.trans h.host⟩

theorem obj (h : RecordsStart s t) (i sub e : Nat) : t.obj i sub e = s.obj i sub e :=
  State.obj_eq_of_dict h.dict h.grade i sub e

theorem emit (s : State) (o : Output) : RecordsStart s (s.emit o) := ⟨rfl, rfl, rfl, rfl, rfl, rfl, rfl, rfl, rfl, rfl⟩

theorem printStart (s : State) : RecordsStart s (printStart s) := by
  unfold Machine.printStart uartLine
  split
  · split
    · exact emit ..
    · exact refl
  · exact refl

theorem changeRecord (s : State) (f : StartRec → StartRec) : RecordsStart s (changeRecord s f) := by
  unfold Machine.changeRecord
  split
  · exact refl
  · exact ⟨rfl, rfl, rfl, rfl, rfl, rfl, rfl, rfl, rfl, rfl⟩

theorem setRecord (s : State) (f : StartRec → StartRec) : RecordsStart s (setRecord s f) :=
  (changeRecord ..).trans (printStart ..)

theorem prints (n : Nat) (s : State) : RecordsStart s ((List.range n).foldl (fun s _ => Machine.printStart s) s) :=
  foldl_keeps (P := RecordsStart s) (fun u _ h => h.trans (printStart u)) _ refl

end RecordsStart

/-- The work of a start is over: it is done, and the rest is as it was but for the records. -/
theorem finishWork_done (s : State) (ends : List (BitVec 32)) (f : StartRec → StartRec) :
    ∃ u, RecordsStart s u ∧
      finishWork s ends f = { u with ctl := { u.ctl with start := u.ctl.start.map fun x => { x with done := true } } } := by
  have hrec := RecordsStart.prints ((if (s.ctl.start.map StartRun.cold) = some true then 10 else 8) - 1) s
  exact ⟨setRecord _ _, hrec.trans (RecordsStart.setRecord _ _), rfl⟩

end Sys2Proof.Machine
end

section
/-!
O58: the work of a cold and of a warm start (R500, R506).
-/
namespace Sys2Proof.Machine
open Sys2Proof.Claims

/-- What a start whose work is done shows, `v` being the state before its configuration: the work counts as done, the
configuration as applied, and clock, upper domains, memory and steps are as the configuration found them. -/
structure WorkDone (v t : State) (r : StartRun) : Prop where
  start : t.ctl.start = some { r with done := true }
  pll : t.power.pllLocked = v.power.pllLocked
  domains : ∀ k, 18 ≤ k → t.power.domains.getLsbD k = v.power.domains.getLsbD k
  mem : t.mem = v.mem
  sage : t.sage = v.sage
  cfgApplied : t.mgmt.cfgApplied = true
  raceMode : t.coh.raceMode = t.obj 0x2040 1 0

theorem configuredWork_done {v : State} {r : StartRun} (hr : v.ctl.start = some r) (ends : List (BitVec 32))
    (f : StartRec → StartRec) : WorkDone v (finishWork (applyConfig v) ends f) r := by
  obtain ⟨hcfg, hrace, hctl, hsage, hmem, hpll, hdom⟩ := applyConfig_configured v
  obtain ⟨u, hu, heq⟩ := finishWork_done (applyConfig v) ends f
  rw [heq]
  refine ⟨?_, (congrArg PowerState.pllLocked hu.power).trans hpll, fun k hk => ?_, hu.mem.trans hmem, hu.sage.trans hsage,
    hu.cfgApplied.trans hcfg, ?_⟩
  · show u.ctl.start.map _ = _
    rw [hu.ctl, hctl, hr]
    rfl
  · exact (congrArg (fun p => BitVec.getLsbD (PowerState.domains p) k) hu.power).trans (hdom k hk)
  · exact ((congrArg CohState.raceMode hu.coh).trans hrace).trans (hu.obj 0x2040 1 0).symm

/-- A start at work has not failed and is not done. -/
theorem startAtWork_start {s : State} {cold : Bool} {cause : BitVec 8} (h : startAtWork s cold cause = true) :
    ∃ r, s.ctl.start = some r := by
  unfold startAtWork at h
  cases hr : s.ctl.start with
  | none => simp [hr] at h
  | some r => exact ⟨r, rfl⟩

/-! ## Cold start -/

/-- The module once its domains are up and its clock is locked (R500). -/
def coldPowered (s : State) : State :=
  let s := { s with
    ctl := { s.ctl with straps := s.ctl.strapPins }
    mgmt := { s.mgmt with ringDriven := true }
    power := { s.power with
      domains := BitVec.allOnes 20
      pllLocked := true
      selfRefresh := false
      lasersDark := false
      counting := false } }
  let s := s.setObj 0x9000 9 0 (bits s.ctl.straps.toNat 3 1)
  { s with mgmt := { s.mgmt with identity := true } }

/-- The module once it runs the image it chose. -/
def coldBooted (s : State) : State :=
  let s := settleChannels (applyPrevious (finishSwaps (coldPowered s)))
  runSlot s ((chooseSlot s).getD 0)

/-- The module after self-test and training. -/
def coldTested (s : State) (failed : List Block) (lanes : List LaneLoss) : State :=
  restoreMap (chooseProcessors (trainLanes (failAll (coldBooted s) (failed.filter (mayFail (coldBooted s)))) lanes))

/-- The module with its memory empty, before its configuration takes effect. -/
def coldEmptied (s : State) (failed : List Block) (lanes : List LaneLoss) : State :=
  let t := coldTested s failed lanes
  let s := { t with mem := emptyMemory t.mem }
  activateReplicas ((s.setObj 0x2050 3 0 (s.obj 0x2050 1 0)).setObj 0x2050 3 1 (s.obj 0x2050 2 0)) []

theorem execColdStart_work {s : State} {cause : BitVec 8} {ends : List (BitVec 32)} (h : startAtWork s true cause = true)
    (he : ends.length ≤ 11) (failed : List Block) (lanes : List LaneLoss) :
    ∃ f, exec (.coldStart cause failed lanes ends) s = .next (finishWork (applyConfig (coldEmptied s failed lanes)) ends f) := by
  have hx : exec (.coldStart cause failed lanes ends) s = execColdStart cause failed lanes ends s := rfl
  rw [hx, execColdStart, guarded_true _ (by simp [h, he])]
  exact ⟨_, rfl⟩

theorem coldPowered_start (s : State) : (coldPowered s).ctl.start = s.ctl.start := rfl

theorem coldPowered_power (s : State) : (coldPowered s).power.domains = BitVec.allOnes 20 ∧ (coldPowered s).power.pllLocked = true :=
  ⟨rfl, rfl⟩

theorem coldBooted_keeps (s : State) : StartKeeps (coldPowered s) (coldBooted s) :=
  (((StartKeeps.finishSwaps _).trans (StartKeeps.applyPrevious _)).trans (StartKeeps.settleChannels _)).trans
    (StartKeeps.runSlot ..)

theorem coldTested_keeps (s : State) (failed : List Block) (lanes : List LaneLoss) :
    StartKeeps (coldBooted s) (coldTested s failed lanes) :=
  (((StartKeeps.failAll ..).trans (StartKeeps.trainLanes ..)).trans (StartKeeps.chooseProcessors _)).trans
    (StartKeeps.restoreMap _)

theorem coldEmptied_recordsOnly (s : State) (failed : List Block) (lanes : List LaneLoss) :
    RecordsOnly { coldTested s failed lanes with mem := emptyMemory (coldTested s failed lanes).mem }
      (coldEmptied s failed lanes) :=
  ((RecordsOnly.setObj ..).trans (RecordsOnly.setObj ..)).trans (RecordsOnly.foldl _ (fun _ _ => RecordsOnly.setObj ..) _ _)

/-- The work of a cold start ends with power up, memory empty and the configuration applied (R500). -/
theorem coldStart_done {s : State} {cause : BitVec 8} {ends : List (BitVec 32)} (h : startAtWork s true cause = true)
    (he : ends.length ≤ 11) (failed : List Block) (lanes : List LaneLoss) :
    ∃ t r, exec (.coldStart cause failed lanes ends) s = .next t ∧ t.ctl.start = some r ∧ r.done = true ∧
      t.power.domains.getLsbD 18 = true ∧ t.power.domains.getLsbD 19 = true ∧ t.power.pllLocked = true ∧ t.mem.dev = [] ∧
      t.mgmt.cfgApplied = true ∧ t.coh.raceMode = t.obj 0x2040 1 0 := by
  obtain ⟨r, hr⟩ := startAtWork_start h
  obtain ⟨f, hx⟩ := execColdStart_work h he failed lanes
  have hkeep := (coldBooted_keeps s).trans (coldTested_keeps s failed lanes)
  have hrec := coldEmptied_recordsOnly s failed lanes
  have hpower : (coldEmptied s failed lanes).power = (coldPowered s).power := hrec.power.trans hkeep.power
  have hstart : (coldEmptied s failed lanes).ctl.start = some r :=
    ((congrArg CtlState.start hrec.ctl).trans hkeep.start).trans ((coldPowered_start s).trans hr)
  obtain ⟨hdom, hpll⟩ := coldPowered_power s
  have hw := configuredWork_done hstart ends f
  refine ⟨_, _, hx, hw.start, rfl, ?_, ?_, ?_, ?_, hw.cfgApplied, hw.raceMode⟩
  · rw [hw.domains 18 (by decide), hpower, hdom]
    decide
  · rw [hw.domains 19 (by decide), hpower, hdom]
    decide
  · rw [hw.pll, hpower, hpll]
  · rw [hw.mem, hrec.mem]
    rfl

/-! ## Warm start -/

/-- The module's logic after its reset, with the pages that hard pins hold and with the clock locked (R506, R507). -/
def warmLogic (s : State) (pages : List Nat) : State :=
  let s := logicReset s
  { s with
    mem := { s.mem with pinnedPages := pages }
    mgmt := { s.mgmt with ringDriven := true }
    power := { s.power with
      pllLocked := true
      selfRefresh := false
      lasersDark := false
      counting := false } }

theorem warmLogic_start (s : State) (pages : List Nat) : (warmLogic s pages).ctl.start = s.ctl.start := rfl

theorem warmLogic_host (s : State) (pages : List Nat) : (warmLogic s pages).mem.host = s.mem.host := rfl

theorem warmLogic_steps (s : State) (pages : List Nat) : (warmLogic s pages).sage.steps = [] := rfl

theorem warmLogic_pll (s : State) (pages : List Nat) : (warmLogic s pages).power.pllLocked = true := rfl

/-- The module after its reset, memory having been written back. -/
def warmReset (s : State) : State := warmLogic (finishSwaps (writeBackAll s)) (hardPages s)

/-- The module once it runs the image it chose, the replica entries that were COPYING being copied. -/
def warmBooted (s : State) : State :=
  let copying := copyingNow s
  let s := settleChannels (applyPrevious (activateReplicas (warmReset s) copying))
  finishCopies (chooseProcessors (runSlot s ((chooseSlot s).getD 0))) copying

/-- The verification scrub of the pages of ACTIVE replica entries and hard-pinned lines. -/
def warmVerified (s : State) (errs : List (Nat × ArrayErr)) : State × Tally :=
  (verifyRuns (warmBooted s) (copyingNow s) (hardPages s)).foldl (verifyPages errs) (warmBooted s, Tally.zero)

theorem execWarmStart_work {s : State} {cause : BitVec 8} {ends : List (BitVec 32)} (h : startAtWork s false cause = true)
    (hl : entriesLeft s = false) (hs : stopDone s = true) (he : ends.length ≤ 11) (errs : List (Nat × ArrayErr)) :
    ∃ f, exec (.warmStart cause errs ends) s = .next (finishWork (applyConfig (restoreMap (warmVerified s errs).1)) ends f) := by
  have hx : exec (.warmStart cause errs ends) s = execWarmStart cause errs ends s := rfl
  rw [hx, execWarmStart, guarded_true _ (by simp [h, he, hl, hs])]
  exact ⟨_, rfl⟩

theorem finishedSwaps_keeps (s : State) : StartKeeps s (finishSwaps (writeBackAll s)) :=
  (StartKeeps.writeBackAll s).trans (StartKeeps.finishSwaps _)

theorem warmReset_start (s : State) : (warmReset s).ctl.start = s.ctl.start :=
  (warmLogic_start ..).trans (finishedSwaps_keeps s).start

theorem warmReset_host (s : State) : (warmReset s).mem.host = s.mem.host :=
  (warmLogic_host ..).trans (finishedSwaps_keeps s).host

theorem warmReset_steps (s : State) : (warmReset s).sage.steps = [] := warmLogic_steps ..

theorem warmReset_pll (s : State) : (warmReset s).power.pllLocked = true := warmLogic_pll ..

theorem warmBooted_keeps (s : State) : StartKeeps (warmReset s) (warmBooted s) :=
  (((((StartKeeps.activateReplicas ..).trans (StartKeeps.applyPrevious _)).trans (StartKeeps.settleChannels _)).trans
    (StartKeeps.runSlot ..)).trans (StartKeeps.chooseProcessors _)).trans (StartKeeps.finishCopies ..)

/-- The work of a warm start ends with the clock locked, no step, host memory as it was and the configuration applied (R506). -/
theorem warmStart_done {s : State} {cause : BitVec 8} {ends : List (BitVec 32)} (h : startAtWork s false cause = true)
    (hl : entriesLeft s = false) (hs : stopDone s = true) (he : ends.length ≤ 11) (errs : List (Nat × ArrayErr)) :
    ∃ t r, exec (.warmStart cause errs ends) s = .next t ∧ t.ctl.start = some r ∧ r.done = true ∧ t.power.pllLocked = true ∧
      t.mgmt.cfgApplied = true ∧ t.sage.steps = [] ∧ t.mem.host = s.mem.host := by
  obtain ⟨r, hr⟩ := startAtWork_start h
  obtain ⟨f, hx⟩ := execWarmStart_work h hl hs he errs
  have hkeep : StartKeeps (warmReset s) (restoreMap (warmVerified s errs).1) :=
    ((warmBooted_keeps s).trans (StartKeeps.verifyRuns errs _ (warmBooted s, Tally.zero))).trans (StartKeeps.restoreMap _)
  have hw := configuredWork_done ((hkeep.start.trans (warmReset_start s)).trans hr) ends f
  refine ⟨_, _, hx, hw.start, rfl, ?_, hw.cfgApplied, ?_, ?_⟩
  · rw [hw.pll, hkeep.power, warmReset_pll]
  · rw [hw.sage]
    exact hkeep.steps (warmReset_steps s)
  · rw [hw.mem, hkeep.host, warmReset_host]

end Sys2Proof.Machine
end

section
/-!
O58: failed starts, service hold and release (R505, R509 to R512).
-/
namespace Sys2Proof.Machine
open Sys2Proof.Claims

/-! ## A step of a start times out -/

theorem startStepTimeout_fails {s : State} {r : StartRun} {step : Fin 12} {b : Block} {d : BitVec 32}
    (hr : s.ctl.start = some r) (hf : r.failed = false) (hd : r.done = false) (h1 : 1 ≤ step.val)
    (h2 : step.val ≤ (if r.cold then 10 else 8)) :
    ∃ t, exec (.startStepTimeout step b d) s = .next t ∧ t.ctl.start = some { r with failed := true } ∧
      t.obj 0x5010 2 0 = satAdd 8 (s.obj 0x5010 2 0) 1 ∧ t.moduleState = s.moduleState := by
  have hx : exec (.startStepTimeout step b d) s = execStartStepTimeout step b d s := rfl
  rw [hx, execStartStepTimeout, hr]
  dsimp only
  rw [guarded_true _ (by simp [hf, hd, h1, h2])]
  refine ⟨_, rfl, rfl, ?_, ?_⟩
  · exact ((RecordsStart.setRecord ..).obj 0x5010 2 0).trans (State.obj_setObj_same ..)
  · refine ((RecordsStart.setRecord ..).obj 0x2002 2 0).trans ?_
    rw [State.obj_setObj _ _ (by decide) (by decide) (by decide) (by decide), if_neg (by decide)]
    rfl

/-! ## The next start -/

/-- A trigger begins a start that has not failed and is not done (R513). -/
theorem beginStart_begun (s : State) (cold : Bool) (cause : Nat) : ∃ q, (beginStart s cold cause).ctl.start = some q ∧
    q.failed = false ∧ q.done = false ∧ (beginStart s cold cause).moduleState = if cold then 5 else 3 := by
  refine ⟨⟨cold, cause, nextStart s, false, false⟩, ?_, rfl, rfl, State.obj_setObj_same ..⟩
  unfold beginStart
  dsimp only
  rw [State.setModule_ctl, (RecordsStart.printStart _).ctl]

theorem beginWarm_begun (s : State) (cause : Nat) : ∃ q, (beginWarm s cause).ctl.start = some q ∧ q.failed = false ∧
    q.done = false ∧ (beginWarm s cause).moduleState = 3 := by
  unfold beginWarm
  exact beginStart_begun _ false cause

theorem beginCold_begun (s : State) (cause : Nat) : ∃ q, (beginCold s cause).ctl.start = some q ∧ q.failed = false ∧
    q.done = false ∧ (beginCold s cause).moduleState = 5 := by
  unfold beginCold
  exact beginStart_begun _ true cause

theorem startFailed_restarts {s : State} {r : StartRun} (hr : s.ctl.start = some r) (hf : r.failed = true)
    (hn : s.obj 0x5010 2 0 < 3) :
    ∃ t q, exec .startFailed s = .next t ∧ t.ctl.start = some q ∧ q.failed = false ∧ q.done = false ∧
      (t.moduleState = 3 ∨ t.moduleState = 5) := by
  have hx : exec .startFailed s = execStartFailed s := rfl
  rw [hx, execStartFailed, hr]
  dsimp only
  rw [guarded_true _ (by simp [hf, hn])]
  split
  case h_1 i _ =>
    obtain ⟨q, hq, hfail, hdone, hm⟩ := beginWarm_begun (revertSlot s i) 7
    exact ⟨_, q, rfl, hq, hfail, hdone, .inl hm⟩
  case h_2 =>
    obtain ⟨q, hq, hfail, hdone, hm⟩ := beginCold_begun s 3
    exact ⟨_, q, rfl, hq, hfail, hdone, .inr hm⟩

/-! ## Service hold -/

/-- In service hold only PD18 and PD19 are up, the lasers are dark and no start is at work (R512). -/
theorem enterHold_holds (s : State) : (enterHold s).moduleState = 4 ∧ serviceState (enterHold s) = 3 ∧
    (enterHold s).ctl.start = none ∧ (enterHold s).power.lasersDark = true ∧ (enterHold s).power.domains = holdDomains := by
  refine ⟨?_, State.obj_setObj_same .., rfl, rfl, rfl⟩
  unfold enterHold setService State.moduleState
  rw [State.obj_setObj _ _ (by decide) (by decide) (by decide) (by decide), if_neg (by decide)]
  exact State.obj_setObj_same ..

theorem serviceHold_third {s : State} {r : StartRun} (hr : s.ctl.start = some r) (hf : r.failed = true)
    (hn : 3 ≤ s.obj 0x5010 2 0) (bad : Bool) : exec (.serviceHold bad) s = .next (enterHold s) := by
  have hx : exec (.serviceHold bad) s = execServiceHold bad s := rfl
  rw [hx, execServiceHold, hr]
  dsimp only
  rw [if_pos hf, guarded_true _ (by simp [hn])]

theorem serviceHold_unfit {s : State} {r : StartRun} {bad : Bool} (hr : s.ctl.start = some r) (hf : r.failed = false)
    (h : (r.done = true ∧ mustHold s = true) ∨ (r.done = false ∧ (bad = true ∨ chooseSlot (applyPrevious s) = none))) :
    exec (.serviceHold bad) s = .next (enterHold (setRecord s fun x => { x with result := 3 })) := by
  have hx : exec (.serviceHold bad) s = execServiceHold bad s := rfl
  have hg : ((r.done && mustHold s) || (!r.done && (bad || (chooseSlot (applyPrevious s)).isNone))) = true := by
    rcases h with ⟨hd, hm⟩ | ⟨hd, hb | hc⟩
    · simp [hd, hm]
    · simp [hd, hb]
    · simp [hd, hc]
  rw [hx, execServiceHold, hr]
  dsimp only
  rw [if_neg (by simp [hf]), guarded_true _ hg]

/-! ## Release -/

/-- The device time at which a start's release begins tick 0 (R37). -/
def releaseTime (s : State) : Nat := (s.now + 1000 * s.obj 0x2010 1 0 - 1) / (1000 * s.obj 0x2010 1 0) * (1000 * s.obj 0x2010 1 0)

/-- Tick 0 begins no earlier than the present, at a whole multiple of the tick period. -/
theorem releaseTime_aligned {s : State} (h : 0 < s.obj 0x2010 1 0) :
    s.now ≤ releaseTime s ∧ releaseTime s % (1000 * s.obj 0x2010 1 0) = 0 := by
  unfold releaseTime
  generalize hp : 1000 * s.obj 0x2010 1 0 = p
  have hpos : 0 < p := by omega
  refine ⟨?_, Nat.mul_mod_left ..⟩
  have hdiv := Nat.div_add_mod' (s.now + p - 1) p
  have hmod := Nat.mod_lt (s.now + p - 1) hpos
  omega

/-- Tick 0 begins, no start being at work (R37). -/
def zeroBegun (s : State) : State :=
  let t := { s with
    now := releaseTime s
    ctl := { s.ctl with start := none } }
  ((t.setModule 0).setObj 0x2010 3 0 0).setObj 0x2010 4 0 (releaseTime s)

/-- A start that is not on a trial slot clears START_FAILS (R511). -/
def failsCleared (s : State) : State := if s.mgmt.trial then s else s.setObj 0x5010 2 0 0

/-- The module at tick 0, its start's record written. -/
def zeroRecorded (s : State) : State :=
  setRecord (failsCleared (zeroBegun s)) fun r => { r with
    result := 1
    step := r.step + 1
    fails := (failsCleared (zeroBegun s)).obj 0x5010 2 0 }

theorem execRelease_eq {s : State} (hd : startDone s = true) (hm : mustHold s = false) : exec .release s = .next
    (if latchOpen (readyAll (zeroRecorded s)) || (readyAll (zeroRecorded s)).ctl.drainLater then
      latchDrain { readyAll (zeroRecorded s) with ctl := { (readyAll (zeroRecorded s)).ctl with drainLater := false } }
    else readyAll (zeroRecorded s)) := by
  have hx : exec .release s = execRelease s := rfl
  rw [hx, execRelease, guarded_true _ (by simp [hd, hm])]
  rfl

/-- A released module: no start at work, tick 0 begun at its time. -/
structure AtTickZero (now : Nat) (t : State) : Prop where
  start : t.ctl.start = none
  tick : t.tick = 0
  tickStart : t.tickStart = now
  now : t.now = now

/-- Operations that leave 2010h, the time and the start alone leave a module at tick 0. -/
theorem AtTickZero.same {n : Nat} {s t : State} (h : AtTickZero n s) (ho : ∀ sub < 256, t.obj 0x2010 sub 0 = s.obj 0x2010 sub 0)
    (hn : t.now = s.now) (hc : t.ctl.start = s.ctl.start) : AtTickZero n t :=
  ⟨hc.trans h.start, (ho 3 (by decide)).trans h.tick, (ho 4 (by decide)).trans h.tickStart, hn.trans h.now⟩

theorem AtTickZero.kept {n : Nat} {L : List Nat} {s t : State} (h : AtTickZero n s) (hk : KeptOutside L s t) (hl : 0x2010 ∉ L)
    (hn : t.now = s.now) (hc : t.ctl.start = s.ctl.start) : AtTickZero n t :=
  h.same (fun sub hs => hk.obj 0x2010 sub 0 hl hs (by decide)) hn hc

theorem setTick_atTickZero (t : State) (n : Nat) (hc : t.ctl.start = none) (hn : t.now = n) :
    AtTickZero n ((t.setObj 0x2010 3 0 0).setObj 0x2010 4 0 n) := by
  refine ⟨hc, ?_, State.obj_setObj_same .., hn⟩
  rw [State.tick, State.obj_setObj _ _ (by decide) (by decide) (by decide) (by decide), if_neg (by decide)]
  exact State.obj_setObj_same ..

theorem zeroBegun_atTickZero (s : State) : AtTickZero (releaseTime s) (zeroBegun s) := setTick_atTickZero _ _ rfl rfl

theorem zeroBegun_kept (s : State) : KeptOutside [0x2002, 0x2010] s (zeroBegun s) := by
  have hbase : KeptOutside [0x2002, 0x2010] s { s with now := releaseTime s, ctl := { s.ctl with start := none } } :=
    .of_same rfl rfl rfl
  exact ((hbase.thenSetObj (by decide) (by decide) (by decide)).thenSetObj (by decide) (by decide) (by decide)).thenSetObj
    (by decide) (by decide) (by decide)

theorem zeroBegun_moduleState (s : State) : (zeroBegun s).moduleState = 0 := by
  unfold zeroBegun State.moduleState
  dsimp only
  rw [State.obj_setObj _ _ (by decide) (by decide) (by decide) (by decide), if_neg (by decide),
    State.obj_setObj _ _ (by decide) (by decide) (by decide) (by decide), if_neg (by decide)]
  exact State.obj_setObj_same ..

theorem failsCleared_kept (s : State) : RecordsOnly s (failsCleared s) ∧ KeptOutside [0x5010] s (failsCleared s) := by
  unfold failsCleared
  split
  · exact ⟨.refl, .refl⟩
  · exact ⟨RecordsOnly.setObj .., KeptOutside.refl.thenSetObj (by decide) (by decide) (by decide)⟩

/-- Objects outside 5010h are as tick 0 begins with. -/
theorem zeroRecorded_obj (s : State) {i sub : Nat} (hi : i ≠ 0x5010) (hs : sub < 256) :
    (zeroRecorded s).obj i sub 0 = (zeroBegun s).obj i sub 0 :=
  ((RecordsStart.setRecord ..).obj i sub 0).trans ((failsCleared_kept _).2.obj i sub 0 (by simpa using hi) hs (by decide))

theorem zeroRecorded_ctl (s : State) : (zeroRecorded s).ctl = { s.ctl with start := none } :=
  (RecordsStart.setRecord ..).ctl.trans (failsCleared_kept _).1.ctl

theorem zeroRecorded_host (s : State) : (zeroRecorded s).host = s.host :=
  (RecordsStart.setRecord ..).host.trans (failsCleared_kept _).1.host

theorem zeroRecorded_atTickZero (s : State) : AtTickZero (releaseTime s) (zeroRecorded s) :=
  (zeroBegun_atTickZero s).same (fun _ hs => zeroRecorded_obj s (by decide) hs)
    ((RecordsStart.setRecord ..).now.trans (failsCleared_kept _).1.now) (congrArg CtlState.start (zeroRecorded_ctl s))

/-! ## Functions become READY -/

/-- What makes functions READY leaves every object but 7050h alone. -/
theorem readyAll_kept (s : State) : RecordsOnly s (readyAll s) ∧ KeptOutside [0x7050] s (readyAll s) := by
  have hset (t : State) (f : Fn) : KeptOutside [0x7050] t (t.setFn f.val 2) :=
    KeptOutside.refl.thenSetObj (by decide) (by decide) (by omega)
  exact ⟨(RecordsOnly.setObj ..).trans (RecordsOnly.foldl _ (fun _ _ => RecordsOnly.setObj ..) _ _),
    (hset s 0).thenFoldl _ fun t f _ => hset t f⟩

/-- A function of the list, or one that was READY, is READY. -/
theorem fnState_readyFold (l : List Fn) (f : Fn) : ∀ s : State, f ∈ l ∨ s.fnState f.val = 2 →
    (l.foldl (fun s f => s.setFn f.val 2) s).fnState f.val = 2 := by
  induction l with
  | nil => exact fun s h => h.resolve_left (by simp)
  | cons g l ih =>
    intro s h
    refine ih _ ?_
    by_cases hgf : f = g
    · subst hgf
      exact .inr (State.obj_setObj_same ..)
    · refine h.imp (fun hm => (List.mem_cons.mp hm).resolve_left hgf) fun hs => ?_
      have hne : f.val ≠ g.val := fun he => hgf (Fin.ext he)
      change (s.setObj 0x7050 1 g.val 2).obj 0x7050 1 f.val = 2
      rw [State.obj_setObj _ _ (by decide) (by decide) (by omega) (by omega), if_neg (by simp [hne])]
      exact hs

theorem mem_enabledVfs {s : State} {f : Fn} (he : s.host.vfEnable = true) (h0 : f.val ≠ 0) (hn : f.val ≤ s.host.numVfs) :
    f ∈ enabledVfs s := by
  refine List.mem_filterMap.mpr ⟨f.val, List.mem_range.mpr f.isLt, ?_⟩
  rw [if_pos ⟨Nat.pos_of_ne_zero h0, he, hn⟩]
  exact congrArg some (Fin.ext (Nat.mod_eq_of_lt f.isLt))

/-- The PF and each enabled VF are READY (R508). -/
theorem readyAll_ready (s : State) (f : Fn) (h : f.val = 0 ∨ s.host.vfEnable = true ∧ f.val ≤ s.host.numVfs) :
    (readyAll s).fnState f.val = 2 := by
  refine fnState_readyFold _ f _ ?_
  by_cases h0 : f.val = 0
  · rw [h0]
    exact .inr (State.obj_setObj_same ..)
  · obtain ⟨he, hn⟩ := h.resolve_left h0
    exact .inl (mem_enabledVfs he h0 hn)

/-! ## The drain of an open latch -/

/-- What a drain leaves alone: the time, the start, and every object but the log, service, module and function states. -/
structure DrainKept (s t : State) : Prop extends KeptOutside [0x5000, 0x4080, 0x2002, 0x7050] s t where
  now : t.now = s.now
  ctl : t.ctl = s.ctl

namespace DrainKept
variable {s t u : State}

theorem refl : DrainKept s s := ⟨.refl, rfl, rfl⟩

theorem trans (h : DrainKept s t) (k : DrainKept t u) : DrainKept s u :=
  ⟨h.toKeptOutside.trans k.toKeptOutside, k.now.trans h.now, k.ctl.trans h.ctl⟩

theorem withHost (s : State) (x : HostState) : DrainKept s { s with host := x } := ⟨.of_same rfl rfl rfl, rfl, rfl⟩

theorem setObj (s : State) {i sub e : Nat} (v : Nat) (hi : i ∈ [0x5000, 0x4080, 0x2002, 0x7050]) (hs : sub < 256) (he : e < 2 ^ 20) :
    DrainKept s (s.setObj i sub e v) := ⟨KeptOutside.refl.thenSetObj hi hs he, rfl, rfl⟩

theorem logRecord (s : State) (r : LogRec) : DrainKept s (logRecord s r) :=
  ⟨KeptOutside.refl.thenLogRecord (by decide), (RecordsOnly.logRecord ..).now, (RecordsOnly.logRecord ..).ctl⟩

theorem quiesceModule (s : State) : DrainKept s (quiesceModule s) := by
  unfold Machine.quiesceModule
  have hmodule : DrainKept s (s.setModule 1) := setObj s 1 (by decide) (by decide) (by decide)
  refine hmodule.trans ?_
  have hfold (l : List Nat) (hl : ∀ f ∈ l, f < 2 ^ 20) : ∀ t : State,
      DrainKept t (l.foldl (fun s f => setMoved (beginDrain s f (drainLimit s f)) f true) t) := by
    induction l with
    | nil => exact fun _ => refl
    | cons f l ih =>
      intro t
      have hstep : DrainKept t (setMoved (beginDrain t f (drainLimit t f)) f true) :=
        ((setObj t 3 (by decide) (by decide) (hl f List.mem_cons_self)).trans (withHost ..)).trans (withHost ..)
      exact hstep.trans (ih (fun g hg => hl g (List.mem_cons_of_mem _ hg)) _)
  refine hfold _ (fun f hf => ?_) _
  have hlt : f < 256 := List.mem_range.mp (List.mem_filter.mp hf).1
  omega

theorem beginService (s : State) (by_ : Nat) : DrainKept s (beginService s by_) := by
  unfold Machine.beginService
  dsimp only
  have hnotice (r : LogRec) : DrainKept s (queueEvent (setService (Machine.logRecord s r) by_) 0 4 0x40 0 0) :=
    ((logRecord s r).trans (setObj _ by_ (by decide) (by decide) (by decide))).trans (withHost ..)
  split
  · exact hnotice _
  · exact (hnotice _).trans (quiesceModule _)

theorem latchDrain (s : State) : DrainKept s (latchDrain s) := by
  unfold Machine.latchDrain
  split
  · exact (beginService ..).trans (withHost ..)
  · split
    · exact withHost ..
    · exact refl

end DrainKept

/-! ## Release -/

theorem releasedReady_atTickZero (s : State) : AtTickZero (releaseTime s) (readyAll (zeroRecorded s)) :=
  (zeroRecorded_atTickZero s).kept (readyAll_kept _).2 (by decide) (readyAll_kept _).1.now
    (congrArg CtlState.start (readyAll_kept _).1.ctl)

/-- Release begins tick 0 with no start at work, whether or not a drain follows (R37, R532). -/
theorem release_tickZero {s : State} (hd : startDone s = true) (hm : mustHold s = false) :
    ∃ t, exec .release s = .next t ∧ t.ctl.start = none ∧ t.tick = 0 ∧
      (0 < s.obj 0x2010 1 0 → s.now ≤ t.now ∧ t.now % (1000 * s.obj 0x2010 1 0) = 0 ∧ t.tickStart = t.now) := by
  have hzero : AtTickZero (releaseTime s)
      (if latchOpen (readyAll (zeroRecorded s)) || (readyAll (zeroRecorded s)).ctl.drainLater then
        latchDrain { readyAll (zeroRecorded s) with ctl := { (readyAll (zeroRecorded s)).ctl with drainLater := false } }
      else readyAll (zeroRecorded s)) := by
    generalize readyAll (zeroRecorded s) = w, releasedReady_atTickZero s = hw
    split
    · have hlater : AtTickZero (releaseTime s) { w with ctl := { w.ctl with drainLater := false } } :=
        hw.same (fun _ _ => State.obj_eq_of_dict rfl rfl _ _ _) rfl rfl
      have hdrain := DrainKept.latchDrain { w with ctl := { w.ctl with drainLater := false } }
      exact hlater.kept hdrain.toKeptOutside (by decide) hdrain.now (congrArg CtlState.start hdrain.ctl)
    · exact hw
  refine ⟨_, execRelease_eq hd hm, hzero.start, hzero.tick, fun hp => ?_⟩
  obtain ⟨hle, hmod⟩ := releaseTime_aligned hp
  rw [hzero.now]
  exact ⟨hle, hmod, hzero.tickStart⟩

/-- With no latch open the released module is RUNNING and its functions are READY (R499, R508). -/
theorem release_running {s : State} (hd : startDone s = true) (hm : mustHold s = false) (hl : latchOpen s = false)
    (hlater : s.ctl.drainLater = false) :
    ∃ t, exec .release s = .next t ∧ t.moduleState = 0 ∧ t.fnState 0 = 2 ∧
      ∀ f : Fn, s.host.vfEnable = true → f.val ≤ s.host.numVfs → t.fnState f.val = 2 := by
  obtain ⟨hrec, hkept⟩ := readyAll_kept (zeroRecorded s)
  have hobj (i sub : Nat) (hi : i ≠ 0x7050 ∧ i ≠ 0x5010) (hs : sub < 256) :
      (readyAll (zeroRecorded s)).obj i sub 0 = (zeroBegun s).obj i sub 0 :=
    (hkept.obj i sub 0 (by simpa using hi.1) hs (by decide)).trans (zeroRecorded_obj s hi.2 hs)
  have hlatch : latchOpen (readyAll (zeroRecorded s)) = false := by
    unfold latchOpen at hl ⊢
    rw [hobj 0x4080 2 (by decide) (by decide), (zeroBegun_kept s).obj 0x4080 2 0 (by decide) (by decide) (by decide)]
    exact hl
  have hdrain : (readyAll (zeroRecorded s)).ctl.drainLater = false := by
    rw [hrec.ctl, zeroRecorded_ctl]
    exact hlater
  have hx := execRelease_eq hd hm
  rw [hlatch, hdrain, if_neg (by simp)] at hx
  have hready (f : Fn) (h : f.val = 0 ∨ s.host.vfEnable = true ∧ f.val ≤ s.host.numVfs) :
      (readyAll (zeroRecorded s)).fnState f.val = 2 := readyAll_ready _ f (by rw [zeroRecorded_host]; exact h)
  exact ⟨_, hx, (hobj 0x2002 2 (by decide) (by decide)).trans (zeroBegun_moduleState s), hready 0 (.inl rfl),
    fun f he hn => hready f (.inr ⟨he, hn⟩)⟩

end Sys2Proof.Machine
end

section
/-!
O58, assembled.
-/
namespace Sys2Proof.Machine
open Sys2Proof.Claims

/-- Settles O58: the work of a start keeps the start in progress, power, host memory and an empty step store; its configuration
sets RACE_MODE last; a release begins tick 0, which a drain of an open latch leaves alone. -/
theorem startsRunFailAndRelease : Obligations.StartsRunFailAndRelease := by
  unfold Obligations.StartsRunFailAndRelease
  refine fun s => ⟨fun cause ends he => ⟨fun h failed lanes => coldStart_done h he failed lanes,
    fun h hl hs errs => warmStart_done h hl hs he errs⟩, fun r step b d hr hf hd h1 h2 => startStepTimeout_fails hr hf hd h1 h2,
    fun r hr hf => ⟨fun hn => startFailed_restarts hr hf hn, fun hn bad => ?_⟩, fun r bad hr hf hcase => ?_,
    fun hd hm => ⟨release_tickZero hd hm, fun hl hlater => release_running hd hm hl hlater⟩⟩
  · obtain ⟨hmodule, -, hstart, -, hdom⟩ := enterHold_holds s
    exact ⟨_, serviceHold_third hr hf hn bad, hmodule, hstart, hdom⟩
  · obtain ⟨hmodule, hservice, -, hlasers, hdom⟩ := enterHold_holds (setRecord s fun x => { x with result := 3 })
    exact ⟨_, serviceHold_unfit hr hf hcase, hmodule, hservice, hlasers, hdom⟩

end Sys2Proof.Machine
end

section
/-!
O7: RNE writes a value nearest to the exact one (R78, R86, R92). A rounded magnitude k x 2^q lies within half a unit 2^q of the exact
one, so no other multiple of 2^q lies nearer; a value of the format that is no multiple of 2^q lies below the binade of the exact one,
whose lower end is a multiple of 2^q.
-/
namespace Sys2Proof.Machine
open Sys2Proof.Claims

/-! ## Nearest multiples of a unit -/

/-- No multiple of a unit lies nearer to a number than one that lies within half a unit of it. -/
theorem abs_sub_mul_le_of_half {x u : ℚ} {k : ℤ} (hu : 0 < u) (hk : |x - k * u| ≤ u / 2) (j : ℤ) :
    |x - k * u| ≤ |x - j * u| := by
  rcases eq_or_ne k j with rfl | hne
  · exact le_rfl
  · have hone : (1 : ℚ) ≤ |(k : ℚ) - j| := by exact_mod_cast Int.one_le_abs (sub_ne_zero.mpr hne)
    have hapart : u ≤ |x - j * u| + |x - k * u| := calc
      u ≤ |(k : ℚ) - j| * u := le_mul_of_one_le_left hu.le hone
      _ = |(x - j * u) - (x - k * u)| := by rw [← abs_of_pos hu, ← abs_mul, abs_of_pos hu]; ring_nf
      _ ≤ |x - j * u| + |x - k * u| := abs_sub _ _
    linarith

/-- RNE rounds a quotient to an integer within half of it (R86). -/
theorem roundShift_rne_half (m d : Nat) : 2 * |(m : ℤ) - roundShift .rne m d * 2 ^ d| ≤ 2 ^ d := by
  have hm : (m : ℤ) = 2 ^ d * (m / 2 ^ d : Nat) + (m % 2 ^ d : Nat) := by exact_mod_cast (Nat.div_add_mod m (2 ^ d)).symm
  have hr : m % 2 ^ d < 2 ^ d := Nat.mod_lt _ (Nat.two_pow_pos d)
  have hp : ((2 ^ d : Nat) : ℤ) = 2 ^ d := by push_cast; rfl
  simp only [roundShift, Nat.shiftRight_eq_div_pow]
  split
  case isTrue hup =>
    have habs : (m : ℤ) - ((m / 2 ^ d + 1 : Nat) : ℤ) * 2 ^ d = (m % 2 ^ d : Nat) - 2 ^ d := by
      conv_lhs => rw [hm]
      push_cast
      ring
    rw [habs, abs_of_nonpos (by omega)]
    omega
  case isFalse hdown =>
    have habs : (m : ℤ) - ((m / 2 ^ d : Nat) : ℤ) * 2 ^ d = (m % 2 ^ d : Nat) := by
      conv_lhs => rw [hm]
      ring
    rw [habs, abs_of_nonneg (by omega)]
    omega

/-! ## The spacing of a format -/

/-- The exponent of a format's least spacing, that of its subnormals (R78). -/
def Fmt.emin (f : Fmt) : Int := 1 - (f.bias : Int) - f.mw

/-- The exponent to which `roundMag` rounds: that of the magnitude's binade, and at least `emin`. -/
theorem Fmt.roundMag_exp (f : Fmt) (mode : RMode) (m : Nat) (e : Int) :
    (f.roundMag mode m e).2 = max ((Nat.log2 m : Int) + e - f.mw) f.emin := by
  unfold Fmt.roundMag Fmt.emin
  dsimp only
  split <;> rfl

/-- The rounded integer at the exponent of `roundMag`: exact where the magnitude is a multiple of the unit. -/
theorem Fmt.roundMag_fst (f : Fmt) (mode : RMode) (m : Nat) (e : Int) : (f.roundMag mode m e).1 =
    if (f.roundMag mode m e).2 ≤ e then m <<< (e - (f.roundMag mode m e).2).toNat
    else roundShift mode m ((f.roundMag mode m e).2 - e).toNat := by
  rw [f.roundMag_exp]
  exact apply_ite Prod.fst ..

theorem two_pow_toNat_mul {a b : ℤ} (h : b ≤ a) : (2 : ℚ) ^ (a - b).toNat * 2 ^ b = 2 ^ a := by
  rw [← zpow_natCast, ← zpow_add₀ two_ne_zero, Int.toNat_of_nonneg (by omega), sub_add_cancel]

/-- RNE rounds a magnitude to within half a unit (R86). -/
theorem Fmt.roundMag_half (f : Fmt) (m : Nat) (e : Int) : let p := f.roundMag .rne m e
    |(m : ℚ) * 2 ^ e - (p.1 : ℤ) * 2 ^ p.2| ≤ 2 ^ p.2 / 2 := by
  dsimp only
  rw [f.roundMag_fst]
  generalize (f.roundMag .rne m e).2 = q
  split
  case isTrue hle =>
    have hexact : (m : ℚ) * 2 ^ e = ((m <<< (e - q).toNat : Nat) : ℤ) * 2 ^ q := by
      rw [Nat.shiftLeft_eq, ← two_pow_toNat_mul hle]
      push_cast
      ring
    rw [hexact, sub_self, abs_zero]
    positivity
  case isFalse hlt =>
    have hunit := two_pow_toNat_mul (a := q) (b := e) (by omega)
    have hround : 2 * |(m : ℚ) - roundShift .rne m (q - e).toNat * 2 ^ (q - e).toNat| ≤ 2 ^ (q - e).toNat := by
      exact_mod_cast roundShift_rne_half m (q - e).toNat
    have he : (0 : ℚ) < 2 ^ e := by positivity
    rw [← hunit, Int.cast_natCast, ← mul_assoc, ← sub_mul, abs_mul, abs_of_pos he]
    linarith [mul_le_mul_of_nonneg_right hround he.le]

/-- A magnitude lies in the binade of its exponent. -/
theorem binade_le {m : Nat} (hm : m ≠ 0) (e : Int) :
    (2 : ℚ) ^ ((Nat.log2 m : Int) + e) ≤ m * 2 ^ e ∧ (m : ℚ) * 2 ^ e < 2 ^ ((Nat.log2 m : Int) + e + 1) := by
  have he : (0 : ℚ) < 2 ^ e := by positivity
  have hlow : (2 : ℚ) ^ Nat.log2 m ≤ m := by exact_mod_cast Nat.log2_self_le hm
  have hhigh : (m : ℚ) < 2 ^ (Nat.log2 m + 1) := by exact_mod_cast Nat.lt_log2_self
  constructor
  · rw [zpow_add₀ two_ne_zero, zpow_natCast]
    exact mul_le_mul_of_nonneg_right hlow he.le
  · rw [add_right_comm, zpow_add₀ two_ne_zero, ← Nat.cast_succ, zpow_natCast]
    exact mul_lt_mul_of_pos_right hhigh he

/-- The exact magnitude stands in the binade that `roundMag` rounds in, or among the subnormals. -/
theorem Fmt.roundMag_binade (f : Fmt) (mode : RMode) {m : Nat} (hm : m ≠ 0) (e : Int) : let q := (f.roundMag mode m e).2
    f.emin ≤ q ∧ (m : ℚ) * 2 ^ e < 2 ^ (f.mw + 1) * 2 ^ q ∧ (q = f.emin ∨ 2 ^ f.mw * 2 ^ q ≤ (m : ℚ) * 2 ^ e) := by
  obtain ⟨hlow, hhigh⟩ := binade_le hm e
  dsimp only
  rw [f.roundMag_exp]
  set q := max ((Nat.log2 m : Int) + e - f.mw) f.emin with hq
  refine ⟨le_max_right _ _, hhigh.trans_le ?_, ?_⟩
  · rw [← zpow_natCast, ← zpow_add₀ two_ne_zero]
    exact zpow_le_zpow_right₀ one_le_two (by push_cast; omega)
  · rcases le_total ((Nat.log2 m : Int) + e - f.mw) f.emin with h | h
    · exact .inl (max_eq_right h)
    · refine .inr (le_trans (le_of_eq ?_) hlow)
      rw [← zpow_natCast, ← zpow_add₀ two_ne_zero]
      congr 1
      omega

/-- The rounded integer fills the mantissa, or stands among the subnormals; at most it reaches the next binade. -/
theorem Fmt.roundMag_le (f : Fmt) {m : Nat} (hm : m ≠ 0) (e : Int) : let p := f.roundMag .rne m e
    p.1 ≤ 2 ^ (f.mw + 1) ∧ (p.2 = f.emin ∨ 2 ^ f.mw ≤ p.1) := by
  have hhalf := f.roundMag_half m e
  obtain ⟨-, hhigh, hlow⟩ := f.roundMag_binade .rne hm e
  dsimp only at hhalf hhigh hlow ⊢
  generalize f.roundMag .rne m e = p at hhalf hhigh hlow
  obtain ⟨k, q⟩ := p
  have hu : (0 : ℚ) < 2 ^ q := by positivity
  obtain ⟨hleft, hright⟩ := abs_le.mp hhalf
  constructor
  · have hk : (k : ℚ) < 2 ^ (f.mw + 1) + 1 := by
      refine lt_of_mul_lt_mul_right ?_ hu.le
      push_cast at hleft
      linarith
    exact Nat.lt_succ_iff.mp (by exact_mod_cast hk)
  · refine hlow.imp_right fun hlow => ?_
    have hk : (2 : ℚ) ^ f.mw < k + 1 := by
      refine lt_of_mul_lt_mul_right ?_ hu.le
      push_cast at hright
      linarith
    exact Nat.lt_succ_iff.mp (by exact_mod_cast hk)

/-- No value that keeps to a format's precision and least exponent lies nearer to a magnitude than its RNE rounding. -/
theorem Fmt.roundMag_nearest (f : Fmt) {m : Nat} (hm : m ≠ 0) (e : Int) {n g : ℤ} (hn : |n| < 2 ^ (f.mw + 1))
    (hg : f.emin ≤ g) : let p := f.roundMag .rne m e
    |(m : ℚ) * 2 ^ e - (p.1 : ℤ) * 2 ^ p.2| ≤ |(m : ℚ) * 2 ^ e - n * 2 ^ g| := by
  have hhalf := f.roundMag_half m e
  obtain ⟨hmin, -, hlow⟩ := f.roundMag_binade .rne hm e
  dsimp only at hhalf hmin hlow ⊢
  generalize f.roundMag .rne m e = p at hhalf hmin hlow
  obtain ⟨k, q⟩ := p
  have hmult := abs_sub_mul_le_of_half (by positivity) hhalf
  rcases le_or_gt q g with hqg | hgq
  · have h := hmult (n * 2 ^ (g - q).toNat)
    push_cast at h ⊢
    rwa [mul_assoc (n : ℚ), two_pow_toNat_mul hqg] at h
  · have hlow := hlow.resolve_left (by dsimp only; omega)
    have hsmall : (n : ℚ) * 2 ^ g ≤ 2 ^ f.mw * 2 ^ q := calc
      (n : ℚ) * 2 ^ g ≤ 2 ^ (f.mw + 1) * 2 ^ g :=
        mul_le_mul_of_nonneg_right (by exact_mod_cast (le_abs_self n).trans hn.le) (by positivity)
      _ = 2 ^ f.mw * 2 ^ (g + 1) := by rw [pow_succ, zpow_add_one₀ two_ne_zero]; ring
      _ ≤ 2 ^ f.mw * 2 ^ q := mul_le_mul_of_nonneg_left (zpow_le_zpow_right₀ one_le_two hgq) (by positivity)
    have h := hmult (2 ^ f.mw)
    push_cast at h hlow ⊢
    rw [abs_of_nonneg (sub_nonneg.mpr hlow)] at h
    linarith [le_abs_self ((m : ℚ) * 2 ^ e - n * 2 ^ g)]

/-! ## The codes of a format -/

/-- The codes of the largest finite value and of infinity fit below the sign bit, infinity's above the other (R78, R79). -/
structure Fmt.Wf (f : Fmt) : Prop where
  max : f.maxCode < 2 ^ (f.mw + f.ew)
  inf : ∀ i, f.infCode = some i → f.maxCode < i ∧ i < 2 ^ (f.mw + f.ew)

theorem wf_of_mem_floatFormats : ∀ f ∈ floatFormats, f.Wf := by
  simp only [floatFormats, List.forall_mem_cons, List.not_mem_nil, false_imp_iff, implies_true, and_true]
  refine ⟨⟨?_, ?_⟩, ⟨?_, ?_⟩, ⟨?_, ?_⟩, ⟨?_, ?_⟩, ⟨?_, ?_⟩, ⟨?_, ?_⟩⟩ <;>
    simp [Fmt.fp32, Fmt.fp16, Fmt.bf16, Fmt.e4m3, Fmt.e5m2, Fmt.e2m1]

/-- Every finite value of a format keeps to its precision and its least exponent. -/
theorem Fmt.decode_fin_bounds {f : Fmt} {c m : Nat} {s : Bool} {e : Int} (h : f.decode c = .fin s m e) :
    m < 2 ^ (f.mw + 1) ∧ f.emin ≤ e := by
  have hm := bits_lt c 0 f.mw
  unfold Fmt.decode at h
  unfold Fmt.emin
  dsimp only at h
  split at h
  · split at h
    · obtain ⟨-, rfl, rfl⟩ := FVal.fin.inj h
      exact ⟨by omega, le_rfl⟩
    · obtain ⟨-, rfl, rfl⟩ := FVal.fin.inj h
      exact ⟨by omega, by omega⟩
  · split at h <;> cases h

/-- The fields of a magnitude's code with a sign. -/
theorem Fmt.fields_add_sign {f : Fmt} {c : Nat} (hc : c < 2 ^ (f.mw + f.ew)) (s : Bool) :
    bits (c + f.sign s) 0 f.mw = c % 2 ^ f.mw ∧ bits (c + f.sign s) f.mw f.ew = c / 2 ^ f.mw ∧
      bit (c + f.sign s) (f.mw + f.ew) = s ∧ bits (c + f.sign s) 0 (f.mw + f.ew) = c := by
  have hsign : f.sign s = 2 ^ (f.mw + f.ew) * b2n s := by cases s <;> simp [Fmt.sign, b2n]
  have hmag : bits (c + f.sign s) 0 (f.mw + f.ew) = c := by
    rw [hsign, bits_eq_div, pow_zero, Nat.div_one, Nat.add_mul_mod_self_left, Nat.mod_eq_of_lt hc]
  have hlow : (c + f.sign s) % 2 ^ (f.mw + f.ew) = c := by rwa [bits_eq_div, pow_zero, Nat.div_one] at hmag
  refine ⟨?_, ?_, ?_, hmag⟩
  · rw [bits_eq_div, pow_zero, Nat.div_one]
    conv_rhs => rw [← hlow]
    rw [Nat.mod_mod_of_dvd _ (Nat.pow_dvd_pow 2 (Nat.le_add_right _ _))]
  · rw [bits_eq_div, ← Nat.mod_mul_right_div_self, ← pow_add, hlow]
  · rw [bit_eq_div, hsign, Nat.add_mul_div_left _ _ (Nat.two_pow_pos _), Nat.div_eq_of_lt hc]
    cases s <;> simp [b2n]

/-- A code below the least normal one is that multiple of the least spacing (R78). -/
theorem Fmt.decode_subnormal {f : Fmt} (hf : f.Wf) {c : Nat} (hc : c ≤ f.maxCode) (hn : c < 2 ^ f.mw) (s : Bool) :
    f.decode (c + f.sign s) = .fin s c f.emin := by
  obtain ⟨hmant, hexp, hsign, hmag⟩ := fields_add_sign (hc.trans_lt hf.max) s
  simp only [Fmt.decode, hmant, hexp, hsign, hmag, if_pos hc, Nat.div_eq_of_lt hn, if_pos, Nat.mod_eq_of_lt hn, Fmt.emin]

/-- A code with exponent field n + 1 (R78). -/
theorem Fmt.decode_normal {f : Fmt} (hf : f.Wf) {n j : Nat} (hc : (n + 1) <<< f.mw + j ≤ f.maxCode) (hj : j < 2 ^ f.mw)
    (s : Bool) : f.decode ((n + 1) <<< f.mw + j + f.sign s) = .fin s (2 ^ f.mw + j) (f.emin + n) := by
  obtain ⟨hmant, hexp, hsign, hmag⟩ := fields_add_sign (hc.trans_lt hf.max) s
  have hdiv : ((n + 1) <<< f.mw + j) / 2 ^ f.mw = n + 1 := by
    rw [Nat.shiftLeft_eq, Nat.mul_comm, Nat.mul_add_div (Nat.two_pow_pos _), Nat.div_eq_of_lt hj, Nat.add_zero]
  have hmod : ((n + 1) <<< f.mw + j) % 2 ^ f.mw = j := by
    rw [Nat.shiftLeft_eq, Nat.mul_comm, Nat.mul_add_mod, Nat.mod_eq_of_lt hj]
  simp only [Fmt.decode, hmant, hexp, hsign, hmag, if_pos hc, hdiv, hmod, Nat.succ_ne_zero, if_false, Fmt.emin]
  congr 1
  push_cast
  ring

/-- The code of a rounded magnitude decodes to it: a subnormal, a normal value, or the least value of the next binade. -/
theorem Fmt.decode_magCode {f : Fmt} (hf : f.Wf) {k : Nat} {q : Int} (hq : f.emin ≤ q) (hk : k ≤ 2 ^ (f.mw + 1))
    (hsub : q = f.emin ∨ 2 ^ f.mw ≤ k) (hc : f.magCode k q ≤ f.maxCode) (s : Bool) :
    ∃ m e, f.decode (f.magCode k q + f.sign s) = .fin s m e ∧ ratOf s m e = ratOf s k q := by
  have hmin : 1 - (f.bias : Int) - f.mw = f.emin := rfl
  unfold Fmt.magCode at hc ⊢
  simp only [hmin] at hc ⊢
  obtain ⟨n, rfl⟩ := Int.le.dest hq
  rw [show (f.emin + n - f.emin + 1).toNat = n + 1 by omega, show (f.emin + n - f.emin + 2).toNat = n + 1 + 1 by omega] at *
  split at hc
  case isTrue hlt =>
    rw [if_pos hlt]
    exact ⟨_, _, decode_subnormal hf hc hlt s, by rw [hsub.resolve_right (by omega)]⟩
  case isFalse hge =>
    rw [if_neg hge]
    split at hc
    case isTrue hlt =>
      rw [if_pos hlt]
      exact ⟨_, _, decode_normal hf hc (by omega) s, by rw [Nat.add_sub_cancel' (by omega)]⟩
    case isFalse hnext =>
      rw [if_neg hnext]
      obtain rfl : k = 2 ^ (f.mw + 1) := by omega
      rw [show 2 ^ (f.mw + 1) / 2 - 2 ^ f.mw = 0 by omega] at hc ⊢
      refine ⟨_, _, decode_normal hf hc (Nat.two_pow_pos _) s, ?_⟩
      simp only [ratOf]
      push_cast
      rw [← add_assoc, zpow_add_one₀ two_ne_zero]
      ring

/-! ## Narrowing -/

/-- An infinity's code decodes to an infinity. -/
theorem Fmt.decode_inf {f : Fmt} (hf : f.Wf) {i : Nat} (hi : f.infCode = some i) (s : Bool) : f.decode (i + f.sign s) = .inf s := by
  obtain ⟨hmax, hfit⟩ := hf.inf i hi
  obtain ⟨-, -, hsign, hmag⟩ := fields_add_sign hfit s
  simp only [Fmt.decode, hsign, hmag, if_neg (Nat.not_le.mpr hmax), hi, if_true]

/-- Where RNE gives a finite value and saturates nothing, it writes the code of the rounded magnitude with the sign (R92). -/
theorem Fmt.encode_rne_finite {f : Fmt} (hf : f.Wf) {s s1 : Bool} {m m1 : Nat} {e e1 : Int} (hm : m ≠ 0)
    (hsat : (f.narrow .rne (.fin s m e)).sat = false) (hfin : f.decode (f.encode .rne (.fin s m e)) = .fin s1 m1 e1) :
    let c := f.magCode (f.roundMag .rne m e).1 (f.roundMag .rne m e).2
    c ≤ f.maxCode ∧ f.encode .rne (.fin s m e) = c + f.sign s := by
  rw [Fmt.encode] at hfin ⊢
  dsimp only
  by_cases hc : f.magCode (f.roundMag .rne m e).1 (f.roundMag .rne m e).2 ≤ f.maxCode
  · simp [Fmt.narrow, hc]
  · cases hi : f.infCode with
    | none => simp [Fmt.narrow, hc, hi] at hsat
    | some i =>
      by_cases hwide : 10 ≤ f.ew + f.mw
      · simp [Fmt.narrow, hc, hi, hwide, Fmt.decode_inf hf hi] at hfin
      · simp [Fmt.narrow, hc, hi, hwide] at hsat

theorem Fmt.encode_zero (f : Fmt) (mode : RMode) (s : Bool) (e : Int) : f.encode mode (.fin s 0 e) = f.sign s := rfl

theorem ratOf_not (s : Bool) (m : Nat) (e : Int) : ratOf (!s) m e = -ratOf s m e := by
  cases s <;> simp [ratOf]

/-- The finite value that RNE writes is the rounded magnitude with the sign of the exact value (R92). -/
theorem Fmt.decode_encode_rne {f : Fmt} (hf : f.Wf) {s s1 : Bool} {m m1 : Nat} {e e1 : Int} (hm : m ≠ 0)
    (hsat : (f.narrow .rne (.fin s m e)).sat = false) (hfin : f.decode (f.encode .rne (.fin s m e)) = .fin s1 m1 e1) :
    ratOf s1 m1 e1 = ratOf s (f.roundMag .rne m e).1 (f.roundMag .rne m e).2 := by
  obtain ⟨hmax, hcode⟩ := encode_rne_finite hf hm hsat hfin
  obtain ⟨hk, hsub⟩ := f.roundMag_le hm e
  obtain ⟨m', e', hdec, hrat⟩ := decode_magCode hf (f.roundMag_binade .rne hm e).1 hk hsub hmax s
  rw [hcode, hdec] at hfin
  obtain ⟨rfl, rfl, rfl⟩ := FVal.fin.inj hfin
  exact hrat

/-- No finite value of a format lies nearer to an exact value, of either sign, than its rounded magnitude with that sign. -/
theorem Fmt.ratOf_roundMag_nearest {f : Fmt} {m : Nat} (hm : m ≠ 0) (e : Int) {c m2 : Nat} {s2 : Bool} {e2 : Int}
    (hc : f.decode c = .fin s2 m2 e2) (s : Bool) :
    |ratOf s m e - ratOf s (f.roundMag .rne m e).1 (f.roundMag .rne m e).2| ≤ |ratOf s m e - ratOf s2 m2 e2| := by
  obtain ⟨hprec, hexp⟩ := decode_fin_bounds hc
  have hpos (t : Bool) : |ratOf false m e - ratOf false (f.roundMag .rne m e).1 (f.roundMag .rne m e).2| ≤
      |ratOf false m e - ratOf t m2 e2| := by
    have hn : |(if t then -1 else 1) * (m2 : ℤ)| < 2 ^ (f.mw + 1) := by
      cases t <;> simp <;> exact_mod_cast hprec
    simpa [ratOf] using f.roundMag_nearest hm e hn hexp
  cases s with
  | false => exact hpos s2
  | true =>
    have h := hpos (!s2)
    rw [ratOf_not, sub_neg_eq_add] at h
    rwa [← Bool.not_false, ratOf_not, ratOf_not, neg_sub_neg, abs_sub_comm, ← neg_add', abs_neg]

/-- Settles O7: what RNE writes is the rounded magnitude with the sign, and that is nearest among the values of the format. -/
theorem roundToNearestIsNearest : Obligations.RoundToNearestIsNearest := by
  unfold Obligations.RoundToNearestIsNearest
  intro f hf s m e s1 m1 e1 hsat hfin c s2 m2 e2 hc
  have hwf := wf_of_mem_floatFormats f hf
  rcases eq_or_ne m 0 with rfl | hm
  · rw [Fmt.encode_zero, ← Nat.zero_add (f.sign s), Fmt.decode_subnormal hwf (Nat.zero_le _) (Nat.two_pow_pos _)] at hfin
    obtain ⟨rfl, rfl, rfl⟩ := FVal.fin.inj hfin
    simp [ratOf]
  · rw [Fmt.decode_encode_rne hwf hm hsat hfin]
    exact Fmt.ratOf_roundMag_nearest hm e hc s

end Sys2Proof.Machine
end

section
/-!
O6: the FP32, packed 16-bit and special-function rows (R103, R185, R186) are vector rows, and a vector row writes DST of each active
thread.
-/
namespace Sys2Proof.Machine
open Sys2Proof.Claims

/-- Writing a v register of a slot in the threads of a mask. -/
theorem wroteRow_setVs (k : Core) (slot row : Nat) (mask : Word) (f : Nat → Word) (hr : row < 64) :
    WroteRow k (k.setVs slot row mask f) slot row mask f := by
  refine ⟨Core.setVs_eq .., fun n hn hm => ?_, fun sl r n hr' hn hne => ?_⟩
  · rw [Core.setVs_v k mask f hr hr hn, if_pos ⟨rfl, rfl, hm⟩]
  · rw [Core.setVs_v k mask f hr hr' hn, if_neg hne]

/-- The DST of a vector row with legal operands is a v register (R185). -/
theorem isV_dst_of_vArgsR {f : RFields} {useB useC : Bool} {used : Nat} (h : (vArgsR f useB useC used).illegal = false) :
    isV f.dst = true := by
  simp only [vArgsR, Bool.or_eq_false_iff, Bool.not_eq_false'] at h
  obtain ⟨⟨⟨⟨hdst, -⟩, -⟩, -⟩, -⟩ := h
  exact hdst

/-- The same for a row with both forms (R187). -/
theorem isV_dst_of_vArgs {f : RIForm} {useC : Bool} {used : Nat} (h : (vArgs f useC used).illegal = false) :
    isV (vArgs f useC used).dst = true := by
  cases f with
  | r f => exact isV_dst_of_vArgsR h
  | i f =>
    simp only [vArgs, vArgsI, Bool.or_eq_false_iff, Bool.not_eq_false'] at h
    exact h.1

/-- A vector row that may issue, with DST a v register, writes its result to DST of each active thread. -/
theorem vecRun_done {s : State} {g : GroupRef} {v : VArgs} (op : Word → Word → Word → Word) (hv : v.illegal = false)
    (hd : isV v.dst = true) (hr : Ready s g v.regs) : ∃ t, vecRun s g v false op = .next t ∧
      VecDone s t g v.dst v.guard fun n => op (val s g v.a n) (val s g v.b n) (val s g v.c n) := by
  obtain ⟨hi, hw⟩ := hr
  exact ⟨_, vecRun_acts hv hi hw, _, wroteRow_setVs _ _ _ _ _ (regNo_lt_of_isV hd), rfl⟩

/-- A row of `floatRow` runs as the vector row of its operands and its result. -/
theorem exec_floatRow {i : Instr} {g : GroupRef} {v : VArgs} {bad : Bool} {op : Word → Word → Word → Word}
    (h : floatRow i = some (g, v, bad, op)) (s : State) :
    exec i s = vecRun s g v bad op ∧ (v.illegal = false → isV v.dst = true) := by
  unfold floatRow at h
  split at h <;> cases h
  case h_1 | h_3 | h_4 | h_5 | h_6 => exact ⟨rfl, isV_dst_of_vArgs⟩
  all_goals exact ⟨rfl, isV_dst_of_vArgsR⟩

/-- Settles O6: each row runs as a vector row, which writes DST of each active thread. -/
theorem vectorFloatResults : Obligations.VectorFloatResults := by
  unfold Obligations.VectorFloatResults
  rintro i g v bad op s hrow hv rfl hr
  obtain ⟨hexec, hdst⟩ := exec_floatRow hrow s
  rw [hexec]
  exact vecRun_done op hv (hdst hv) hr

end Sys2Proof.Machine
end

section
/-!
O8: the conversion rows (R88 to R94, R188, R189). A conversion that completes leaves a core with new registers and its group at the
next instruction with one conversion more (`Converted`); memory is as before, since the counters of R106 are objects.
-/
namespace Sys2Proof.Machine
open Sys2Proof.Claims

/-! ## What every conversion leaves -/

/-- Memory is as before, and the group's core is `k` with the group at its next instruction and one conversion more (R182, R189). -/
def Converted (s t : State) (g : GroupRef) (k : Core) : Prop :=
  ∃ u : State, u.mem = s.mem ∧ t = u.setCore g.core (k.setGroup g.slot (grp s g).converted.advance)

theorem Converted.counts {s t : State} {g : GroupRef} {k : Core} (h : Converted s t g k) :
    (grp t g).pc = (grp s g).pc + 1 ∧ (grp t g).conv = (grp s g).conv + 1 := by
  obtain ⟨u, -, rfl⟩ := h
  rw [grp, State.core_setCore_same, Core.group_setGroup_same]
  exact ⟨rfl, rfl⟩

theorem Converted.mem {s t : State} {g : GroupRef} {k : Core} (h : Converted s t g k) : t.mem = s.mem := by
  obtain ⟨u, hu, rfl⟩ := h
  exact hu

theorem Converted.v {s t : State} {g : GroupRef} {k : Core} (h : Converted s t g k) (sl r n : Nat) :
    (t.core g.core).v sl r n = k.v sl r n := by
  obtain ⟨u, -, rfl⟩ := h
  rw [State.core_setCore_same, Core.v_setGroup]

/-- The core after a conversion has written DST of each active thread. -/
abbrev convRow (s : State) (g : GroupRef) (f : RFields) (x : Nat → Word) : Core :=
  (s.core g.core).setVs g.slot (regNo f.dst) (emask s g f.guard) x

/-- A conversion that writes DST alone leaves every other register as it was. -/
theorem Converted.row {s t : State} {g : GroupRef} {f : RFields} {x : Nat → Word} (h : Converted s t g (convRow s g f x))
    (hd : isV f.dst = true) :
    (∀ n, n < 32 ∧ (emask s g f.guard).getLsbD n = true → (t.core g.core).v g.slot (regNo f.dst) n = x n) ∧
    ∀ sl r n, r < 64 → n < 32 → ¬(sl = g.slot.val ∧ r = regNo f.dst ∧ n < 32 ∧ (emask s g f.guard).getLsbD n = true) →
      ¬False → (t.core g.core).v sl r n = (s.core g.core).v sl r n := by
  have hrow := regNo_lt_of_isV hd
  refine ⟨fun n hn => ?_, fun sl r n hr hn hne _ => ?_⟩
  · rw [h.v, Core.setVs_v _ _ _ hrow hrow hn.1, if_pos ⟨rfl, rfl, hn.2⟩]
  · rw [h.v, Core.setVs_v _ _ _ hrow hr hn, if_neg fun hw => hne ⟨hw.1, hw.2.1, hn, hw.2.2⟩]

theorem regNo_lt_of_isU {spec : BitVec 7} (h : isU spec = true) : regNo spec < 32 := by
  revert h
  revert spec
  decide

/-- A register-file word after a write of a uniform register (R109). -/
theorem Core.v_setU (k : Core) {slot m sl r n : Nat} (w : Word) (hm : m < 32) (hr : r < 64) (hn : n < 32) :
    (k.setU slot m w).v sl r n = if sl = slot ∧ r = 63 ∧ n = m then w else k.v sl r n :=
  Core.v_setV k w (by decide) hm hr hn

/-- A conversion that writes DST and then a scale: the scale wins where DST is v63 and the two share a word. -/
theorem Converted.block {s t : State} {g : GroupRef} {f : RFields} {x : Nat → Word} {m : Nat} {w : Word}
    (h : Converted s t g ((convRow s g f x).setU g.slot m w)) (hd : isV f.dst = true) (hm : m < 32) :
    (t.core g.core).u g.slot m = w ∧
    (∀ n, n < 32 ∧ (emask s g f.guard).getLsbD n = true → ¬(regNo f.dst = 63 ∧ n = m) →
      (t.core g.core).v g.slot (regNo f.dst) n = x n) ∧
    ∀ sl r n, r < 64 → n < 32 → ¬(sl = g.slot.val ∧ r = regNo f.dst ∧ n < 32 ∧ (emask s g f.guard).getLsbD n = true) →
      ¬(sl = g.slot.val ∧ r = 63 ∧ n = m) → (t.core g.core).v sl r n = (s.core g.core).v sl r n := by
  have hrow := regNo_lt_of_isV hd
  refine ⟨?_, fun n hn hne => ?_, fun sl r n hr hn hdst hscale => ?_⟩
  · rw [Core.u, h.v, Core.v_setU _ _ hm (by decide) hm, if_pos ⟨rfl, rfl, rfl⟩]
  · rw [h.v, Core.v_setU _ _ hm hrow hn.1, if_neg fun hw => hne hw.2, Core.setVs_v _ _ _ hrow hrow hn.1, if_pos ⟨rfl, rfl, hn.2⟩]
  · rw [h.v, Core.v_setU _ _ hm hr hn, if_neg hscale, Core.setVs_v _ _ _ hrow hr hn, if_neg fun hw => hdst ⟨hw.1, hw.2.1, hn, hw.2.2⟩]

@[simp] theorem countConv_mem (s : State) (core sat nan0 nonfinite : Nat) : (countConv s core sat nan0 nonfinite).mem = s.mem := by
  unfold countConv
  split <;> split <;> split <;> rfl

/-- A legal conversion of a group that may issue completes with what its row does. -/
theorem issue_converts {s u : State} {g : GroupRef} {illegal format : Bool} {regs : List (BitVec 7)} {k : Core}
    {act : State → Core → Group → Effect} (hl : illegal = false) (hf : format = false) (hr : Ready s g regs)
    (hact : act s (s.core g.core) (grp s g) = .go u k (grp s g).converted.advance) (hu : u.mem = s.mem) :
    ∃ t, issue s g (firstFault illegal format) regs act = .next t ∧ Converted s t g k := by
  subst hl hf
  refine ⟨_, issue_acts hr.1 hr.2, u, hu, ?_⟩
  rw [hact]
  rfl

/-! ## The rows -/

/-- cvt without SCALED writes the narrowed values (R188). -/
theorem cvt_converts {g : GroupRef} {f : RFields} {s : State} (hs : vcScaled f = false)
    (hr : Ready s g (vArgsR f false false 0x7F).regs) (hl : (vArgsR f false false 0x7F).illegal = false) (hfmt : vcFmt f ≠ 0)
    (hallow : scaleAllowed (vcFmt f) false = true) (hround : vcRound f ≠ 3) :
    ∃ t, exec (.cvt g f) s = .next t ∧ Converted s t g (convRow s g f fun n => BitVec.ofNat 32 (narrowTo (vcFmt f)
      (rmode (vcRound f) (laneDraw (s.core g.core) g.core (grp s g) n)) (Fmt.fp32.decode (val s g (.reg f.sa) n).toNat)).code) := by
  change ∃ t, execCvt g f s = .next t ∧ _
  unfold execCvt
  rw [hs]
  exact issue_converts (by simp [hl]) (by simp [hfmt, hallow, hround]) (by simpa using hr) rfl (countConv_mem ..)

/-- The block of a scaled cvt, as scale on store gives it (R93, R94). -/
abbrev cvtOut (s : State) (g : GroupRef) (f : RFields) : BlockOut :=
  blockStore (vcFmt f) (fun n => rmode (vcRound f) (laneDraw (s.core g.core) g.core (grp s g) n))
    (cvtBlock (s.core g.core) (grp s g) g.slot (vArgsR f false false 0x7F))

/-- cvt with SCALED writes the elements of its block, and then the scale (R182, R188). -/
theorem cvt_converts_block {g : GroupRef} {f : RFields} {s : State} (hs : vcScaled f = true)
    (hr : Ready s g ((vArgsR f false false 0x7F).regs ++ [f.sc])) (hl : (vArgsR f false false 0x7F).illegal = false)
    (hu : isU f.sc = true) (hfmt : vcFmt f ≠ 0) (hallow : scaleAllowed (vcFmt f) true = true) (hround : vcRound f ≠ 3) :
    ∃ t, exec (.cvt g f) s = .next t ∧ Converted s t g ((convRow s g f fun n => BitVec.ofNat 32
      ((cvtOut s g f).elems.getD n ⟨0, false, false⟩).code).setU g.slot (regNo f.sc) (BitVec.ofNat 32 (cvtOut s g f).scale)) := by
  have hmem (u : State) : (if (cvtOut s g f).nonfinite then countConv u g.core 0 0 1 else u).mem = u.mem := by
    split
    · exact countConv_mem ..
    · rfl
  change ∃ t, execCvt g f s = .next t ∧ _
  unfold execCvt
  rw [hs]
  exact issue_converts (by simp [hl, hu]) (by simp [hfmt, hallow, hround]) (by simpa using hr) rfl
    ((hmem _).trans (countConv_mem ..))

/-- cvtw writes the widened elements (R188). -/
theorem cvtw_converts {g : GroupRef} {f : RFields} {s : State}
    (hr : Ready s g ((vArgsR f false false 0x7F).regs ++ (if vcScaled f then [f.sb] else [])))
    (hl : (vArgsR f false false 0x7F).illegal = false) (hu : vcScaled f = true → isU f.sb = true) (hfmt : vcFmt f ≠ 0)
    (hallow : scaleAllowed (vcFmt f) (vcScaled f) = true) (hround : vcRound f = 0) :
    ∃ t, exec (.cvtw g f) s = .next t ∧ Converted s t g (convRow s g f fun n => BitVec.ofNat 32 (widen (vcFmt f)
      (if vcScaled f then some (((s.core g.core).u g.slot (regNo f.sb)).toNat % 256) else none) (val s g (.reg f.sa) n).toNat)) := by
  change ∃ t, execCvtw g f s = .next t ∧ _
  unfold execCvtw
  exact issue_converts (by simpa [hl] using hu) (by simp [hfmt, hallow, hround]) hr rfl rfl

/-- cvtp writes the two narrowed halves, each with its own draw (R89, R189). -/
theorem cvtp_converts {g : GroupRef} {f : RFields} {s : State} (hr : Ready s g (vArgsR f true false 0x7F).regs)
    (hl : (vArgsR f true false 0x7F).illegal = false) (hfmt : vcFmt f = 1 ∨ vcFmt f = 2) (hs : vcScaled f = false)
    (hround : vcRound f ≠ 3) :
    ∃ t, exec (.cvtp g f) s = .next t ∧ Converted s t g (convRow s g f fun n => BitVec.ofNat 32
      ((narrowTo (vcFmt f) (rmode (vcRound f) (laneDraw (s.core g.core) g.core (grp s g) (2 * n)))
          (Fmt.fp32.decode (val s g (.reg f.sa) n).toNat)).code +
        2 ^ 16 * (narrowTo (vcFmt f) (rmode (vcRound f) (laneDraw (s.core g.core) g.core (grp s g) (2 * n + 1)))
          (Fmt.fp32.decode (val s g (.reg f.sb) n).toNat)).code)) := by
  change ∃ t, execCvtp g f s = .next t ∧ _
  unfold execCvtp
  exact issue_converts hl (by rcases hfmt with h | h <;> simp [h, hs, hround]) hr rfl (countConv_mem ..)

/-- The half of a word that HIGH chooses (R188). -/
theorem bits_half (high : Bool) (a : Nat) : bits a (if high then 16 else 0) 16 = a / (if high then 65536 else 1) % 65536 := by
  rw [bits_eq_div]
  cases high <;> rfl

/-- cvtu writes the widened half (R188). -/
theorem cvtu_converts {g : GroupRef} {f : RFields} {s : State} (hr : Ready s g (vArgsR f false false 0xFF).regs)
    (hl : (vArgsR f false false 0xFF).illegal = false) (hfmt : vcFmt f = 1 ∨ vcFmt f = 2) (hs : vcScaled f = false)
    (hround : vcRound f = 0) :
    ∃ t, exec (.cvtu g f) s = .next t ∧ Converted s t g (convRow s g f fun n => BitVec.ofNat 32
      (widen (vcFmt f) none ((val s g (.reg f.sa) n).toNat / (if vcHigh f then 65536 else 1) % 65536))) := by
  simp only [← bits_half]
  change ∃ t, execCvtu g f s = .next t ∧ _
  unfold execCvtu
  exact issue_converts hl (by rcases hfmt with h | h <;> simp [h, hs, hround]) hr rfl rfl

/-- cvti writes the integer rounded to FP32 (R188). -/
theorem cvti_converts {g : GroupRef} {f : RFields} {s : State} (hr : Ready s g (vArgsR f false false 0x7F).regs)
    (hl : (vArgsR f false false 0x7F).illegal = false) (hfmt : vcFmt f = 0) (hs : vcScaled f = false) (hround : vcRound f < 2) :
    ∃ t, exec (.cvti g f) s = .next t ∧ Converted s t g (convRow s g f fun n => BitVec.ofNat 32
      (Fmt.fp32.encode (rmode (vcRound f) 0) (FVal.ofInt (val s g (.reg f.sa) n).toInt))) := by
  change ∃ t, execCvti g f s = .next t ∧ _
  unfold execCvti
  exact issue_converts hl (by simp [hfmt, hs, hround]) hr rfl rfl

/-! ## The obligation -/

/-- Settles O8, row by row: `Converted.row` for the rows that write DST alone, `Converted.block` for the scaled cvt. -/
theorem conversionResults : Obligations.ConversionResults := by
  unfold Obligations.ConversionResults
  intro g f s k conv active keeps
  refine ⟨fun hr hl hu hfmt hallow hround => ?cvt, fun hr hl hu hfmt hallow hround => ?cvtw, fun hr hl hfmt hs hround => ?cvtp,
    fun hr hl hfmt hs hround => ?cvtu, fun hr hl hfmt hs hround => ?cvti⟩
  case cvt =>
    have hd := isV_dst_of_vArgsR hl
    cases hs : vcScaled f with
    | false =>
      rw [hs] at hr hallow
      obtain ⟨t, hexec, ht⟩ := cvt_converts hs (by simpa using hr) hl hfmt hallow hround
      exact ⟨t, hexec, ht.counts, ht.mem, ht.row hd⟩
    | true =>
      rw [hs] at hr hallow
      obtain ⟨t, hexec, ht⟩ := cvt_converts_block hs hr hl (hu hs) hfmt hallow hround
      exact ⟨t, hexec, ht.counts, ht.mem, ht.block hd (regNo_lt_of_isU (hu hs))⟩
  case cvtw =>
    obtain ⟨t, hexec, ht⟩ := cvtw_converts hr hl hu hfmt hallow hround
    exact ⟨t, hexec, ht.counts, ht.mem, ht.row (isV_dst_of_vArgsR hl)⟩
  case cvtp =>
    obtain ⟨t, hexec, ht⟩ := cvtp_converts hr hl hfmt hs hround
    exact ⟨t, hexec, ht.counts, ht.mem, ht.row (isV_dst_of_vArgsR hl)⟩
  case cvtu =>
    obtain ⟨t, hexec, ht⟩ := cvtu_converts hr hl hfmt hs hround
    exact ⟨t, hexec, ht.counts, ht.mem, ht.row (isV_dst_of_vArgsR hl)⟩
  case cvti =>
    obtain ⟨t, hexec, ht⟩ := cvti_converts hr hl hfmt hs hround
    exact ⟨t, hexec, ht.counts, ht.mem, ht.row (isV_dst_of_vArgsR hl)⟩

end Sys2Proof.Machine
end

section
/-!
O2, O3, O4: decoder and encoder of the instruction words (R175, R180 to R184). The word of each format is the concatenation of its major,
its function code and its fields, so the fields of a word (`rFields` …) and the word of its fields (`encR` …) are inverse to each other;
and each table of function codes (`decVF` …) is read back by the encoder.
-/
namespace Sys2Proof

/-!
## The word of fields gives its fields

For each format: a field of the word is a field of the concatenation (`field_encR` …), and so the word's major, its function code and its
fields are those it was put together from (`encR_read` …).
-/

@[simp] theorem oneBit_beq_one (b : Bool) : (oneBit b == 1#1) = b := by cases b <;> rfl

theorem field_encR (maj func : Nat) (f : RFields) (lo len : Nat) : field (encR maj func f) lo len =
    (BitVec.ofNat 6 maj ++ f.guard ++ f.dst ++ f.sa ++ f.sb ++ f.sc ++ BitVec.ofNat 9 func ++ f.mod).extractLsb' lo len := rfl

theorem encR_read (maj func : Nat) (f : RFields) : field (encR maj func f) 58 6 = BitVec.ofNat 6 maj ∧
    field (encR maj func f) 16 9 = BitVec.ofNat 9 func ∧
    rFields (encR maj func f) = f := by
  simp (disch := decide) only [rFields, field_encR, BitVec.extractLsb'_append_eq_of_add_le,
    BitVec.extractLsb'_append_eq_of_le, Nat.reduceSub, BitVec.extractLsb'_eq_self]
  simp

theorem field_encI (maj func : Nat) (f : IFields) (lo len : Nat) : field (encI maj func f) lo len =
    (BitVec.ofNat 6 maj ++ f.guard ++ f.dst ++ f.sa ++ BitVec.ofNat 7 func ++ f.imm).extractLsb' lo len := rfl

theorem encI_read (maj func : Nat) (f : IFields) : field (encI maj func f) 58 6 = BitVec.ofNat 6 maj ∧
    field (encI maj func f) 32 7 = BitVec.ofNat 7 func ∧
    iFields (encI maj func f) = f := by
  simp (disch := decide) only [iFields, field_encI, BitVec.extractLsb'_append_eq_of_add_le,
    BitVec.extractLsb'_append_eq_of_le, Nat.reduceSub, BitVec.extractLsb'_eq_self]
  simp

theorem field_encM (maj dir : Nat) (f : MFields) (lo len : Nat) : field (encM maj dir f) lo len =
    (BitVec.ofNat 6 maj ++ f.guard ++ f.data ++ f.addr ++ f.hi ++ BitVec.ofNat 1 dir ++ f.width ++ encAttrs f.attrs ++
      f.offset).extractLsb' lo len := rfl

theorem encM_read (maj dir : Nat) (f : MFields) : field (encM maj dir f) 58 6 = BitVec.ofNat 6 maj ∧
    field (encM maj dir f) 35 1 = BitVec.ofNat 1 dir ∧
    mFields (encM maj dir f) = f := by
  simp (disch := decide) only [mFields, attrsOf, field_encM, encAttrs, BitVec.extractLsb'_append_eq_of_add_le,
    BitVec.extractLsb'_append_eq_of_le, Nat.reduceSub, BitVec.extractLsb'_eq_self]
  simp

theorem field_encA (op : Nat) (f : AFields) (lo len : Nat) : field (encA op f) lo len =
    (BitVec.ofNat 6 0x12 ++ f.guard ++ f.data ++ f.addr ++ oneBit f.ret ++ BitVec.ofNat 6 op ++ encAttrs f.attrs ++
      f.offset).extractLsb' lo len := rfl

theorem encA_read (op : Nat) (f : AFields) : field (encA op f) 58 6 = 0x12 ∧
    field (encA op f) 32 6 = BitVec.ofNat 6 op ∧
    aFields (encA op f) = f := by
  simp (disch := decide) only [aFields, attrsOf, field_encA, encAttrs, BitVec.extractLsb'_append_eq_of_add_le,
    BitVec.extractLsb'_append_eq_of_le, Nat.reduceSub, BitVec.extractLsb'_eq_self]
  simp

theorem field_encX (xfunc : Nat) (f : XFields) (lo len : Nat) : field (encX xfunc f) lo len =
    (BitVec.ofNat 6 0x18 ++ f.guard ++ BitVec.ofNat 7 xfunc ++ f.kt ++ f.tile ++ f.da ++ f.db ++ f.pd ++
      f.rsvd).extractLsb' lo len := rfl

theorem encX_read (xfunc : Nat) (f : XFields) : field (encX xfunc f) 58 6 = 0x18 ∧
    field (encX xfunc f) 46 7 = BitVec.ofNat 7 xfunc ∧
    xFields (encX xfunc f) = f := by
  simp (disch := decide) only [xFields, field_encX, BitVec.extractLsb'_append_eq_of_add_le,
    BitVec.extractLsb'_append_eq_of_le, Nat.reduceSub, BitVec.extractLsb'_eq_self]
  simp

theorem field_encD (f : DFields) (lo len : Nat) : field (encD f) lo len =
    (BitVec.ofNat 6 0x19 ++ f.guard ++ f.dst ++ f.sa ++ f.func ++ f.imm).extractLsb' lo len := rfl

theorem encD_read (f : DFields) : field (encD f) 58 6 = 0x19 ∧
    dFields (encD f) = f := by
  simp (disch := decide) only [dFields, field_encD, BitVec.extractLsb'_append_eq_of_add_le,
    BitVec.extractLsb'_append_eq_of_le, Nat.reduceSub, BitVec.extractLsb'_eq_self]
  simp

theorem field_encB (xfunc : Nat) (f : BFields) (lo len : Nat) : field (encB xfunc f) lo len =
    (BitVec.ofNat 6 0x20 ++ f.guard ++ BitVec.ofNat 7 xfunc ++ f.ps ++ f.ta ++ f.tb ++ f.rsvd).extractLsb' lo len := rfl

theorem encB_read (xfunc : Nat) (f : BFields) : field (encB xfunc f) 58 6 = 0x20 ∧
    field (encB xfunc f) 46 7 = BitVec.ofNat 7 xfunc ∧
    bFields (encB xfunc f) = f := by
  simp (disch := decide) only [bFields, field_encB, BitVec.extractLsb'_append_eq_of_add_le,
    BitVec.extractLsb'_append_eq_of_le, Nat.reduceSub, BitVec.extractLsb'_eq_self]
  simp
/-! ## The fields of a word give the word -/

@[simp] theorem oneBit_field (w : IWord) (lo : Nat) : oneBit (field w lo 1 == 1) = field w lo 1 := by
  generalize field w lo 1 = x
  revert x
  decide

/-- The field above another joins it. -/
theorem field_append_field (w : IWord) {hi lo n m : Nat} (h : hi = lo + m) :
    field w hi n ++ field w lo m = field w lo (n + m) :=
  BitVec.extractLsb'_append_extractLsb'_eq_extractLsb' h

theorem field_all (w : IWord) : field w 0 64 = w := BitVec.extractLsb'_eq_self

theorem ofNat_field {w : IWord} {lo len n : Nat} (h : (field w lo len).toNat = n) : BitVec.ofNat len n = field w lo len := by
  rw [← h, BitVec.ofNat_toNat, BitVec.setWidth_eq]

theorem encR_rFields {w : IWord} {maj func : Nat} (hm : (field w 58 6).toNat = maj) (hf : (field w 16 9).toNat = func) :
    encR maj func (rFields w) = w := by
  simp only [encR, rFields, ofNat_field hm, ofNat_field hf, field_append_field]
  exact field_all w

theorem encM_mFields {w : IWord} {maj dir : Nat} (hm : (field w 58 6).toNat = maj) (hd : (field w 35 1).toNat = dir) :
    encM maj dir (mFields w) = w := by
  simp only [encM, encAttrs, mFields, attrsOf, oneBit_field, ofNat_field hm, ofNat_field hd, field_append_field]
  exact field_all w

theorem encI_iFields {w : IWord} {maj func : Nat} (hm : (field w 58 6).toNat = maj) (hf : (field w 32 7).toNat = func) :
    encI maj func (iFields w) = w := by
  simp only [encI, iFields, ofNat_field hm, ofNat_field hf, field_append_field]
  exact field_all w

theorem encA_aFields {w : IWord} (hm : (field w 58 6).toNat = 0x12) : encA (field w 32 6).toNat (aFields w) = w := by
  simp only [encA, encAttrs, aFields, attrsOf, oneBit_field, ofNat_field hm, ofNat_field rfl, field_append_field]
  exact field_all w

theorem encX_xFields {w : IWord} (hm : (field w 58 6).toNat = 0x18) : encX (field w 46 7).toNat (xFields w) = w := by
  simp only [encX, xFields, ofNat_field hm, ofNat_field rfl, field_append_field]
  exact field_all w

theorem encD_dFields {w : IWord} (hm : (field w 58 6).toNat = 0x19) : encD (dFields w) = w := by
  simp only [encD, dFields, ofNat_field hm, field_append_field]
  exact field_all w

theorem encB_bFields {w : IWord} (hm : (field w 58 6).toNat = 0x20) : encB (field w 46 7).toNat (bFields w) = w := by
  simp only [encB, bFields, ofNat_field hm, ofNat_field rfl, field_append_field]
  exact field_all w

/-! ## The tables of function codes -/

/-- What the function codes of the majors of the R format spell (R183, R184). -/
def decR (g : GroupRef) (maj func : Nat) (f : RFields) : Option Instr :=
  match maj with
  | 0x1 => decVF g func f
  | 0x3 => decVH g func f
  | 0x4 => decVI g func f
  | 0x6 => decVC g func f
  | 0x7 => decVP g func f
  | 0x8 => decSF g func f
  | 0x9 => decSC g func f
  | 0xb => decMOV g func f
  | 0x21 => decCTL g func f
  | 0x22 => decINBOX g func f
  | _ => none

/-- What the function codes of the majors of the I format spell (R183, R187, R191). -/
def decI (g : GroupRef) (maj func : Nat) (f : IFields) : Option Instr :=
  match maj with
  | 0x2 => decVFI g func f
  | 0x5 => decVII g func f
  | 0xa => decSCI g func f
  | _ => none

/-- What the majors of loads, stores and transfers spell; MFUNC[3] is the direction (R193, R196, R199). -/
def decM (g : GroupRef) (maj : Nat) (dir : BitVec 1) (f : MFields) : Option Instr :=
  match maj with
  | 0x10 => if dir = 0 then some (.ldlLoad g f) else some (.ldlStore g f)
  | 0x11 => if dir = 0 then some (.ldgLoad g f) else some (.ldgStore g f)
  | 0x13 => if dir = 0 then some (.xferIn g f) else some (.xferOut g f)
  | _ => none

/-! ## Decoding a word of fields -/

theorem decodeIWord_encR {g : GroupRef} {maj func : Nat} {f : RFields}
    (hm : maj ∈ [0x1, 0x3, 0x4, 0x6, 0x7, 0x8, 0x9, 0xb, 0x21, 0x22]) (hf : func < 512) :
    decodeIWord g (encR maj func f) = decR g maj func f := by
  obtain ⟨hmaj, hfunc, hfields⟩ := encR_read maj func f
  have hcode : (BitVec.ofNat 9 func).toNat = func := Nat.mod_eq_of_lt hf
  simp only [List.mem_cons, List.not_mem_nil, or_false] at hm
  simp only [decodeIWord, hmaj, hfunc, hfields, hcode]
  rcases hm with rfl | rfl | rfl | rfl | rfl | rfl | rfl | rfl | rfl | rfl <;> rfl

theorem decodeIWord_encI {g : GroupRef} {maj func : Nat} {f : IFields} (hm : maj ∈ [0x2, 0x5, 0xa]) (hf : func < 128) :
    decodeIWord g (encI maj func f) = decI g maj func f := by
  obtain ⟨hmaj, hfunc, hfields⟩ := encI_read maj func f
  have hcode : (BitVec.ofNat 7 func).toNat = func := Nat.mod_eq_of_lt hf
  simp only [List.mem_cons, List.not_mem_nil, or_false] at hm
  simp only [decodeIWord, hmaj, hfunc, hfields, hcode]
  rcases hm with rfl | rfl | rfl <;> rfl

theorem decodeIWord_encM {g : GroupRef} {maj dir : Nat} {f : MFields} (hm : maj ∈ [0x10, 0x11, 0x13]) :
    decodeIWord g (encM maj dir f) = decM g maj (BitVec.ofNat 1 dir) f := by
  obtain ⟨hmaj, hdir, hfields⟩ := encM_read maj dir f
  simp only [List.mem_cons, List.not_mem_nil, or_false] at hm
  simp only [decodeIWord, hmaj, hdir, hfields]
  rcases hm with rfl | rfl | rfl <;> rfl

theorem decodeIWord_encA {g : GroupRef} {op : Nat} {f : AFields} (ho : op < 64) :
    decodeIWord g (encA op f) = decATOM g op f := by
  obtain ⟨hmaj, hop, hfields⟩ := encA_read op f
  have hcode : (BitVec.ofNat 6 op).toNat = op := Nat.mod_eq_of_lt ho
  simp only [decodeIWord, hmaj, hop, hfields, hcode]
  rfl

theorem decodeIWord_encX {g : GroupRef} {xfunc : Nat} {f : XFields} (hx : xfunc < 128) :
    decodeIWord g (encX xfunc f) = decMX g xfunc f := by
  obtain ⟨hmaj, hfunc, hfields⟩ := encX_read xfunc f
  have hcode : (BitVec.ofNat 7 xfunc).toNat = xfunc := Nat.mod_eq_of_lt hx
  simp only [decodeIWord, hmaj, hfunc, hfields, hcode]
  rfl

theorem decodeIWord_encB {g : GroupRef} {xfunc : Nat} {f : BFields} (hx : xfunc < 128) :
    decodeIWord g (encB xfunc f) = decBR g xfunc f := by
  obtain ⟨hmaj, hfunc, hfields⟩ := encB_read xfunc f
  have hcode : (BitVec.ofNat 7 xfunc).toNat = xfunc := Nat.mod_eq_of_lt hx
  simp only [decodeIWord, hmaj, hfunc, hfields, hcode]
  rfl

theorem decodeIWord_encD {g : GroupRef} {f : DFields} : decodeIWord g (encD f) = some (.dwr g f) := by
  obtain ⟨hmaj, hfields⟩ := encD_read f
  simp only [decodeIWord, hmaj, hfields]
  rfl

/-! ## Encoding what a table spells -/

theorem encodeIWord_decR {g : GroupRef} {maj func : Nat} {f : RFields} {i : Instr} (h : decR g maj func f = some i) :
    encodeIWord i = some (encR maj func f) ∧ instrGroup i = some g := by
  simp only [decR, decVF, decVH, decVI, decVC, decVP, decSF, decSC, decMOV, decCTL, decINBOX] at h
  split at h
  case h_11 => cases h
  all_goals split at h <;> cases h <;> exact ⟨rfl, rfl⟩

theorem encodeIWord_of_decR {g : GroupRef} {w : IWord} {maj : Nat} {i : Instr} (hm : (field w 58 6).toNat = maj)
    (h : decR g maj (field w 16 9).toNat (rFields w) = some i) : encodeIWord i = some w ∧ instrGroup i = some g :=
  encR_rFields hm rfl ▸ encodeIWord_decR h

theorem encodeIWord_decI {g : GroupRef} {maj func : Nat} {f : IFields} {i : Instr} (h : decI g maj func f = some i) :
    encodeIWord i = some (encI maj func f) ∧ instrGroup i = some g := by
  simp only [decI, decVFI, decVII, decSCI] at h
  split at h
  case h_4 => cases h
  all_goals split at h <;> cases h <;> exact ⟨rfl, rfl⟩

theorem encodeIWord_of_decI {g : GroupRef} {w : IWord} {maj : Nat} {i : Instr} (hm : (field w 58 6).toNat = maj)
    (h : decI g maj (field w 32 7).toNat (iFields w) = some i) : encodeIWord i = some w ∧ instrGroup i = some g :=
  encI_iFields hm rfl ▸ encodeIWord_decI h

theorem encodeIWord_decM {g : GroupRef} {maj : Nat} {dir : BitVec 1} {f : MFields} {i : Instr}
    (h : decM g maj dir f = some i) : encodeIWord i = some (encM maj dir.toNat f) ∧ instrGroup i = some g := by
  have hdir : dir = 0 ∨ dir = 1 := (by decide : ∀ b : BitVec 1, b = 0 ∨ b = 1) dir
  unfold decM at h
  split at h
  case h_4 => cases h
  all_goals
    rcases hdir with rfl | rfl <;> cases h <;> exact ⟨rfl, rfl⟩

theorem encodeIWord_of_decM {g : GroupRef} {w : IWord} {maj : Nat} {i : Instr} (hm : (field w 58 6).toNat = maj)
    (h : decM g maj (field w 35 1) (mFields w) = some i) : encodeIWord i = some w ∧ instrGroup i = some g :=
  encM_mFields hm rfl ▸ encodeIWord_decM h

theorem encodeIWord_decATOM {g : GroupRef} {op : Nat} {f : AFields} {i : Instr} (h : decATOM g op f = some i) :
    encodeIWord i = some (encA op f) ∧ instrGroup i = some g := by
  unfold decATOM at h
  split at h <;> cases h <;> exact ⟨rfl, rfl⟩

theorem encodeIWord_decMX {g : GroupRef} {xfunc : Nat} {f : XFields} {i : Instr} (h : decMX g xfunc f = some i) :
    encodeIWord i = some (encX xfunc f) ∧ instrGroup i = some g := by
  unfold decMX at h
  split at h <;> cases h <;> exact ⟨rfl, rfl⟩

theorem encodeIWord_decBR {g : GroupRef} {xfunc : Nat} {f : BFields} {i : Instr} (h : decBR g xfunc f = some i) :
    encodeIWord i = some (encB xfunc f) ∧ instrGroup i = some g := by
  unfold decBR at h
  split at h <;> cases h <;> exact ⟨rfl, rfl⟩

/-! ## The obligations -/

/-- Settles O2: the worked words, and the two reserved codes. -/
theorem workedWordsDecode : Obligations.WorkedWordsDecode := by
  unfold Obligations.WorkedWordsDecode
  exact fun g => ⟨rfl, rfl, rfl, rfl⟩

/-- Settles O3: each instruction's word is one of its format, and the format's table spells the instruction. -/
theorem decodeOfEncodeIsIdentity : Obligations.DecodeOfEncodeIsIdentity := by
  unfold Obligations.DecodeOfEncodeIsIdentity
  intro i g w h hg
  unfold encodeIWord at h
  split at h <;> cases h <;> cases hg <;>
    simp (disch := decide) only [decodeIWord_encR, decodeIWord_encI, decodeIWord_encM, decodeIWord_encA, decodeIWord_encX,
      decodeIWord_encB, decodeIWord_encD] <;> rfl

/-- Settles O4: the table of the word's major spells the instruction, and the encoder puts the word together from the fields. -/
theorem encodeOfDecodeIsIdentity : Obligations.EncodeOfDecodeIsIdentity := by
  unfold Obligations.EncodeOfDecodeIsIdentity
  intro g w i h
  unfold decodeIWord at h
  split at h
  case h_1 | h_2 | h_3 | h_4 | h_5 | h_6 | h_7 | h_8 | h_9 | h_10 =>
    rename_i hm
    exact encodeIWord_of_decR hm h
  case h_11 | h_12 | h_13 =>
    rename_i hm
    exact encodeIWord_of_decI hm h
  case h_14 | h_15 | h_16 =>
    rename_i hm
    exact encodeIWord_of_decM hm h
  case h_17 hm => exact encA_aFields hm ▸ encodeIWord_decATOM h
  case h_18 hm => exact encX_xFields hm ▸ encodeIWord_decMX h
  case h_19 hm =>
    cases h
    exact ⟨congrArg some (encD_dFields hm), rfl⟩
  case h_20 hm => exact encB_bFields hm ▸ encodeIWord_decBR h
  case h_21 => cases h

end Sys2Proof
end

section
/-!
O9: predicate rows (R181, R190). A compare's mask holds the condition in the threads of the effective mask and the old bits elsewhere.
-/
namespace Sys2Proof.Machine
open Sys2Proof.Claims

/-! ## Issue of a legal row -/

/-- A legal row of a group that may issue completes with what it does. -/
theorem issue_goes {s u : State} {g : GroupRef} {illegal : Bool} {regs : List (BitVec 7)} {k : Core} {gr : Group}
    {act : State → Core → Group → Effect} (hl : illegal = false) (hr : Ready s g regs)
    (hact : act s (s.core g.core) (grp s g) = .go u k gr) :
    issue s g (firstFault illegal false) regs act = .next (u.setCore g.core (k.setGroup g.slot gr)) := by
  subst hl
  rw [show firstFault false false = none from rfl, issue_acts hr.1 hr.2]
  exact congrArg _ (congrArg (applyEffect s g) hact)

/-- A MOD below 2^n sets no bit but those of its low n (R184). -/
theorem modBad_of_lt {mod : BitVec 16} {n : Nat} (h : mod.toNat < 2 ^ n) : modBad mod (2 ^ n - 1) = false := by
  have hzero : mod &&& ~~~(BitVec.ofNat 16 (2 ^ n - 1)) = 0 := by
    refine BitVec.eq_of_getLsbD_eq fun i hi => ?_
    rw [BitVec.getLsbD_and, BitVec.getLsbD_not, BitVec.getLsbD_ofNat, Nat.testBit_two_pow_sub_one]
    rcases Nat.lt_or_ge i n with hin | hni
    · simp [hi, hin]
    · rw [BitVec.getLsbD, Nat.testBit_lt_two_pow (h.trans_le (Nat.pow_le_pow_right Nat.two_pos hni)), Bool.false_and]
      exact BitVec.getLsbD_zero.symm
  simp [modBad, hzero]

@[simp] theorem modBad_zero (used : Nat) : modBad 0#16 used = false := by simp [modBad]

/-- The low bits of a MOD that has no others are the whole MOD. -/
theorem bits_zero_of_lt {v n : Nat} (h : v < 2 ^ n) : bits v 0 n = v := Nat.mod_eq_of_lt h

theorem isP_of_isU {x : BitVec 7} (h : isU x = true) : isP x = false := by
  revert h
  revert x
  decide

/-! ## The mask of a compare -/

/-- A sum of distinct powers of two has exactly their bits. -/
theorem testBit_sum_two_pow (p : Nat → Bool) (n : Nat) :
    let x := (List.range n).foldl (fun a t => a + (if p t then 2 ^ t else 0)) 0
    x < 2 ^ n ∧ ∀ i < n, x.testBit i = p i := by
  induction n with
  | zero => exact ⟨Nat.one_pos, fun i hi => absurd hi (Nat.not_lt_zero i)⟩
  | succ n ih =>
    obtain ⟨hlt, hbits⟩ := ih
    dsimp only at hlt hbits ⊢
    rw [List.range_succ, List.foldl_append, List.foldl_cons, List.foldl_nil]
    generalize (List.range n).foldl _ 0 = x at hlt hbits ⊢
    refine ⟨by split <;> omega, fun i hi => ?_⟩
    rcases Nat.lt_succ_iff_lt_or_eq.mp hi with hin | rfl
    · rw [← hbits i hin]
      split
      · rw [Nat.add_comm, Nat.testBit_two_pow_add_gt hin]
      · rfl
    · have htop : x.testBit i = false := Nat.testBit_lt_two_pow hlt
      split
      case isTrue h => rw [Nat.add_comm, Nat.testBit_two_pow_add_eq, htop, h]; rfl
      case isFalse h => rw [Nat.add_zero, htop, Bool.eq_false_of_not_eq_true h]

/-- The mask of a compare (R190). -/
theorem getLsbD_maskWith (old mask : Word) (f : Nat → Bool) {n : Nat} (hn : n < 32) :
    (maskWith old mask f).getLsbD n = if mask.getLsbD n then f n else old.getLsbD n := by
  rw [maskWith, BitVec.getLsbD_ofNat, lanes, (testBit_sum_two_pow _ 32).2 n hn]
  simp [hn]

/-- A legal compare of a group that may issue sets the bits of DST that the effective mask names. -/
theorem cmpRun_sets {s : State} {g : GroupRef} {f : RFields} {n : Nat} {reserved : Bool} (op : Word → Word → Bool)
    (hd : isP f.dst = true) (ha : isVUZ f.sa = true) (hb : isVUZ f.sb = true) (hmod : f.mod.toNat < 2 ^ n)
    (hres : reserved = false) (hr : Ready s g [f.sa, f.sb]) :
    ∃ t, cmpRun s g f (2 ^ n - 1) reserved op = .next t ∧ ∃ m : Word,
      WentTo s t g ((grp s g).setPred (regNo f.dst) m).advance ∧
      ∀ n < 32, m.getLsbD n = if (emask s g f.guard).getLsbD n
        then op ((s.core g.core).src (grp s g) g.slot f.sa n) ((s.core g.core).src (grp s g) g.slot f.sb n)
        else ((grp s g).pred (regNo f.dst)).getLsbD n := by
  unfold cmpRun
  exact ⟨_, issue_goes (by simp [hd, ha, hb, hres, modBad_of_lt hmod]) hr rfl, _, rfl, fun _ hn => getLsbD_maskWith _ _ _ hn⟩

/-- Writing a uniform register of a slot. -/
theorem wroteU_setU (k : Core) (slot : Nat) {n : Nat} (w : Word) (hn : n < 32) : WroteU k (k.setU slot n w) slot n w := by
  refine ⟨rfl, ?_, fun sl r t hr ht hne => ?_⟩
  · rw [Core.u, Core.v_setU _ _ hn (by decide) hn, if_pos ⟨rfl, rfl, rfl⟩]
  · rw [Core.v_setU _ _ hn hr ht, if_neg hne]

/-- Settles O9, row by row. -/
theorem predicateResults : Obligations.PredicateResults := by
  unfold Obligations.PredicateResults
  intro g f s gr src sets
  refine ⟨fun hd ha hb hmod hr => ?fsetp, fun hd ha hb hmod hcond hr => ?isetp, fun hd ha hb hmod hg hr => ?plop,
    fun hd ha hmod hg hr => ?toPred, fun hd ha hmod hg hr => ?fromPred, fun hd ha hmod hg hr => ?vote⟩
  case fsetp =>
    obtain ⟨t, hexec, m, ht, hm⟩ := cmpRun_sets (n := 3) (fun a b => fpCompare (bits f.mod.toNat 0 3) (Fmt.fp32.decode a.toNat)
      (Fmt.fp32.decode b.toNat)) hd ha hb hmod rfl hr
    rw [bits_zero_of_lt hmod] at hm
    exact ⟨t, hexec, m, ht, hm⟩
  case isetp =>
    obtain ⟨t, hexec, m, ht, hm⟩ := cmpRun_sets (n := 4) (reserved := decide (6 ≤ bits f.mod.toNat 0 3))
      (intCompare (bits f.mod.toNat 0 3) (f.mod.getLsbD 3)) hd ha hb hmod (decide_eq_false (Nat.not_le.mpr hcond)) hr
    exact ⟨t, hexec, m, ht, fun n hn => (hm n hn).trans (by
      simp only [intCompare, Bool.not_or]; rfl)⟩
  case plop =>
    change ∃ t, execPlop g f s = .next t ∧ _
    unfold execPlop
    have hused : modBad f.mod 3 = false := modBad_of_lt (n := 2) hmod
    refine ⟨_, issue_goes (by simp [hd, ha, hb, hg, hused]) hr rfl, ?_⟩
    rw [bits_zero_of_lt (n := 2) hmod]
    rfl
  case toPred =>
    change ∃ t, execPmov g f s = .next t ∧ _
    unfold execPmov
    exact ⟨_, issue_goes (by simp [hd, ha, hg, hmod]) hr (if_pos hd), rfl⟩
  case fromPred =>
    change ∃ t, execPmov g f s = .next t ∧ _
    unfold execPmov
    exact ⟨_, issue_goes (by simp [hd, ha, hg, hmod]) hr (if_neg (by simp [isP_of_isU hd])), _,
      wroteU_setU _ _ _ (regNo_lt_of_isU hd), rfl⟩
  case vote =>
    change ∃ t, execVote g f s = .next t ∧ _
    unfold execVote
    exact ⟨_, issue_goes (by simp [hd, ha, hg, hmod]) hr rfl, _, wroteU_setU _ _ _ (regNo_lt_of_isU hd), rfl⟩

end Sys2Proof.Machine
end

section
/-!
O20: branches (R206) and the control rows nop, jr, rdtime, rdtick and rdcyc (R207).
-/
namespace Sys2Proof.Machine
open Sys2Proof.Claims

/-! ## Branches -/

/-- A branch with its reserved bits and GUARD zero and a target not below 0 goes there on its condition, and on otherwise (R206). -/
theorem branchRun_goes {s : State} {g : GroupRef} {f : BFields} (cond : Word → Word → Bool) (hr : Ready s g []) (hg : f.guard = 0)
    (hz : f.rsvd = 0) (ht : 0 ≤ ((grp s g).pc.toNat : Int) + f.ta.toInt) : ∃ t, branchRun s g f cond = .next t ∧
      if cond ((grp s g).pred f.ps.toNat &&& (grp s g).mask) (grp s g).mask
      then WentTo s t g { grp s g with pc := BitVec.ofInt 32 ((grp s g).pc.toNat + f.ta.toInt) }
      else WentTo s t g (grp s g).advance := by
  have hlegal : (bBad f || (true && belowZero (grp s g).pc f.ta) || (false && belowZero (grp s g).pc f.tb)) = false := by
    simp [bBad, hg, hz, belowZero, target, Int.not_lt.mpr ht]
  unfold branchRun brLegal
  split
  case isTrue hc => exact ⟨_, issue_goes hlegal hr (if_pos hc), rfl⟩
  case isFalse hc => exact ⟨_, issue_goes hlegal hr (if_neg hc), rfl⟩

/-! ## Control rows -/

theorem ctlBad_zero {f : RFields} (hg : f.guard = 0) (hm : f.mod = 0) : ctlBad f 0 = false := by simp [ctlBad, hg, hm]

/-- An even uniform register and the next one are a register pair (R179). -/
theorem groupOk_pair {x : BitVec 7} (hu : isU x = true) (he : regNo x % 2 = 0) : groupOk x 2 = true ∧ regNo x + 1 < 32 := by
  have hlt := regNo_lt_of_isU hu
  have hnext : regNo x + 1 < 32 := by omega
  exact ⟨by simp [groupOk, hu, he, show regNo x + 2 ≤ 32 by omega], hnext⟩

/-- Writing a pair of uniform registers of a slot. -/
theorem setU_pair_v (k : Core) (slot : Nat) {n : Nat} (lo hi : Word) (hn : n + 1 < 32) :
    let k' := (k.setU slot n lo).setU slot (n + 1) hi
    k'.u slot n = lo ∧ k'.u slot (n + 1) = hi ∧ ∀ sl r m, r < 64 → m < 32 → ¬(sl = slot ∧ r = 63 ∧ (m = n ∨ m = n + 1)) →
      k'.v sl r m = k.v sl r m := by
  have hn' : n < 32 := by omega
  refine ⟨?_, ?_, fun sl r m hr hm hne => ?_⟩
  · rw [Core.u, Core.v_setU _ _ hn (by decide) hn', if_neg (by omega), Core.v_setU _ _ hn' (by decide) hn', if_pos ⟨rfl, rfl, rfl⟩]
  · rw [Core.u, Core.v_setU _ _ hn (by decide) hn, if_pos ⟨rfl, rfl, rfl⟩]
  · rw [Core.v_setU _ _ hn hr hm, if_neg (by tauto), Core.v_setU _ _ hn' hr hm, if_neg (by tauto)]

/-- A row that writes a pair of uniform registers completes with the pair written (R179, R207). -/
theorem issue_writesPair {s : State} {g : GroupRef} {f : RFields} {x : Nat} (hg : f.guard = 0) (hm : f.mod = 0)
    (hu : isU f.dst = true) (he : regNo f.dst % 2 = 0) (hr : Ready s g [f.dst, f.dst + 1]) :
    ∃ t, issue s g (firstFault (ctlBad f 0 || !(isU f.dst && groupOk f.dst 2)) false) [f.dst, f.dst + 1] (fun s k gr =>
        .go s ((k.setU g.slot (regNo f.dst) (BitVec.ofNat 32 x)).setU g.slot (regNo f.dst + 1) (BitVec.ofNat 32 (x / 2 ^ 32)))
          gr.advance) = .next t ∧
      grp t g = (grp s g).advance ∧ t.mem = s.mem ∧ (t.core g.core).u g.slot (regNo f.dst) = BitVec.ofNat 32 x ∧
      (t.core g.core).u g.slot (regNo f.dst + 1) = BitVec.ofNat 32 (x / 2 ^ 32) ∧
      ∀ sl r n, r < 64 → n < 32 → ¬(sl = g.slot.val ∧ r = 63 ∧ (n = regNo f.dst ∨ n = regNo f.dst + 1)) →
        (t.core g.core).v sl r n = (s.core g.core).v sl r n := by
  obtain ⟨hok, hlt⟩ := groupOk_pair hu he
  refine ⟨_, issue_goes (by simp [ctlBad_zero hg hm, hu, hok]) hr rfl, ?_⟩
  simp only [grp, State.core_setCore_same, Core.group_setGroup_same, Core.u_setGroup, Core.v_setGroup, State.setCore_mem, true_and]
  exact setU_pair_v _ _ _ _ hlt

/-- rdcyc completes with the count it observes (R207). -/
theorem rdcyc_reads {s : State} {g : GroupRef} {f : RFields} {cycles : Nat} (hg : f.guard = 0) (hm : f.mod = 0)
    (hu : isU f.dst = true) (hc : (s.core g.core).cycles ≤ cycles) (hr : Ready s g [f.dst]) :
    ∃ t, exec (.rdcyc g f cycles) s = .next t ∧ grp t g = (grp s g).advance ∧ t.mem = s.mem ∧ (t.core g.core).cycles = cycles ∧
      (t.core g.core).u g.slot (regNo f.dst) = BitVec.ofNat 32 cycles ∧
      ∀ sl r n, r < 64 → n < 32 → ¬(sl = g.slot.val ∧ r = 63 ∧ n = regNo f.dst) →
        (t.core g.core).v sl r n = (s.core g.core).v sl r n := by
  have hlt := regNo_lt_of_isU hu
  change ∃ t, execRdcyc g f cycles s = .next t ∧ _
  rw [execRdcyc, if_pos hc]
  refine ⟨_, issue_goes (by simp [ctlBad_zero hg hm, hu]) hr rfl, ?_⟩
  simp only [grp, State.core_setCore_same, Core.group_setGroup_same, Core.u_setGroup, Core.v_setGroup, State.setCore_mem, true_and]
  obtain ⟨-, hdst, hkeep⟩ := wroteU_setU { s.core g.core with cycles := cycles } g.slot (BitVec.ofNat 32 cycles) hlt
  exact ⟨rfl, hdst, hkeep⟩

/-- Settles O20: branches by `branchRun_goes`, control rows one by one. -/
theorem branchesAndControlInstructions : Obligations.BranchesAndControlInstructions := by
  unfold Obligations.BranchesAndControlInstructions
  refine ⟨?branches, ?control⟩
  case branches =>
    intro g f s gr p dest goes hr hg hz ht
    exact ⟨branchRun_goes (fun _ _ => true) hr hg hz ht, branchRun_goes (fun p _ => p != 0) hr hg hz ht,
      branchRun_goes (fun p _ => p == 0) hr hg hz ht, branchRun_goes (fun p m => p == m) hr hg hz ht⟩
  case control =>
    intro g f s k gr pair hg hm
    have hbad := ctlBad_zero hg hm
    refine ⟨fun hr => ?nop, fun hu hr => ?jr, fun hu he hr => ⟨issue_writesPair hg hm hu he hr, issue_writesPair hg hm hu he hr⟩,
      fun cycles hu hc hr => rdcyc_reads hg hm hu hc hr⟩
    case nop =>
      change execCtlNop g f s = _
      unfold execCtlNop
      exact issue_goes hbad hr rfl
    case jr =>
      change execJr g f s = _
      unfold execJr
      exact issue_goes (by simp [hbad, hu]) hr rfl

end Sys2Proof.Machine
end

section
/-!
O34: fmin, fmax, hmin2 and hmax2 (R186), and the bit fields that fault (R186, R210, R212). A group that faults leaves its slot empty:
no barrier is released in a slot that holds no group, and a core that is freed has no groups.
-/
namespace Sys2Proof.Machine
open Sys2Proof.Claims

/-! ## Minimum and maximum -/

/-- A NaN input gives the canonical NaN (R186). -/
theorem fpMinMax_of_nan {f : Fmt} {a b : Nat} (h : f.decode a = .nan ∨ f.decode b = .nan) :
    fpMin f a b = f.nanCode.getD 0 ∧ fpMax f a b = f.nanCode.getD 0 := by
  have hnan : ((f.decode a).isNan || (f.decode b).isNan) = true := by
    rcases h with h | h <;> simp [h, FVal.isNan]
  exact ⟨if_pos hnan, if_pos hnan⟩

/-! ## A slot that a fault has emptied -/

/-- No group is listed in a slot of a core. -/
def Core.NoGroup (slot : Nat) (k : Core) : Prop := ∀ p ∈ k.groups, p.1 ≠ slot

theorem Core.NoGroup.group {slot : Nat} {k : Core} (h : k.NoGroup slot) : k.group slot = Group.empty := sget_of_keys_ne _ h

theorem mem_sdel {α : Type} {m : Sparse α} {k : Nat} {p : Nat × α} (h : p ∈ sdel m k) : p ∈ m ∧ p.1 ≠ k := by
  simpa [sdel] using h

theorem mem_sins {α : Type} {m : Sparse α} {k : Nat} {v : α} {p : Nat × α} (h : p ∈ sins m k v) : p = (k, v) ∨ p ∈ m := by
  induction m with
  | nil => simpa [sins] using h
  | cons q m ih =>
    rw [sins] at h
    split at h
    · simpa using h
    · rcases List.mem_cons.mp h with rfl | h
      · exact .inr List.mem_cons_self
      · exact (ih h).imp_right (List.mem_cons_of_mem _)

/-- Writing a table lists no key but the one written. -/
theorem key_of_mem_sset {α : Type} [DecidableEq α] {d : Nat → α} {m : Sparse α} {k : Nat} {v : α} {p : Nat × α}
    (h : p ∈ sset d m k v) : p.1 = k ∨ p ∈ m := by
  unfold sset at h
  split at h
  · exact .inr (mem_sdel h).1
  · rcases mem_sins h with rfl | h
    · exact .inl rfl
    · exact .inr (mem_sdel h).1

/-- An empty group is not listed. -/
theorem Core.noGroup_setGroup_empty (k : Core) (slot : Nat) : (k.setGroup slot Group.empty).NoGroup slot := by
  intro p hp
  rw [Core.setGroup, sset, if_pos rfl] at hp
  exact (mem_sdel hp).2

theorem Core.NoGroup.setGroup {slot n : Nat} {k : Core} {gr : Group} (h : k.NoGroup slot) (hn : n ≠ slot) :
    (k.setGroup n gr).NoGroup slot := by
  intro p hp
  rcases key_of_mem_sset (d := fun _ => Group.empty) (m := k.groups) (k := n) (v := gr) hp with rfl | hp
  · exact hn
  · exact h p hp

/-- A barrier releases groups that wait at it, and so none in an empty slot (R127). -/
theorem Core.NoGroup.tryRelease {slot : Nat} {k : Core} (h : k.NoGroup slot) (b at_ : Nat) : (k.tryRelease b at_).NoGroup slot := by
  have hwait : ∀ p ∈ k.atBarrier b, p.1 ≠ slot := fun p hp =>
    h p (List.mem_of_mem_filter (List.mem_of_mem_filter hp))
  unfold Core.tryRelease
  extract_lets w e need
  split
  · exact h
  · exact List.foldlRecOn (motive := fun k : Core => k.NoGroup slot) _ _ h fun _ hk p hp => hk.setGroup (hwait p hp)

theorem Core.NoGroup.checkBarriers {slot : Nat} {k : Core} (h : k.NoGroup slot) (at_ : Nat) :
    (k.checkBarriers at_).NoGroup slot :=
  List.foldlRecOn _ _ h fun _ hk b _ => hk.tryRelease b at_

/-- Settling a core frees it or leaves its groups, so that an empty slot stays empty (R111, R119). -/
theorem settleCore_noGroup {s : State} {c slot : Nat} (d : Nat) (h : (s.core c).NoGroup slot) :
    ((settleCore s d).core c).NoGroup slot := by
  have hfree : ((s.setCore d (s.core d).release).core c).NoGroup slot := by
    rw [State.core_setCore]
    split
    · exact fun p hp => absurd hp List.not_mem_nil
    · exact h
  unfold settleCore
  dsimp only
  split
  · exact h
  · split
    · split <;> exact hfree
    · exact h

theorem settleCommand_noGroup {s : State} {c slot : Nat} (d : Nat) (cmd : Option CoreCmd) (h : (s.core c).NoGroup slot) :
    ((settleCommand s d cmd).core c).NoGroup slot := by
  cases cmd with
  | none => exact settleCore_noGroup d h
  | some x => exact List.foldlRecOn (motive := fun s : State => (s.core c).NoGroup slot) _ _ h fun _ hs d _ => settleCore_noGroup d hs

/-- The slot of a group that has ended is empty (R119). -/
theorem endGroup_noGroup (s : State) (c slot : Nat) : ((endGroup s c slot).core c).NoGroup slot := by
  unfold endGroup
  extract_lets k k' k''
  have hk : k''.NoGroup slot := (Core.noGroup_setGroup_empty k' slot).checkBarriers s.stamp
  clear_value k''
  refine settleCore_noGroup c ?_
  rwa [show (s.setCore c k'').tickStamp.core c = (s.setCore c k'').core c from rfl, State.core_setCore_same]

/-! ## The record of a group fault -/

theorem settleCommand_log {L : List Nat} (s : State) (c : Nat) (cmd : Option CoreCmd) : KeptOutside L s (settleCommand s c cmd) := by
  cases cmd with
  | none => exact KeptOutside.refl.thenSettleCore
  | some x => exact .thenFoldl _ (fun _ _ _ => KeptOutside.refl.thenSettleCore) .refl

theorem endGroup_log {L : List Nat} (s : State) (c slot : Nat) : KeptOutside L s (endGroup s c slot) := by
  unfold endGroup
  extract_lets k k' k''
  clear_value k''
  have hset : KeptOutside L s (s.setCore c k'').tickStamp := .of_same rfl rfl rfl
  exact hset.thenSettleCore

/-- A fault of a group of a command writes a record of its cause that names the core, the slot and the PC (R212, R525). -/
theorem noteFault_logs {s : State} {c slot cause addr detail : Nat} {pc : Word} (h : (s.core c).cmd.isSome = true) :
    ∃ r ∈ (noteFault s c slot cause addr pc detail).mgmt.logPend, r.kind = 1 ∧ r.cause = cause ∧ r.core = c ∧ r.slot = slot ∧
      r.pc = pc.toNat := by
  obtain ⟨cmd, hcmd⟩ := Option.isSome_iff_exists.mp h
  simp only [noteFault, hcmd, stopCommand_mgmt, updStep_mgmt, fnRecord, queueEvent_mgmt, logRecord_logPend]
  exact ⟨_, List.mem_append_right _ List.mem_cons_self, rfl, rfl, rfl, rfl, rfl⟩

/-- A group fault empties the slot and leaves its record (R212). -/
theorem takeFault_leaves {s : State} {c slot cause addr detail : Nat} {pc : Word} (h : (s.core c).cmd.isSome = true) :
    ((takeFault s c slot cause addr pc detail).core c).group slot = Group.empty ∧
    ∃ r ∈ (takeFault s c slot cause addr pc detail).mgmt.logPend, r.kind = 1 ∧ r.cause = cause ∧ r.core = c ∧ r.slot = slot ∧
      r.pc = pc.toNat := by
  refine ⟨(settleCommand_noGroup c _ (endGroup_noGroup _ c slot)).group, ?_⟩
  obtain ⟨r, hr, hfields⟩ := noteFault_logs (s := s.setCore c ((s.core c).mute slot ((s.core c).group slot).gidx)) (c := c)
    (slot := slot) (cause := cause) (addr := addr) (detail := detail) (pc := pc)
    (by rw [State.core_setCore_same]; exact h)
  exact ⟨r, (settleCommand_log (L := []) _ c _).log r ((endGroup_log (L := []) _ c slot).log r hr), hfields⟩

/-- A core whose clock runs has a command (R117). -/
theorem cmd_isSome_of_canIssue {s : State} {g : GroupRef} (h : canIssue s g = true) : (s.core g.core).cmd.isSome = true := by
  cases hc : (s.core g.core).cmd with
  | none => simp [canIssue, Core.runs, hc] at h
  | some c => rfl

/-- An ill-formed vector row faults its group with cause ILLEGAL (R210). -/
theorem vecRun_faults {s : State} {g : GroupRef} {v : VArgs} {format : Bool} {op : Word → Word → Word → Word}
    (hi : canIssue s g = true) (hv : v.illegal = true) :
    ∃ t, vecRun s g v format op = .next t ∧ grp t g = Group.empty ∧
      ∃ r ∈ t.mgmt.logPend, r.kind = 1 ∧ r.cause = 1 ∧ r.core = g.core.val ∧ r.slot = g.slot.val ∧
        r.pc = (grp s g).pc.toNat := by
  unfold vecRun
  rw [show firstFault v.illegal format = some causeIllegal by simp [firstFault, hv]]
  exact ⟨_, issue_faults hi, takeFault_leaves (cmd_isSome_of_canIssue hi)⟩

/-- Settles O34: NaN and signed zeros by format, the rows by `vecRun_done`, the bit fields by `vecRun_faults`. -/
theorem minMaxAndBitFieldRules : Obligations.MinMaxAndBitFieldRules := by
  unfold Obligations.MinMaxAndBitFieldRules
  refine ⟨?formats, fun g f s hl hround hr => ?fp32, fun g f s hl hround hr => ?packed, fun g f s i hrow hi hfield => ?fields⟩
  case formats =>
    simp only [List.forall_mem_cons, List.not_mem_nil, false_imp_iff, implies_true, and_true]
    exact ⟨⟨fun a _ b _ h => fpMinMax_of_nan h, by decide⟩, ⟨fun a _ b _ h => fpMinMax_of_nan h, by decide⟩,
      fun a _ b _ h => fpMinMax_of_nan h, by decide⟩
  case fp32 =>
    change (∃ t, execFmin g f s = .next t ∧ _) ∧ ∃ t, execFmax g f s = .next t ∧ _
    unfold execFmin execFmax fpRun
    rw [hround]
    exact ⟨vecRun_done _ hl (isV_dst_of_vArgs hl) hr, vecRun_done _ hl (isV_dst_of_vArgs hl) hr⟩
  case packed =>
    change (∃ t, execHmin2 g f s = .next t ∧ _) ∧ ∃ t, execHmax2 g f s = .next t ∧ _
    unfold execHmin2 execHmax2 hpRun
    rw [hround]
    exact ⟨vecRun_done _ hl (isV_dst_of_vArgsR hl) hr, vecRun_done _ hl (isV_dst_of_vArgsR hl) hr⟩
  case fields =>
    have hbad : fieldBad f.mod = true := by
      have hpos : fieldPos f.mod = f.mod.toNat % 32 := rfl
      have hlen : fieldLen f.mod = f.mod.toNat / 32 % 64 := bits_eq_div ..
      simpa [fieldBad, hpos, hlen] using hfield
    rcases hrow with rfl | rfl <;> exact vecRun_faults hi (by simp [hbad])

end Sys2Proof.Machine
end

section
/-!
O38: requests at their home (R201, R259, R262, R268 to R270, R273, R341). What a home does with a request is read off the equations of
`serveRd`, `serveRdo` and `serveUpdate` for a line that it holds; picking a request up, checking its bound and sending a reply leave
memory and every home line as they are.
-/
namespace Sys2Proof.Machine
open Sys2Proof.Claims

/-! ## Lines merged under a byte mask -/

/-- The spread of the low `n` bytes of a mask below what is spread already. -/
theorem testBit_spreadMask_go (n m acc i : Nat) (h : 2 ^ (8 * n) ∣ acc) :
    (spreadMask.go n m acc).testBit i = if i < 8 * n then m.testBit (i / 8) else acc.testBit i := by
  induction n generalizing acc with
  | zero => simp [spreadMask.go]
  | succ n ih =>
    obtain ⟨q, rfl⟩ := h
    have hbyte : 2 ^ (8 * (n + 1)) * q + (if m.testBit n then 255 <<< (8 * n) else 0) =
        2 ^ (8 * n) * (2 ^ 8 * q + if m.testBit n then 255 else 0) := by
      have hpow : 2 ^ (8 * (n + 1)) = 2 ^ (8 * n) * 2 ^ 8 := Nat.pow_add 2 (8 * n) 8
      rw [hpow, Nat.mul_add, Nat.mul_assoc]
      congr 1
      split
      · rw [Nat.shiftLeft_eq, Nat.mul_comm]
      · rfl
    have hlt : (if m.testBit n then 255 else 0) < 2 ^ 8 := by split <;> decide
    rw [spreadMask.go, ih _ (hbyte ▸ Nat.dvd_mul_right _ _), hbyte]
    rcases Nat.lt_or_ge i (8 * n) with hi | hi
    · rw [if_pos hi, if_pos (by omega)]
    · rw [if_neg (by omega), Nat.testBit_two_pow_mul, decide_eq_true hi, Bool.true_and, Nat.testBit_two_pow_mul_add _ hlt]
      rcases Nat.lt_or_ge i (8 * (n + 1)) with hi' | hi'
      · have hones : ∀ j < 8, (255).testBit j = true := by decide
        rw [if_pos hi', if_pos (by omega), show i / 8 = n by omega]
        split
        case isTrue h => rw [h, hones _ (by omega)]
        case isFalse h => rw [Nat.zero_testBit, Bool.eq_false_of_not_eq_true h]
      · rw [if_neg (by omega), if_neg (by omega), Nat.testBit_two_pow_mul, decide_eq_true hi', Bool.true_and]
        congr 1

theorem getLsbD_spreadMask (m : ByteMask) {i : Nat} (hi : i < 4096) : (spreadMask m).getLsbD i = m.getLsbD (i / 8) := by
  rw [spreadMask, BitVec.getLsbD_ofNat, testBit_spreadMask_go _ _ _ _ (Nat.dvd_zero _), if_pos (by omega), decide_eq_true hi,
    Bool.true_and, BitVec.testBit_toNat]

/-- A merged line has each byte of the mask from the new line and every other from the old one. -/
theorem getLsbD_lineMerge (old new : LineData) (mask : ByteMask) {i : Nat} (hi : i < 4096) :
    (lineMerge old new mask).getLsbD i = if mask.getLsbD (i / 8) then new.getLsbD i else old.getLsbD i := by
  simp only [lineMerge, BitVec.getLsbD_or, BitVec.getLsbD_and, BitVec.getLsbD_not, getLsbD_spreadMask _ hi, hi]
  cases mask.getLsbD (i / 8) <;> simp

theorem lineBytes_lineMerge (old new : LineData) (mask : ByteMask) {b : Nat} (hb : b < 512) :
    lineBytes (lineMerge old new mask) b 1 = if mask.getLsbD b then lineBytes new b 1 else lineBytes old b 1 := by
  refine Nat.eq_of_testBit_eq fun j => ?_
  rw [apply_ite (Nat.testBit · j)]
  simp only [lineBytes, testBit_bits, BitVec.testBit_toNat]
  rcases Nat.lt_or_ge j 8 with hj | hj
  · rw [getLsbD_lineMerge _ _ _ (by omega), show (8 * b + j) / 8 = b by omega]
    split <;> rfl
  · simp [show ¬j < 8 * 1 by omega]

/-! ## Operations of an atomic -/

/-- An operation of an atomic whose bytes lie in a marked sector is skipped (R203, R273). -/
def opSkipped (k : AtomKind) (marks : Marks) (o : LaneOp) : Bool := touched (maskOf o.off (atomSize k)) &&& marks != 0

/-- A byte is in the mask of the operations where one that is not skipped has it. -/
theorem getLsbD_opsMask (k : AtomKind) (marks : Marks) (ops : List LaneOp) (j : Nat) : (opsMask k marks ops).getLsbD j =
    ops.any fun o => !opSkipped k marks o && (maskOf o.off (atomSize k)).getLsbD j := by
  have hfold (ops : List LaneOp) (m : ByteMask) : (ops.foldl (fun m o => if touched (maskOf o.off (atomSize k)) &&& marks != 0 then m
      else m ||| maskOf o.off (atomSize k)) m).getLsbD j =
      (m.getLsbD j || ops.any fun o => !opSkipped k marks o && (maskOf o.off (atomSize k)).getLsbD j) := by
    induction ops generalizing m with
    | nil => simp
    | cons o ops ih =>
      rw [List.foldl_cons, ih, List.any_cons, ← Bool.or_assoc]
      congr 1
      cases h : opSkipped k marks o <;> simp_all [opSkipped]
  rw [opsMask, hfold]
  simp

/-- The operations of an atomic change no byte outside their mask. -/
theorem getLsbD_runOps (k : AtomKind) (marks : Marks) (ops : List LaneOp) (d : LineData) {i : Nat} (hi : i < 4096)
    (h : (opsMask k marks ops).getLsbD (i / 8) = false) : (runOps k marks ops d).1.getLsbD i = d.getLsbD i := by
  rw [getLsbD_opsMask] at h
  induction ops generalizing d with
  | nil => rfl
  | cons o ops ih =>
    rw [List.any_cons, Bool.or_eq_false_iff] at h
    obtain ⟨ho, hops⟩ := h
    rw [runOps]
    split
    case isTrue => exact ih _ hops
    case isFalse hs =>
      have hskip : opSkipped k marks o = false := Bool.eq_false_of_not_eq_true hs
      have hout : (maskOf o.off (atomSize k)).getLsbD (i / 8) = false := by simpa [hskip] using ho
      dsimp only
      rw [ih _ hops, getLsbD_lineMerge _ _ _ hi, hout, if_neg (by decide)]

/-- Merging what the operations give into the line gives it back. -/
theorem lineMerge_runOps (k : AtomKind) (marks : Marks) (ops : List LaneOp) (d : LineData) :
    lineMerge d (runOps k marks ops d).1 (opsMask k marks ops) = (runOps k marks ops d).1 := by
  refine BitVec.eq_of_getLsbD_eq fun i hi => ?_
  rw [getLsbD_lineMerge _ _ _ hi]
  split
  case isTrue => rfl
  case isFalse h => exact (getLsbD_runOps k marks ops d hi (Bool.eq_false_of_not_eq_true h)).symm

/-- Operations that are all skipped leave the line as it is. -/
theorem runOps_of_opsMask_zero {k : AtomKind} {marks : Marks} {ops : List LaneOp} (h : opsMask k marks ops = 0) (d : LineData) :
    (runOps k marks ops d).1 = d :=
  BitVec.eq_of_getLsbD_eq fun _ hi => getLsbD_runOps k marks ops d hi (by rw [h]; exact BitVec.getLsbD_zero)

/-! ## Packets change the network alone -/

theorem drainLink_net (k n : Nat) (s : State) : ∃ x, drainLink k n s = { s with net := x } := by
  induction n generalizing s with
  | zero => exact ⟨_, rfl⟩
  | succ n ih =>
    unfold drainLink
    split
    · split
      · exact ⟨_, rfl⟩
      · rename_i u hu
        obtain ⟨d, rfl⟩ := sendNext_eq_setLink hu
        obtain ⟨x, hx⟩ := ih (setLink s k d)
        exact ⟨x, hx⟩
    · exact ⟨_, rfl⟩

theorem crossLink_net (s : State) (k : Nat) (p : LinkPacket) : ∃ x, crossLink s k p = { s with net := x } :=
  drainLink_net _ _ (setLink s k _)

theorem crossRing_net (s : State) (src dst : Nat) (p : LinkPacket) : ∃ x, crossRing s src dst p = { s with net := x } := by
  unfold crossRing crossDies
  split
  · exact ⟨_, rfl⟩
  · refine List.foldlRecOn (motive := fun t => ∃ x, t = { s with net := x }) _ _ ⟨s.net, rfl⟩ fun t ht dir _ => ?_
    obtain ⟨x, rfl⟩ := ht
    exact crossLink_net _ _ _

/-- A message has been sent: it is in flight, and memory, objects and the rest of the caches are as before. -/
structure Sends (s t : State) (f : Flight) : Prop where
  mem : t.mem = s.mem
  dict : t.dict = s.dict
  grade : t.grade = s.grade
  coh : t.coh = { s.coh with net := s.coh.net ++ [f] }

theorem launch_sends (s : State) (kind : MsgKind) (m : Msg) : Sends s (launch s kind m) ⟨kind, m⟩ := by
  obtain ⟨x, hx⟩ := crossRing_net s m.src m.dst (packetOf s kind m)
  unfold launch
  rw [hx]
  exact ⟨rfl, rfl, rfl, rfl⟩

/-- A reply, which its sender does not keep for an answer, is sent at once (R340, R341). -/
theorem postReply_sends (s : State) {kind : MsgKind} (m : Msg) (h : isAnswered kind = false) :
    Sends s (postReply s kind m) ⟨kind, m⟩ := by
  obtain ⟨x, hx⟩ : ∃ x, keepAsReply s kind m = { s with net := x } := by
    unfold keepAsReply
    split <;> exact ⟨_, rfl⟩
  unfold postReply post
  rw [h, if_neg (by decide), hx]
  obtain ⟨hm, hd, hg, hc⟩ := launch_sends { s with net := x } kind m
  exact ⟨hm, hd, hg, hc⟩

theorem Sends.sent {s t : State} {f : Flight} (h : Sends s t f) {p : Msg → Prop} (hp : p f.msg) : Sent t f.kind p :=
  ⟨f.msg, hp, by rw [h.coh]; exact List.mem_append_right _ List.mem_cons_self⟩

theorem Sends.home {s t : State} {f : Flight} (h : Sends s t f) : t.coh.home = s.coh.home := by rw [h.coh]

/-! ## Home lines -/

theorem homeLine_of_home {s t : State} (h : t.coh.home = s.coh.home) (l : Line) : homeLine t l = homeLine s l := by
  rw [homeLine, h, homeLine]

@[simp] theorem homeLine_setHome (s : State) (l : Line) (h : HomeLine) : homeLine (setHome s l h) l = h := sget_sset_same ..

theorem Sends.homeLine {s t : State} {f : Flight} (h : Sends s t f) (l : Line) : homeLine t l = homeLine s l :=
  homeLine_of_home h.home l

theorem boundVoid_mem_coh (s : State) (key cause : Nat) :
    (boundVoid s key cause).mem = s.mem ∧ (boundVoid s key cause).coh = s.coh := by
  unfold boundVoid
  split
  · exact ⟨rfl, rfl⟩
  · split
    · exact ⟨rfl, rfl⟩
    · simp only [State.bump_mem, State.bump_coh, updStep_mem, updStep_coh, fnRecord, queueEvent_mem, queueEvent_coh, logRecord]
      split <;> exact ⟨rfl, rfl⟩

/-- The RESIDENCY check records, and changes no line (R69). -/
theorem checkCore_mem_coh (s : State) (m : Msg) : (checkCore s m).mem = s.mem ∧ (checkCore s m).coh = s.coh := by
  have hres (key : Nat) : (checkResidency s key m.line).mem = s.mem ∧ (checkResidency s key m.line).coh = s.coh := by
    unfold checkResidency
    split
    · split
      · split
        · exact boundVoid_mem_coh s key 2
        · exact ⟨rfl, rfl⟩
      · exact ⟨rfl, rfl⟩
    · exact ⟨rfl, rfl⟩
  unfold checkCore
  split
  · exact ⟨rfl, rfl⟩
  · split
    · exact hres _
    · exact ⟨rfl, rfl⟩

/-! ## Requests about a line that its home holds -/

/-- A reply to a message repeats its line, tag and final requester. -/
theorem replyOf_replies (m : Msg) : Replies m (replyOf m) := ⟨rfl, rfl, rfl, rfl, rfl⟩

theorem serveRd_held {s : State} {m : Msg} (hst : (homeLine s m.line).st = 1 ∨ (homeLine s m.line).st = 2) :
    serveRd s m = answerRead s m false := by
  unfold serveRd
  dsimp only
  rcases hst with h | h <;> rw [h] <;> rfl

theorem places_zero : places 0 = [] := by simp [places]

theorem serveRdo_held {s : State} {m : Msg} (hst : (homeLine s m.line).st = 1 ∨ (homeLine s m.line).st = 2)
    (hp : (homeLine s m.line).presence = 0) : serveRdo s m = grantLine (countHome s m.fn m.tclass m.line) m := by
  have hline : homeLine (countHome s m.fn m.tclass m.line) m.line = homeLine s m.line := rfl
  unfold serveRdo
  dsimp only
  rw [hline, hp, places_zero]
  rcases hst with h | h <;> rw [h] <;> rfl

theorem serveUpdate_held {s : State} {kind : MsgKind} {m : Msg} (hst : (homeLine s m.line).st = 1 ∨ (homeLine s m.line).st = 2)
    (hp : (homeLine s m.line).presence = 0) : serveUpdate s kind m =
      applyRequest (if kind = .wr then countHome s m.fn m.tclass m.line else s) kind m false := by
  have hline : homeLine (if kind = .wr then countHome s m.fn m.tclass m.line else s) m.line = homeLine s m.line := by
    split <;> rfl
  unfold serveUpdate
  dsimp only
  rw [hline, hp, places_zero]
  rcases hst with h | h <;> rw [h] <;> rfl

theorem sendLine_sends (s : State) {kind : MsgKind} (m : Msg) (data : LineData) (marks : Marks) (disc : Bool)
    (h : isAnswered kind = false) : ∃ r : Msg, Sends s (sendLine s kind m data marks disc) ⟨kind, r⟩ ∧ Replies m r ∧
      r.data = data ∧ r.marks = marks :=
  ⟨_, postReply_sends s _ h, replyOf_replies m, rfl, rfl⟩

theorem deliver_clean {s : State} {fn : Fn} {cls : BitVec 3} {l : Line} {fresh : Bool} (hd : (homeLine s l).discarded = false) :
    (deliver s fn cls l fresh).2 = countReq s fn (homeSlice l) cls (if fresh then 2 else 1) := by
  unfold deliver
  dsimp only
  rw [hd]
  rfl

/-- The reader of a line that is not marked discarded gets the home's data, and the line stays as it is (R262). -/
theorem answerRead_sends {s : State} {m : Msg} {fresh : Bool} (hd : (homeLine s m.line).discarded = false) :
    let h := homeLine s m.line
    let t := answerRead s m fresh
    t.mem = s.mem ∧ (homeLine t m.line).data = h.data ∧ (homeLine t m.line).st = h.st ∧
      Sent t .data fun r => Replies m r ∧ r.data = h.data ∧ r.marks = h.marks := by
  have htouch : homeLine (touchHome s m.line) m.line = { homeLine s m.line with use := s.stamp + 1 } := homeLine_setHome ..
  unfold answerRead
  dsimp only
  rw [deliver_clean (by rw [htouch]; exact hd)]
  generalize hu : countReq (touchHome s m.line) _ _ _ _ = u
  have hmem : u.mem = s.mem := by rw [← hu]; rfl
  have hline : homeLine u m.line = { homeLine s m.line with use := s.stamp + 1 } := by rw [← hu]; exact htouch
  rw [hline]
  generalize hv : setHome u m.line _ = v
  obtain ⟨r, hsend, hr⟩ := sendLine_sends v (kind := .data) m (homeLine s m.line).data (homeLine s m.line).marks
    ((homeLine s m.line).discarded && !m.line.host) rfl
  refine ⟨hsend.mem.trans ?_, ?_, ?_, hsend.sent hr⟩
  · rw [← hv]; exact hmem
  · rw [hsend.homeLine, ← hv, homeLine_setHome]
  · rw [hsend.homeLine, ← hv, homeLine_setHome]

/-- A grant gives the line to the requester, which owns it (R262). -/
theorem grantLine_grants (s : State) (m : Msg) :
    let h := homeLine s m.line
    let t := grantLine s m
    t.mem = s.mem ∧ (homeLine t m.line).st = 3 ∧ (homeLine t m.line).presence = setBit 0 (agentPlace m.src) true ∧
      Sent t .grant fun r => Replies m r ∧ r.data = h.data ∧ r.marks = h.marks := by
  obtain ⟨r, hsend, hr⟩ := sendLine_sends s (kind := .grant) m (homeLine s m.line).data (homeLine s m.line).marks false rfl
  unfold grantLine
  dsimp only
  exact ⟨hsend.mem, by rw [homeLine_setHome], by rw [homeLine_setHome], hsend.sent hr⟩

/-- The line of device memory after a write at its home (R262, R310). -/
theorem applyWrite_device {s : State} {l : Line} {fn : Fn} {data : LineData} {mask : ByteMask} {marks : Marks} {fin : Bool}
    (hl : l.host = false) : let h := homeLine s l
    let t := applyWrite s l fn data mask marks fin
    t.mem = s.mem ∧ (homeLine t l).st = 2 ∧ (homeLine t l).data = lineMerge h.data data mask := by
  unfold applyWrite
  dsimp only
  rw [hl]
  exact ⟨rfl, congrArg HomeLine.st (homeLine_setHome ..), congrArg HomeLine.data (homeLine_setHome ..)⟩

/-- A write without a hint merges its bytes into a line of device memory and is acknowledged (R262, R266). -/
theorem applyRequest_wr {s : State} {m : Msg} {fresh : Bool} (hl : m.line.host = false) (hh : m.hint = 0) :
    let h := homeLine s m.line
    let t := applyRequest s .wr m fresh
    t.mem = s.mem ∧ (homeLine t m.line).st = 2 ∧ (∀ b < 512, lineBytes (homeLine t m.line).data b 1 =
      if m.mask.getLsbD b then lineBytes m.data b 1 else lineBytes h.data b 1) ∧ Sent t .ack (Replies m) := by
  obtain ⟨hmem, hst, hdata⟩ := applyWrite_device (s := s) (fn := m.fn) (data := m.data) (mask := m.mask) (marks := m.marks)
    (fin := m.fin) hl
  have heq : applyRequest s .wr m fresh = postReply (applyWrite s m.line m.fn m.data m.mask m.marks m.fin) .ack (replyOf m) := by
    unfold applyRequest
    rw [if_pos rfl, hh]
    rfl
  dsimp only
  rw [heq]
  have hsend := postReply_sends (applyWrite s m.line m.fn m.data m.mask m.marks m.fin) (kind := .ack) (replyOf m) rfl
  rw [hsend.homeLine]
  refine ⟨hsend.mem.trans hmem, hst, fun b hb => ?_, hsend.sent (replyOf_replies m)⟩
  rw [hdata, lineBytes_lineMerge _ _ _ hb]

/-- What an atomic leaves of a line of device memory that is not marked discarded (R273). -/
theorem applyAtom_device {s : State} {l : Line} {fn : Fn} {k : AtomKind} {ops : List LaneOp} {fin : Bool} (hl : l.host = false)
    (hd : (homeLine s l).discarded = false) : let h := homeLine s l
    let r := applyAtom s l fn k ops fin
    r.1.1 = (runOps k h.marks ops h.data).2.1 ∧ r.2.mem = s.mem ∧ (homeLine r.2 l).data = (runOps k h.marks ops h.data).1 := by
  have hmarks : (if (homeLine s l).discarded && !l.host && strictDiscard s then 15 else (homeLine s l).marks) =
      (homeLine s l).marks := by
    rw [hd]
    rfl
  unfold applyAtom
  dsimp only
  rw [hmarks]
  refine ⟨rfl, ?_⟩
  split
  case isTrue h0 => exact ⟨rfl, by rw [homeLine_setHome, runOps_of_opsMask_zero h0]⟩
  case isFalse =>
    obtain ⟨hmem, -, hdata⟩ := applyWrite_device (s := s) (fn := fn) (fin := fin) (marks := 0) hl
    exact ⟨hmem, hdata.trans (lineMerge_runOps ..)⟩

/-- An atomic writes what its operations give and is acknowledged with the old values (R273). -/
theorem applyRequest_atom {s : State} {m : Msg} {fresh : Bool} (hl : m.line.host = false)
    (hd : (homeLine s m.line).discarded = false) : let h := homeLine s m.line
    let t := applyRequest s .atom m fresh
    t.mem = s.mem ∧ (homeLine t m.line).data = (runOps m.kind h.marks m.ops h.data).1 ∧
      Sent t .ack fun r => Replies m r ∧ r.ops = (runOps m.kind h.marks m.ops h.data).2.1 := by
  have hcount : countAtom s m.line m.fn m.tclass fresh = countReq s m.fn (homeSlice m.line) m.tclass (if fresh then 2 else 1) := by
    unfold countAtom
    rw [hd]
    rfl
  unfold applyRequest
  rw [if_neg (by decide), hcount]
  generalize hu : countReq s _ _ _ _ = u
  have hline : homeLine u m.line = homeLine s m.line := by rw [← hu]; rfl
  have hmem : u.mem = s.mem := by rw [← hu]; rfl
  obtain ⟨hold, hmem', hdata⟩ := applyAtom_device (s := u) (fn := m.fn) (k := m.kind) (ops := m.ops) (fin := m.fin) hl
    (by rw [hline]; exact hd)
  rw [hline] at hold hdata
  generalize applyAtom u m.line m.fn m.kind m.ops m.fin = r at hold hmem' hdata
  have hsend := postReply_sends r.2 (kind := .ack) { replyOf m with ops := r.1.1, marks := if r.1.2 then 1 else 0 } rfl
  exact ⟨hsend.mem.trans (hmem'.trans hmem), by rw [hsend.homeLine, hdata], hsend.sent ⟨replyOf_replies m, hold⟩⟩

theorem crossCtrl_net (s : State) (slice no : Nat) (toCtrl : Bool) (vc units : Nat) :
    ∃ x, crossCtrl s slice no toCtrl vc units = { s with net := x } := by
  unfold crossCtrl
  exact crossRing_net ..

/-- A read joins a controller's queue; device memory and the caches are as before (R292). -/
theorem queueRead_fields (s : State) (slice no : Nat) (lat : Bool) :
    (queueRead s slice no lat).mem.dev = s.mem.dev ∧ (queueRead s slice no lat).coh = s.coh := by
  unfold queueRead
  generalize hu : enqueue s _ _ = u
  obtain ⟨x, hx⟩ := crossCtrl_net u slice no true (if lat then 0 else 1) 0
  rw [hx, ← hu]
  exact ⟨rfl, rfl⟩

/-- A read of an absent device line holds it BUSY until its read of memory has come (R262, R304). -/
theorem serveRd_absent {s : State} {m : Msg} (hst : (homeLine s m.line).st = 0) (hl : m.line.host = false) :
    let t := serveRd s m
    t.mem.dev = s.mem.dev ∧ (homeLine t m.line).busy = some ⟨.rd, m, [], none, some m.line.no⟩ := by
  have heq : serveRd s m = askMemory s .rd m := by
    unfold serveRd
    dsimp only
    rw [hst]
    exact if_neg (by rw [hl]; decide)
  rw [heq, askMemory]
  generalize hu : setHome s m.line _ = u
  obtain ⟨hmem, hcoh⟩ := queueRead_fields u (homeSlice m.line) m.line.no m.lat
  refine ⟨hmem.trans (by rw [← hu]; rfl), ?_⟩
  rw [homeLine_of_home (congrArg CohState.home hcoh), ← hu, homeLine_setHome]

/-! ## Serving a request -/

section
variable {s : State} {m : Msg} {h : HomeLine}

theorem homeLine_checkCore (s : State) (m : Msg) (l : Line) : homeLine (checkCore s m) l = homeLine s l :=
  homeLine_of_home (congrArg CohState.home (checkCore_mem_coh s m).2) l

theorem serve_rd_absent (hh : homeLine s m.line = h) (hst : h.st = 0) (hl : m.line.host = false) :
    let t := serve s .rd m
    t.mem.dev = s.mem.dev ∧ (homeLine t m.line).busy = some ⟨.rd, m, [], none, some m.line.no⟩ := by
  subst hh
  rw [← homeLine_checkCore s m] at hst
  obtain ⟨hdev, hbusy⟩ := serveRd_absent hst hl
  exact ⟨hdev.trans (congrArg MemState.dev (checkCore_mem_coh s m).1), hbusy⟩

theorem serve_rd (hh : homeLine s m.line = h) (hst : h.st = 1 ∨ h.st = 2) (hd : h.discarded = false) :
    let t := serve s .rd m
    t.mem = s.mem ∧ (homeLine t m.line).data = h.data ∧ (homeLine t m.line).st = h.st ∧
      Sent t .data fun r => Replies m r ∧ r.data = h.data ∧ r.marks = h.marks := by
  rw [← homeLine_checkCore s m] at hh
  subst hh
  have hserve : serve s .rd m = answerRead (checkCore s m) m false := serveRd_held hst
  rw [hserve]
  obtain ⟨hmem, hline⟩ := answerRead_sends (fresh := false) hd
  exact ⟨hmem.trans (checkCore_mem_coh s m).1, hline⟩

theorem serve_rdo (hh : homeLine s m.line = h) (hst : h.st = 1 ∨ h.st = 2) (hp : h.presence = 0) :
    let t := serve s .rdo m
    t.mem = s.mem ∧ (homeLine t m.line).st = 3 ∧ (homeLine t m.line).presence = setBit 0 (agentPlace m.src) true ∧
      Sent t .grant fun r => Replies m r ∧ r.data = h.data ∧ r.marks = h.marks := by
  rw [← homeLine_checkCore s m] at hh
  subst hh
  have hserve : serve s .rdo m = grantLine (countHome (checkCore s m) m.fn m.tclass m.line) m := serveRdo_held hst hp
  rw [hserve]
  obtain ⟨hmem, hline⟩ := grantLine_grants (countHome (checkCore s m) m.fn m.tclass m.line) m
  exact ⟨hmem.trans (checkCore_mem_coh s m).1, hline⟩

theorem serve_wr (hh : homeLine s m.line = h) (hst : h.st = 1 ∨ h.st = 2) (hp : h.presence = 0) (hl : m.line.host = false)
    (hint : m.hint = 0) : let t := serve s .wr m
    t.mem = s.mem ∧ (homeLine t m.line).st = 2 ∧ (∀ b < 512, lineBytes (homeLine t m.line).data b 1 =
      if m.mask.getLsbD b then lineBytes m.data b 1 else lineBytes h.data b 1) ∧ Sent t .ack (Replies m) := by
  rw [← homeLine_checkCore s m] at hh
  subst hh
  have hserve : serve s .wr m = applyRequest (countHome (checkCore s m) m.fn m.tclass m.line) .wr m false := serveUpdate_held hst hp
  rw [hserve]
  obtain ⟨hmem, hline⟩ := applyRequest_wr (s := countHome (checkCore s m) m.fn m.tclass m.line) (fresh := false) hl hint
  exact ⟨hmem.trans (checkCore_mem_coh s m).1, hline⟩

theorem serve_atom (hh : homeLine s m.line = h) (hst : h.st = 1 ∨ h.st = 2) (hp : h.presence = 0) (hl : m.line.host = false)
    (hd : h.discarded = false) : let t := serve s .atom m
    t.mem = s.mem ∧ (homeLine t m.line).data = (runOps m.kind h.marks m.ops h.data).1 ∧
      Sent t .ack fun r => Replies m r ∧ r.ops = (runOps m.kind h.marks m.ops h.data).2.1 := by
  rw [← homeLine_checkCore s m] at hh
  subst hh
  have hserve : serve s .atom m = applyRequest (checkCore s m) .atom m false := serveUpdate_held hst hp
  rw [hserve]
  obtain ⟨hmem, hline⟩ := applyRequest_atom (fresh := false) hl hd
  exact ⟨hmem.trans (checkCore_mem_coh s m).1, hline⟩

end

/-! ## A request picked up -/

/-- A request picked up keeps everything but its number; the network loses it or its sender keeps it, and nothing else changes
(R340). -/
theorem pickUp_msg (s : State) (kind : MsgKind) (m : Msg) : ∃ seq, (pickUp s kind m).1 = { m with seq := seq } := by
  unfold pickUp
  split
  · exact ⟨m.seq, rfl⟩
  · exact ⟨_, rfl⟩

/-- What picking a request up leaves: memory, objects, and the caches but for what is in flight. -/
structure PickedUp (s u : State) : Prop where
  mem : u.mem = s.mem
  dict : u.dict = s.dict
  grade : u.grade = s.grade
  done : u.net.e2eDone = s.net.e2eDone
  coh : ∃ net, u.coh = { s.coh with net := net }

theorem pickUp_pickedUp (s : State) (kind : MsgKind) (m : Msg) : PickedUp s (pickUp s kind m).2 := by
  unfold pickUp
  split
  · unfold taken
    split <;> exact ⟨rfl, rfl, rfl, rfl, _, rfl⟩
  · exact ⟨rfl, rfl, rfl, rfl, _, rfl⟩

namespace PickedUp
variable {s u : State}

theorem home (h : PickedUp s u) : u.coh.home = s.coh.home := by
  obtain ⟨net, hnet⟩ := h.coh
  rw [hnet]

theorem conflictQ (h : PickedUp s u) : u.coh.conflictQ = s.coh.conflictQ := by
  obtain ⟨net, hnet⟩ := h.coh
  rw [hnet]

theorem raceMode (h : PickedUp s u) : u.coh.raceMode = s.coh.raceMode := by
  obtain ⟨net, hnet⟩ := h.coh
  rw [hnet]

theorem homeLine (h : PickedUp s u) (l : Line) : homeLine u l = homeLine s l := homeLine_of_home h.home l

theorem keptReply (h : PickedUp s u) (kind : MsgKind) (m : Msg) : keptReply u kind m = keptReply s kind m := by
  unfold Machine.keptReply
  rw [h.done]

theorem inProgress (h : PickedUp s u) (m : Msg) : inProgress u m = inProgress s m := by
  obtain ⟨net, hnet⟩ := h.coh
  unfold Machine.inProgress
  rw [h.homeLine, hnet]

end PickedUp

/-! ## A request at its home -/

/-- The row of a request that may reach its home completes there. -/
theorem exec_requestRow {i : Instr} {kind : MsgKind} {m : Msg} {s : State} (hi : requestRow i = some (kind, m))
    (hm : MayRequest s kind m) : exec i s = .next (onRequest (pickUp s kind m).2 kind (pickUp s kind m).1) := by
  obtain ⟨hok, hrdo⟩ := hm
  unfold requestRow at hi
  split at hi <;> cases hi
  case h_2 =>
    obtain ⟨hhost, hport, hways⟩ := hrdo rfl
    exact guarded_true _ (by simp [hok, hhost, hport, hways])
  all_goals exact guarded_true _ hok

/-- A request about a BUSY line conflicts (R268 to R270): it queues, or is refused. -/
theorem reachHome_busy {s : State} {kind : MsgKind} {m : Msg} {port : Fin 4} (hb : (homeLine s m.line).busy.isSome = true) :
    let t := reachHome s kind m port
    t.mem = s.mem ∧ t.coh.home = s.coh.home ∧
      t.obj 0x3072 1 (homeSlice m.line) = satAdd 64 (s.obj 0x3072 1 (homeSlice m.line)) 1 ∧
      if s.coh.raceMode = 0 ∨ m.credited = true then t.coh.conflictQ = s.coh.conflictQ ++ [⟨kind, m⟩]
      else t.coh.conflictQ = s.coh.conflictQ ∧ Sent t .retry (Replies m) := by
  have hsl : homeSlice m.line < 2 ^ 20 := (homeSlice_lt _).trans (by decide)
  have hline : lineBusy s m.line = true := hb
  by_cases hq : s.coh.raceMode = 0 ∨ m.credited = true
  · have heq : reachHome s kind m port = _ := (if_pos hline).trans (if_pos hq)
    dsimp only
    rw [heq, if_pos hq]
    exact ⟨rfl, rfl, (State.obj_eq_of_dict rfl rfl _ _ _).trans (State.obj_setObj_same s 0x3072 1 (homeSlice m.line) _), rfl⟩
  · have heq : reachHome s kind m port = _ := (if_pos hline).trans (if_neg hq)
    dsimp only
    rw [heq, if_neg hq]
    generalize hu : State.bump _ 0x3072 3 (homeSlice m.line) 1 = u
    have hobj : u.obj 0x3072 1 (homeSlice m.line) = satAdd 64 (s.obj 0x3072 1 (homeSlice m.line)) 1 := by
      rw [← hu, State.bump, State.obj_setObj _ _ (by decide) (by decide) hsl hsl, if_neg (by simp)]
      exact State.obj_setObj_same ..
    have hcoh : u.coh = s.coh := by rw [← hu]; rfl
    have hmem : u.mem = s.mem := by rw [← hu]; rfl
    have hsend := postReply_sends { u with coh := { u.coh with refused := u.coh.refused ++ [⟨port, kind, m, false⟩] } }
      (kind := .retry) (replyOf m) rfl
    refine ⟨hsend.mem.trans hmem, (show _ = u.coh.home from hsend.home).trans (congrArg _ hcoh), ?_, ?_, hsend.sent (replyOf_replies m)⟩
    · exact (State.obj_eq_of_dict hsend.dict hsend.grade _ _ _).trans hobj
    · rw [hsend.coh, ← hcoh]

/-- A request about an idle line is served once its bound is checked (R69, R268). -/
theorem reachHome_idle {s : State} {kind : MsgKind} {m : Msg} {port : Fin 4} (hb : (homeLine s m.line).busy = none) :
    reachHome s kind m port = serve s kind m :=
  if_neg (by simp [lineBusy, hb])

/-- What a home does with a packet whose reply it keeps, that it works on, or that comes for the first time (R341). -/
theorem once_of_kept {s t : State} {kind : MsgKind} {m : Msg} {r : E2eReply} (h : keptReply s kind m = some r) :
    once s kind m t = launch s r.kind r.reply := by rw [once, h]

theorem once_of_inProgress {s t : State} {kind : MsgKind} {m : Msg} (h : keptReply s kind m = none) (hp : inProgress s m = true) :
    once s kind m t = s := by
  rw [once, h]
  exact if_pos hp

theorem once_of_firstTime {s t : State} {kind : MsgKind} {m : Msg} (h : FirstTime s kind m) : once s kind m t = t := by
  rw [once, h.1]
  exact if_neg (by simp [h.2])

/-- Settles O38, clause by clause: picking the request up (`PickedUp`) and checking its bound leave memory and the home lines, and the
home serves it. -/
theorem homesServeRequests : Obligations.HomesServeRequests := by
  unfold Obligations.HomesServeRequests
  intro i kind m s hi hm h p
  have hexec : exec i s = .next (onRequest _ kind p) := exec_requestRow hi hm
  have hin : inFlight s kind m = true → p = m := fun hf => congrArg Prod.fst (if_pos hf)
  have hnow : inFlight s kind m = false → p = { m with seq := sget (fun _ => 0) s.net.e2eSeq (m.src * 1024 + m.dst) } :=
    fun hf => congrArg Prod.fst (if_neg (by simp [hf]))
  have hu := pickUp_pickedUp s kind m
  obtain ⟨seq, hp⟩ : ∃ seq, p = { m with seq := seq } := pickUp_msg s kind m
  clear_value p
  generalize (pickUp s kind m).2 = u at hexec hu
  refine ⟨⟨_, hexec⟩, hin, hnow, ?_⟩
  subst hp
  have hh : homeLine u m.line = h := hu.homeLine m.line
  have hreach (hf : FirstTime s kind { m with seq := seq }) :
      exec i s = .next (reachHome u kind { m with seq := seq } ((portOf m.src).getD 0)) := by
    rw [hexec, onRequest, once_of_firstTime ⟨(hu.keptReply kind _).trans hf.1, (hu.inProgress _).trans hf.2⟩]
  have hserve (hf : FirstTime s kind { m with seq := seq }) (hb : h.busy = none) :
      exec i s = .next (serve u kind { m with seq := seq }) :=
    (hreach hf).trans (congrArg _ (reachHome_idle ((congrArg HomeLine.busy hh).trans hb)))
  refine ⟨fun r hr => ?again, fun hk hw => ?dropped, fun hf hb => ?busy, fun hf hb hst hl hk => ?absent,
    fun hf hb hst => ⟨fun hk hd => ?rd, fun hpres hl => ⟨fun hk => ?rdo, fun hk hint => ?wr, fun hk hd => ?atom⟩⟩⟩
  case again =>
    have hsend := launch_sends u r.kind r.reply
    exact ⟨_, hexec.trans (congrArg _ (once_of_kept ((hu.keptReply kind _).trans hr))), hsend.mem.trans hu.mem,
      hsend.home.trans hu.home, hsend.sent rfl⟩
  case dropped =>
    exact ⟨_, hexec.trans (congrArg _ (once_of_inProgress ((hu.keptReply kind _).trans hk) ((hu.inProgress _).trans hw))),
      hu.mem, hu.home, hu.conflictQ⟩
  case busy =>
    obtain ⟨hmem, hhome, hobj, hq⟩ := reachHome_busy (s := u) (kind := kind) (m := { m with seq := seq })
      (port := (portOf m.src).getD 0) (by rw [hh]; exact hb)
    rw [State.obj_eq_of_dict hu.dict hu.grade] at hobj
    rw [hu.raceMode, hu.conflictQ] at hq
    exact ⟨_, hreach hf, hmem.trans hu.mem, hhome.trans hu.home, hobj, hq⟩
  case absent =>
    subst hk
    obtain ⟨hdev, hbusy⟩ := serve_rd_absent (m := { m with seq := seq }) hh hst hl
    exact ⟨_, _, hserve hf hb, hdev.trans (congrArg MemState.dev hu.mem), hbusy, rfl, rfl, rfl⟩
  case rd =>
    subst hk
    obtain ⟨hmem, hline⟩ := serve_rd (m := { m with seq := seq }) hh hst hd
    exact ⟨_, hserve hf hb, hmem.trans hu.mem, hline⟩
  case rdo =>
    subst hk
    obtain ⟨hmem, hline⟩ := serve_rdo (m := { m with seq := seq }) hh hst hpres
    exact ⟨_, hserve hf hb, hmem.trans hu.mem, hline⟩
  case wr =>
    subst hk
    obtain ⟨hmem, hline⟩ := serve_wr (m := { m with seq := seq }) hh hst hpres hl hint
    exact ⟨_, hserve hf hb, hmem.trans hu.mem, hline⟩
  case atom =>
    subst hk
    obtain ⟨hmem, hline⟩ := serve_atom (m := { m with seq := seq }) hh hst hpres hl hd
    exact ⟨_, hserve hf hb, hmem.trans hu.mem, hline⟩

end Sys2Proof.Machine
end

section
/-!
O33: CACHE_OP commands and what they do to their lines (R231 to R235, R240).
-/
namespace Sys2Proof.Machine
open Sys2Proof.Claims

/-! ## The rows of CACHE_OP -/

/-- Each row of a CACHE_OP runs its operation by number. -/
theorem exec_cacheRow {c : CmdRef} {work : SliceWork} {i : Instr} {op : Nat}
    (hi : (i, op) = (.pin c work, 1) ∨ (i, op) = (.unpin c work, 2) ∨ (i, op) = (.prefetch c work, 3) ∨
      (i, op) = (.writeBack c work, 4) ∨ (i, op) = (.discard c work, 5)) (s : State) : exec i s = cacheOp s c op work := by
  rcases hi with h | h | h | h | h <;> cases h <;> rfl

theorem cacheOp_startable {c : CmdRef} {work : SliceWork} {s : State} {x : Step} {y : Cmd} {op : Nat}
    (h : startable s c 6 = some (x, y)) (he : earlierDone x c.cmd = true) (hop : y.field 0xC 1 = op) :
    cacheOp s c op work = cacheSlice (beginCmd s c x) c x y s.now work := by
  rw [cacheOp, h]
  exact if_pos (by simp [he, hop])

/-- An operation that has done all its code pages is done, but for a write back whose writes memory has not done (R231). -/
theorem endCacheOp_done {c : CmdRef} {s : State} {y : Cmd} {p : CmdPhase} (hp : cmdPhase s c = some p)
    (h : y.field 0xC 1 ≠ 4 ∨ writesWait s (y.tally.headD s.stamp) = false) : cmdPhase (endCacheOp s c y) c = some .done := by
  rw [cmdPhase_eq] at hp
  obtain ⟨z, hz, -⟩ := Option.map_eq_some_iff.mp hp
  have hslice : ∃ w, cmdAt (setSlice s c none) c = some w :=
    ⟨_, (cmdAt_onCmd s c fun q => { q with sliceNs := none }).trans (by rw [hz, Option.map_some])⟩
  obtain ⟨w, hw⟩ := hslice
  have hend : endCacheOp s c y = setPhase (setSlice s c none) c.step c.cmd .done := by
    unfold endCacheOp
    refine if_neg fun ⟨hop, hwait⟩ => ?_
    rcases h with h | h
    · exact h hop
    · cases ht : y.tally <;> rw [ht] at h hwait <;> exact absurd (h.symm.trans hwait) (by decide)
  rw [hend]
  exact cmdPhase_setPhase hw .done

/-! ## An access that may be made now -/

/-- An access to a line of no transaction finds it as it stands. -/
theorem settle_of_settled {s : State} {l : Line} (h : settled s l = true) : settle s l = s := by
  have hb : lineBusy s l = false := by
    simp only [settled, Bool.and_eq_true, Bool.not_eq_true'] at h
    exact h.1
  have hc : countConflict s l = s := if_neg (by simp [hb])
  unfold settle
  dsimp only
  rw [hc, Nat.add_comm 64, settleGo]
  exact if_pos h

/-- A cached translation that the tables give is used. -/
theorem translate_cached {s : State} {src : Nat} {lat : Bool} {fn : Fn} {va e : Nat}
    (he : sget (fun _ => 0) s.host.tlb (tlbKey fn.val va) = e) (h0 : e ≠ 0) (hw : walkGives (walkNow s fn.val va) e = true) :
    translate s src lat fn va = (.ok (frameOf e), s) := by
  unfold translate
  dsimp only
  rw [he, if_neg h0, if_pos hw]

theorem vline_of_touchableNow {s : State} {x : Access} {va : Nat} {write : Bool} (h : TouchableNow s x.fn va write) :
    ∃ l, vline s x va write = (.ok l, checkResidency s x.key l) := by
  obtain ⟨hwin, h0, hwalk, hwrite, hset⟩ := h
  generalize he : sget (fun _ => 0) s.host.tlb (tlbKey x.fn.val va) = e at h0 hwalk hwrite hset
  have hperm : (write && !(frameOf e).writable) = false := by
    cases write
    · rfl
    · simp [frameOf, hwrite rfl]
  have hidle : lineBusy s ((frameOf e).line va) = false := by
    simp only [settled, Bool.and_eq_true, Bool.not_eq_true'] at hset
    exact hset.1
  refine ⟨(frameOf e).line va, ?_⟩
  unfold vline
  rw [hwin]
  simp only [translate_cached he h0 hwalk, hperm, settle_of_settled hset, hidle, Bool.false_eq_true, if_false]

/-- An operation on one line that may be touched now does it. -/
theorem eachLine_touchable {x : Access} {errs : List (Nat × ArrayErr)} {write skip : Bool} {f : State → Nat → Line → State}
    {s : State} {va : Nat} (h : TouchableNow s x.fn va write) : ∃ a, eachLine x errs write skip f [va] s = (.all, a) := by
  obtain ⟨l, hl⟩ := vline_of_touchableNow h
  exact ⟨_, by rw [eachLine, hl]; rfl⟩

/-! ## Pins -/

theorem pinCounts_coh (s : State) (h : HomeLine) (add : Bool) : (pinCounts s h add).coh = s.coh := by
  unfold pinCounts
  refine List.foldlRecOn (motive := fun t : State => t.coh = s.coh) _ _ rfl fun t ht p _ => ?_
  dsimp only
  split <;> exact ht

@[simp] theorem homeLine_setPins (s : State) (l : Line) (h : HomeLine) : homeLine (setPins s l h) l = h := homeLine_setHome ..

theorem sum_addRef (fn : Fn) (l : List (Fn × Nat)) : ((addRef fn l).map Prod.snd).sum = (l.map Prod.snd).sum + 1 := by
  induction l with
  | nil => rfl
  | cons p t ih =>
    unfold addRef
    split
    · simp only [List.map_cons, List.sum_cons]
      omega
    · simp only [List.map_cons, List.sum_cons, ih]
      omega

/-- What a pin of a resident line below 15 references leaves of the line (R234). -/
theorem homeLine_pinLine {fn : Fn} {s : State} {l : Line} (hst : (homeLine s l).st ≠ 0) (hc : (homeLine s l).pinCount < 15) :
    ∃ soft pinAt, homeLine (pinLine fn s l) l =
      { homeLine s l with pins := addRef fn (homeLine s l).pins, soft := soft, pinAt := pinAt } := by
  unfold pinLine
  simp only [if_neg hst, if_neg (Nat.not_le.mpr hc)]
  exact ⟨_, _, (homeLine_of_home rfl l).trans (homeLine_setPins ..)⟩

theorem pinLine_adds {fn : Fn} {s : State} {l : Line} (hst : (homeLine s l).st ≠ 0) (hc : (homeLine s l).pinCount < 15) :
    (homeLine (pinLine fn s l) l).pinCount = (homeLine s l).pinCount + 1 ∧
      (homeLine (pinLine fn s l) l).data = (homeLine s l).data := by
  obtain ⟨soft, pinAt, h⟩ := homeLine_pinLine (fn := fn) hst hc
  rw [h]
  exact ⟨sum_addRef fn _, rfl⟩

/-- A pin of a resident line of 15 references is refused and counted (R234). -/
theorem pinLine_refused {fn : Fn} {s : State} {l : Line} (hst : (homeLine s l).st ≠ 0) (hc : 15 ≤ (homeLine s l).pinCount) :
    pinLine fn s l = s.bump 0x7040 5 fn.val 1 := by
  unfold pinLine
  simp only [if_neg hst, if_pos hc]

/-! ## What waits at a controller -/

theorem queueWrite_eq (s : State) (slice no : Nat) (d : LineData) (m : Marks) :
    ∃ x, queueWrite s slice no d m = { enqueue s 2 (lineOp s .write no d m false) with net := x } := crossCtrl_net ..

theorem queueMark_eq (s : State) (no : Nat) :
    ∃ x, queueMark s no = { enqueue s 2 (lineOp s .mark no 0 0 false) with net := x } := crossCtrl_net ..

/-- The last operation of a list that a filter keeps stays last. -/
theorem getLast?_filter_concat {α : Type} {p : α → Bool} (a b : List α) {o : α} (h : p o = true) :
    ((a ++ (b ++ [o])).filter p).getLast? = some o := by
  rw [← List.append_assoc, List.filter_append, List.filter_cons_of_pos h, List.filter_nil, List.getLast?_concat]

theorem ctrlOf_enqueue (s : State) (q : Nat) (o : CtrlOp) :
    ctrlOf (enqueue s q o) (chanOf s o.line) = (ctrlOf s (chanOf s o.line)).put q o := sget_sset_same ..

/-- A write that joins the WR queue is the last of its line that waits. -/
theorem pendingWrite_enqueue {s : State} {o : CtrlOp} (h : o.kind = .write) : pendingWrite (enqueue s 2 o) o.line = some o := by
  have hc : ctrlOf (enqueue s 2 o) (chanOf (enqueue s 2 o) o.line) = (ctrlOf s (chanOf s o.line)).put 2 o := ctrlOf_enqueue ..
  unfold pendingWrite
  rw [hc]
  exact getLast?_filter_concat _ _ (by simp [h])

theorem pendingOp_enqueue_mark {s : State} {o : CtrlOp} (h : o.kind = .mark) : pendingOp (enqueue s 2 o) o.line = some o := by
  have hc : ctrlOf (enqueue s 2 o) (chanOf (enqueue s 2 o) o.line) = (ctrlOf s (chanOf s o.line)).put 2 o := ctrlOf_enqueue ..
  unfold pendingOp
  rw [hc]
  exact getLast?_filter_concat _ _ (by simp [h])

/-- A line that its home has sent to a working channel reads as it was sent (R306). -/
theorem ctrlRead_queueWrite {s : State} {slice no : Nat} {d : LineData} {m : Marks} (h : pageLost s no = false) :
    ctrlRead (queueWrite s slice no d m) no = (d, m) := by
  obtain ⟨x, hx⟩ := queueWrite_eq s slice no d m
  have hw : pendingWrite (queueWrite s slice no d m) no = some (lineOp s .write no d m false) := by
    rw [hx]
    exact pendingWrite_enqueue (o := lineOp s .write no d m false) rfl
  have hl : pageLost (queueWrite s slice no d m) no = false := by
    rw [hx]
    exact h
  rw [ctrlRead, hl, hw]
  rfl

/-! ## Write back and discard -/

/-- A home that writes a line of no replicated region sends it to one controller. -/
theorem homeWrite_unreplicated {s : State} {no : Nat} {d : LineData} {m : Marks} (h : replicaOf s no = none) :
    homeWrite s no d m = queueWrite s (sliceOfNo no) no d m := by
  have hr : replicaOf (queueWrite s (sliceOfNo no) no d m) no = none := by
    obtain ⟨x, hx⟩ := queueWrite_eq s (sliceOfNo no) no d m
    rw [hx]
    exact h
  unfold homeWrite
  dsimp only
  rw [hr]

theorem writeBackLine_dirty {s : State} {l : Line} (hst : (homeLine s l).st = 2) (hl : l.host = false) :
    writeBackLine s l =
      setHome (homeWrite s l.no (homeLine s l).data (homeLine s l).marks) l { homeLine s l with st := 1 } := by
  unfold writeBackLine
  simp only [hl, hst, Bool.false_eq_true, if_false, if_true, show ¬(2 = 3) by decide]

/-- A write back of a dirty line leaves it clean, and its controller holds it (R231). -/
theorem writeBackLine_cleans {s : State} {l : Line} (hst : (homeLine s l).st = 2) (hl : l.host = false)
    (hr : replicaOf s l.no = none) (hp : pageLost s l.no = false) :
    (homeLine (writeBackLine s l) l).st = 1 ∧ (homeLine (writeBackLine s l) l).data = (homeLine s l).data ∧
      ctrlRead (writeBackLine s l) l.no = ((homeLine s l).data, (homeLine s l).marks) := by
  rw [writeBackLine_dirty hst hl, homeLine_setHome, homeWrite_unreplicated hr]
  exact ⟨rfl, rfl, ctrlRead_queueWrite hp⟩

theorem dropPlace_mem (s : State) (l : Line) (n : Nat) : (dropPlace s l n).mem = s.mem := by
  unfold dropPlace
  split
  · dsimp only [setNear]
  · split
    · rfl
    · exact State.setCore_mem ..

theorem dropPlaces_mem (s : State) (l : Line) (p : BitVec 292) : (dropPlaces s l p).mem = s.mem := by
  unfold dropPlaces
  exact List.foldlRecOn (motive := fun t : State => t.mem = s.mem) _ _ rfl fun t ht b _ => (dropPlace_mem t l b).trans ht

theorem discardLine_resident {s : State} {l : Line} (hst : (homeLine s l).st ≠ 0) (hl : l.host = false) :
    discardLine s l = setHome (dropPlaces s l (homeLine s l).presence) l
      { homeLine s l with st := 1, presence := 0, discarded := true } := by
  unfold discardLine
  simp only [if_neg hst, hl, Bool.false_eq_true, if_false]

/-- A discard of an absent device line leaves the mark at its controller (R240). -/
theorem discardLine_absent {s : State} {l : Line} (hst : (homeLine s l).st = 0) (hl : l.host = false) :
    memDiscard (discardLine s l) l.no = true := by
  have hd : discardLine s l = queueMark s l.no := by
    unfold discardLine
    simp only [if_pos hst, hl, Bool.false_eq_true, if_false]
  obtain ⟨x, hx⟩ := queueMark_eq s l.no
  have hp : pendingOp (queueMark s l.no) l.no = some (lineOp s .mark l.no 0 0 false) := by
    rw [hx]
    exact pendingOp_enqueue_mark (o := lineOp s .mark l.no 0 0 false) rfl
  rw [hd, memDiscard, hp]
  rfl

/-- Settles O33: each row is the slice of its operation over its lines; a line that may be touched is done; and the lines by
operation. -/
theorem cacheOperations : Obligations.CacheOperations := by
  unfold Obligations.CacheOperations
  have hrow : ∀ (c : CmdRef) (work : SliceWork) (s : State) (x : Step) (y : Cmd) (i : Instr) (op : Nat),
      startable s c 6 = some (x, y) → earlierDone x c.cmd = true → y.field 0xC 1 = op →
      (i, op) = (.pin c work, 1) ∨ (i, op) = (.unpin c work, 2) ∨ (i, op) = (.prefetch c work, 3) ∨
        (i, op) = (.writeBack c work, 4) ∨ (i, op) = (.discard c work, 5) →
      exec i s = cacheSlice (beginCmd s c x) c x y s.now work := fun c work s x y i op h he hop hi =>
    (exec_cacheRow hi s).trans (cacheOp_startable h he hop)
  refine ⟨?slice, ?oneLine, fun c s y p => endCacheOp_done, fun fn s l => ⟨pinLine_adds, fun hst hc => ?refused,
    writeBackLine_cleans, fun hst hl => ?discard, discardLine_absent⟩⟩
  case slice =>
    intro c work s x y i op h he hop hi b acc left vas hw
    rw [hrow c work s x y i op h he hop hi, cacheSlice, if_pos hw]
    subst hop
    dsimp only
    generalize hr : eachLine _ _ _ _ _ _ (beginCmd s c x) = r
    obtain ⟨ran, a⟩ := r
    cases ran <;> rfl
  case oneLine =>
    intro c work s x y i op va h he hop hi hw hu hp ht
    rw [hrow c work s x y i op h he hop hi, cacheSlice, if_pos hw]
    have hvas : (List.range work.units).flatMap (fun n => pageLines (y.field 0x10 8) (y.field 0x18 8) (y.units + n)) = [va] := by
      rw [hu]
      simp [hp]
    subst hop
    dsimp only
    rw [hvas]
    obtain ⟨a, ha⟩ := eachLine_touchable (x := { cmdAccess (agentHome ((placeOf (beginCmd s c x) c).elim 0 fun p => p.die.val)) x y
      with lat := false }) (errs := work.errs) (skip := decide (y.field 0xC 1 = 3)) (f := cacheAct x y) ht
    rw [ha]
    exact ⟨_, rfl⟩
  case refused =>
    rw [pinLine_refused hst hc]
    exact ⟨rfl, State.obj_setObj_same ..⟩
  case discard =>
    rw [discardLine_resident hst hl, homeLine_setHome]
    exact ⟨rfl, rfl, rfl, fun a => congrArg (fun m : MemState => memGet m.dev a) (dropPlaces_mem s l _)⟩

end Sys2Proof.Machine
end

section
/-!
Writes of the PF to the dictionary: what a row of a write answers where it stands in the PF's window, and what its effect leaves
(R441, R446).
-/
namespace Sys2Proof.Machine
open Sys2Proof.Claims

/-! ## Replies in a window -/

/-- A state as another one but for the registers, where a reply shows. -/
structure OnlyRegs (s t : State) : Prop where
  now : t.now = s.now
  grade : t.grade = s.grade
  dict : t.dict = s.dict
  coh : t.coh = s.coh
  mem : t.mem = s.mem
  host : t.host = s.host
  mgmt : t.mgmt = s.mgmt
  ctl : t.ctl = s.ctl

theorem OnlyRegs.obj {s t : State} (h : OnlyRegs s t) (i sub e : Nat) : t.obj i sub e = s.obj i sub e :=
  State.obj_eq_of_dict h.dict h.grade i sub e

theorem OnlyRegs.thenSetReg {s t : State} (h : OnlyRegs s t) (f off v : Nat) : OnlyRegs s (t.setReg f off v) :=
  ⟨h.now, h.grade, h.dict, h.coh, h.mem, h.host, h.mgmt, h.ctl⟩

/-- A reply in a window changes registers alone. -/
theorem windowReply_onlyRegs (s : State) (f : Nat) (p : DictReply) : OnlyRegs s (windowReply s f p) := by
  unfold windowReply
  extract_lets msg t u v
  have ht : OnlyRegs s t := List.foldlRecOn (motive := OnlyRegs s) _ _ ⟨rfl, rfl, rfl, rfl, rfl, rfl, rfl, rfl⟩
    fun _ h _ _ => h.thenSetReg ..
  exact (ht.thenSetReg ..).thenSetReg ..

/-- A window with a reply shows its status, and BUSY is 0 (R446). -/
theorem windowReply_answered (s : State) (f : Fn) (p : DictReply) (h : p.status < 256) :
    Answered (windowReply s f.val p) f p.status := by
  unfold Answered windowReply
  dsimp only
  rw [State.reg_setReg_same]
  refine ⟨?_, (bits_putBits_same ..).trans (Nat.mod_eq_of_lt h)⟩
  rw [bit, testBit_putBits, if_neg (by decide), testBit_putBits, if_pos (by decide)]
  rfl

/-! ## A write that the primary makes -/

/-- An object that takes a write of `n` bytes: it is writable in every state of a released module. -/
def writable (idx sub n : Nat) (o : Obj) : Bool :=
  decide (findObj idx sub = some o) && decide (idx < 2 ^ 16) && decide (sub < 2 ^ 8) &&
    (decide (o.acc = 1) || decide (o.acc = 2)) && lengthOk o n

/-- Whether the write stays within the object (R441). -/
def within (s : State) (o : Obj) (off n : Nat) : Prop :=
  off < 2 ^ 32 ∧ (counted o = false → off = 0) ∧ (counted o = true → off + n / o.esize ≤ o.len s.grade)

/-- What a write of elements `l` to an object answers: RANGE, or what the object's own rule answers. -/
def written (s : State) (o : Obj) (off n v : Nat) (l : List (Nat × Nat)) : Answer :=
  if l.any fun p => decide (p.2 < o.lo) || decide (o.hi < p.2) then (stRange, s)
  else writeObj s (.window 0) o.key off (n / o.esize) v l

/-- Where gate and range let a write of the PF pass, it is made (R441). -/
theorem handle_writeReq {s : State} {idx sub off n v : Nat} {o : Obj} (ho : writable idx sub n o = true)
    (hin : within s o off n) (hgate : gate s 2 (idx * 256 + sub) v = none) :
    let a := written s o off n v (writeElems o (writeReq idx sub off n v))
    ∃ p, handle s (.window 0) (writeReq idx sub off n v) = (p, a.2) ∧ p.status = a.1 := by
  simp only [writable, Bool.and_eq_true, decide_eq_true_eq, Bool.or_eq_true] at ho
  obtain ⟨⟨⟨⟨hfind, hidx⟩, hsub⟩, hacc⟩, hlen⟩ := ho
  obtain ⟨hoff, hscalar, harray⟩ := hin
  have hi : (writeReq idx sub off n v).index.toNat = idx := Nat.mod_eq_of_lt hidx
  have hs : (writeReq idx sub off n v).sub.toNat = sub := Nat.mod_eq_of_lt hsub
  have hofs : (writeReq idx sub off n v).offset.toNat = off := Nat.mod_eq_of_lt hoff
  have hbody : reqBody (writeReq idx sub off n v) = n := Nat.add_sub_cancel_left 16 n
  have haway : turnedAway s (.window 0) (writeReq idx sub off n v) = none := by
    have hg : gate s (writeReq idx sub off n v).op.toNat (idx * 256 + sub) (writeReq idx sub off n v).body = none := hgate
    rw [turnedAway, reqKey, hi, hs, hg]
    rfl
  have hcnt : ¬((counted o = false ∧ off ≠ 0) ∨ (counted o = true ∧ o.len s.grade < off + n / o.esize)) := by
    rintro (⟨hc, h0⟩ | ⟨hc, hl⟩)
    · exact h0 (hscalar hc)
    · exact Nat.not_lt.mpr (harray hc) hl
  have hhandle : handle s (.window 0) (writeReq idx sub off n v) = doWrite s (.window 0) (writeReq idx sub off n v) o := by
    have hobj : handleObject s (.window 0) (writeReq idx sub off n v) = doWrite s (.window 0) (writeReq idx sub off n v) o := by
      unfold handleObject
      rw [if_neg (fun h => h.1 rfl), hi, hs, hfind]
      dsimp only
      rw [hbody, hlen, if_neg (fun h => Bool.noConfusion h.2), haway]
      rfl
    have hraw : ¬(writeReq idx sub off n v).raw < 16 := Nat.not_lt.mpr (Nat.le_add_right ..)
    unfold handle
    rw [if_neg hraw, if_neg (by simp [writeReq]), if_neg (by simp [headerBad, writeReq]), if_neg (by simp [writeReq])]
    exact hobj
  have hro : o.acc ≠ 0 ∧ ¬(o.acc = 3 ∧ s.moduleState ≠ 2) := by rcases hacc with h | h <;> simp [h]
  rw [hhandle]
  unfold doWrite
  dsimp only
  rw [if_neg hro.1, if_neg hro.2, hofs, hbody, if_neg hcnt, written]
  split
  · exact ⟨_, rfl, rfl⟩
  · exact ⟨_, rfl, rfl⟩

/-! ## Rows of writes in the PF's window -/

/-- An outcome is that of a write that stands in the PF's window. -/
structure PfRow (s : State) (x : Out) (idx sub off n v : Nat) : Prop where
  row : x = ownWrite (.window 0) idx sub off n v s
  served : served s = true
  asks : windowAsks s 0 (writeReq idx sub off n v) = true

/-- A write that stands in the PF's window answers as its object's rule does. -/
theorem PfRow.answers {s : State} {x : Out} {idx sub off n v : Nat} {o : Obj} (h : PfRow s x idx sub off n v)
    (ho : writable idx sub n o = true) (hin : within s o off n) (hgate : gate s 2 (idx * 256 + sub) v = none)
    {l : List (Nat × Nat)} (hl : writeElems o (writeReq idx sub off n v) = l) {a : Answer} (ha : written s o off n v l = a)
    (hst : a.1 < 256) : ∃ t, x = .next t ∧ Answered t 0 a.1 ∧ OnlyRegs a.2 t := by
  obtain ⟨p, hp, hstatus⟩ := handle_writeReq ho hin hgate
  rw [hl, ha] at hp hstatus
  have hown : ownWrite (.window 0) idx sub off n v s = .next (windowReply a.2 0 p) := by
    have hgo : ownWrite (.window 0) idx sub off n v s = guarded (Machine.served s && windowAsks s 0 (writeReq idx sub off n v))
      (answer s (.window 0) (writeReq idx sub off n v)) := rfl
    rw [hgo, guarded_true _ (by simp [h.served, h.asks]), answer, hp]
    rfl
  refine ⟨_, h.row.trans hown, ?_, windowReply_onlyRegs a.2 0 p⟩
  rw [← hstatus]
  exact windowReply_answered a.2 0 p (hstatus ▸ hst)

/-- A released module turns no write away. -/
theorem gate_released {s : State} (h : s.released = true) (op key v : Nat) : gate s op key v = none := by
  have hm : s.moduleState ≠ 4 := fun h4 => by simp [State.released, h4] at h
  simp [gate, hm, h]

/-- The elements of a write of one element. -/
theorem writeElems_one {o : Obj} {idx sub off n v : Nat} (hb : o.isBytes = false) (hn : o.esize = n) (h0 : 0 < n)
    (hoff : off < 2 ^ 32) (hv : v < 2 ^ (8 * n)) : writeElems o (writeReq idx sub off n v) = [(off, v)] := by
  have hofs : (writeReq idx sub off n v).offset.toNat = off := Nat.mod_eq_of_lt hoff
  have hbody : reqBody (writeReq idx sub off n v) / n = 1 := by
    rw [show reqBody (writeReq idx sub off n v) = n from Nat.add_sub_cancel_left 16 n, Nat.div_self h0]
  have hbits : bits v 0 (8 * n) = v := bits_zero_of_lt hv
  unfold writeElems
  rw [hb, hn, hbody, hofs]
  simp [show (writeReq idx sub off n v).body = v from rfl, hbits]

/-- An object of elements of `n` bytes, each of which the PF may write by itself. -/
def takesElem (idx sub n : Nat) (o : Obj) : Bool :=
  writable idx sub n o && !o.isBytes && decide (o.esize = n) && decide (0 < n) && decide (0 < o.count) &&
    decide (o.count < 2 ^ 32) && (counted o || decide (o.count = 1))

section
variable {s : State} {x : Out} {idx sub off n v : Nat} {o : Obj}

theorem within_of_takesElem (ho : takesElem idx sub n o = true) (hoff : off < o.count) : within s o off n := by
  simp only [takesElem, Bool.and_eq_true, decide_eq_true_eq, Bool.or_eq_true] at ho
  obtain ⟨⟨⟨⟨⟨-, hn⟩, h0⟩, hpos⟩, hmax⟩, hc⟩ := ho
  refine ⟨hoff.trans hmax, fun hf => ?_, fun _ => ?_⟩
  · have h1 : o.count = 1 := hc.resolve_left (by simp [hf])
    omega
  · have hlen : o.len s.grade = o.count := if_neg fun h => hpos.ne' h.2
    rw [hlen, hn, Nat.div_self h0]
    exact hoff

/-- A write of one element in the PF's window answers as its range and its object's rule do. -/
theorem PfRow.answersElem (h : PfRow s x idx sub off n v) (ho : takesElem idx sub n o = true) (hoff : off < o.count)
    {w : Nat} (hw : w = 8 * n) (hv : v < 2 ^ w) (hgate : gate s 2 (idx * 256 + sub) v = none) {a : Answer}
    (ha : (if v < o.lo ∨ o.hi < v then (stRange, s) else writeObj s (.window 0) o.key off 1 v [(off, v)]) = a)
    (hst : a.1 < 256) : ∃ t, x = .next t ∧ Answered t 0 a.1 ∧ OnlyRegs a.2 t := by
  have hin : within s o off n := within_of_takesElem ho hoff
  simp only [takesElem, Bool.and_eq_true, decide_eq_true_eq, Bool.not_eq_true'] at ho
  obtain ⟨⟨⟨⟨⟨⟨hwr, hb⟩, hn⟩, h0⟩, -⟩, -⟩, -⟩ := ho
  refine h.answers hwr hin hgate (writeElems_one hb hn h0 hin.1 (hw ▸ hv)) (ha ▸ ?_) hst
  rw [written, hn, Nat.div_self h0]
  simp

/-- A write of one element that range and rule allow is made, and answered OK. -/
theorem PfRow.accepts (h : PfRow s x idx sub off n v) (ho : takesElem idx sub n o = true) (hoff : off < o.count)
    {w : Nat} (hw : w = 8 * n) (hv : v < 2 ^ w) (hgate : gate s 2 (idx * 256 + sub) v = none) (hlo : o.lo ≤ v) (hhi : v ≤ o.hi)
    {u : State} (ha : writeObj s (.window 0) o.key off 1 v [(off, v)] = (stOk, u)) :
    ∃ t, x = .next t ∧ Answered t 0 0 ∧ OnlyRegs u t :=
  h.answersElem ho hoff hw hv hgate ((if_neg (by omega)).trans ha) (show 0 < 256 by decide)

/-- A write of one element that its range or its rule does not allow changes nothing. -/
theorem PfRow.refuses (h : PfRow s x idx sub off n v) (ho : takesElem idx sub n o = true) (hoff : off < o.count)
    {w : Nat} (hw : w = 8 * n) (hv : v < 2 ^ w) (hgate : gate s 2 (idx * 256 + sub) v = none) {st : Nat} (hst : st < 256)
    (hr : (o.lo ≤ v ∧ v ≤ o.hi) ∨ st = stRange)
    (ha : o.lo ≤ v → v ≤ o.hi → writeObj s (.window 0) o.key off 1 v [(off, v)] = (st, s)) :
    ∃ t, x = .next t ∧ Answered t 0 st ∧ t.dict = s.dict ∧ t.mem = s.mem := by
  have hans : (if v < o.lo ∨ o.hi < v then (stRange, s) else writeObj s (.window 0) o.key off 1 v [(off, v)]) = (st, s) := by
    split
    case isTrue hbad => rw [hr.resolve_left (by omega)]
    case isFalse hok => exact ha (by omega) (by omega)
  obtain ⟨t, hnext, hdone, ht⟩ := h.answersElem ho hoff hw hv hgate hans hst
  exact ⟨t, hnext, hdone, ht.dict, ht.mem⟩

end

/-- A row of a write that the PF asks for stands in its window. -/
theorem pfRow_of_asks {s : State} {i : Instr} {who : Requester} {idx sub off n v : Nat} (h : PfAsks s i)
    (hown : ownRequest i = some (who, writeReq idx sub off n v)) (hrow : exec i s = ownWrite who idx sub off n v s) :
    PfRow s (exec i s) idx sub off n v := by
  obtain ⟨hserved, -, r, hr, hasks⟩ := h
  rw [hown] at hr
  cases hr
  exact ⟨hrow, hserved, hasks⟩

/-! ## What a stored element changes -/

/-- An element of an object that keeps it in the dictionary is stored there, and perhaps in flash (R433). -/
theorem storeElem_plain {key : Nat} (hk : key ∉ [0x500003, 0x703001, 0x802002, 0x802003]) (s : State)
    (who : Requester) (e v : Nat) : ∃ m, storeElem s who key e v = { s.setObj (key / 256) (key % 256) e v with mgmt := m } := by
  unfold storeElem
  split
  case h_5 =>
    dsimp only
    split
    · exact ⟨_, rfl⟩
    · exact ⟨s.mgmt, rfl⟩
  all_goals simp at hk

theorem storeElem_stores {key : Nat} (hk : key ∉ [0x500003, 0x703001, 0x802002, 0x802003]) (s : State)
    (who : Requester) (e v : Nat) : (storeElem s who key e v).obj (key / 256) (key % 256) e = v := by
  obtain ⟨m, hm⟩ := storeElem_plain hk s who e v
  rw [hm]
  exact State.obj_setObj_same s _ _ e v

end Sys2Proof.Machine
end

section
/-!
O52: the dictionary controls of caches, memory, monitors, keys and counters (R231, R285, R313, R314, R321 to R325, R421, R465).
-/
namespace Sys2Proof.Machine
open Sys2Proof.Claims

/-! ## PIN_WAYS, LINE_PROBE_ADDR and MONITOR_CONFIG -/

theorem balanceAll_kept (s : State) : Kept s (balanceAll s) :=
  Kept.refl.thenFoldl (fun _ _ => Kept.refl.thenBalanceSet) _

theorem pinWays_stores {s : State} {x : Out} {v : Nat} (h : PfRow s x 0x2030 2 0 1 v) (hrel : s.released = true)
    (hv : v < 2 ^ 8) :
    (12 < v → ∃ t, x = .next t ∧ Answered t 0 4 ∧ t.dict = s.dict ∧ t.mem = s.mem) ∧
    (v ≤ 12 → ∃ t, x = .next t ∧ Answered t 0 0 ∧ t.obj 0x2030 2 0 = v) := by
  have ho : takesElem 0x2030 2 1 ⟨0x203002, 2, 0, 1, true, 1, 1, 8, 0, 12⟩ = true := by decide +kernel
  have hgate := gate_released hrel 2 (0x2030 * 256 + 2) v
  refine ⟨fun hbad => h.refuses ho (by decide) rfl hv hgate (by decide) (.inr rfl) fun _ hle => absurd hle (Nat.not_le.mpr hbad),
    fun hok => ?_⟩
  obtain ⟨t, hnext, hdone, ht⟩ := h.accepts ho (by decide) rfl hv hgate (Nat.zero_le v) hok
    (u := balanceAll (storeElem s (.window 0) 0x203002 0 v)) rfl
  have hkept := (balanceAll_kept (storeElem s (.window 0) 0x203002 0 v)).obj 0x2030 2 0 (by decide) (by decide) (by decide)
  exact ⟨t, hnext, hdone, (ht.obj ..).trans (hkept.trans (storeElem_stores (key := 0x203002) (by decide) ..))⟩

theorem lineProbe_probes {s : State} {x : Out} {v : Nat} (h : PfRow s x 0x3073 1 0 8 v) (hrel : s.released = true)
    (hv : v < 2 ^ 64) :
    (v % 512 ≠ 0 ∨ 2 ^ 40 ≤ v → ∃ t, x = .next t ∧ Answered t 0 4 ∧ t.dict = s.dict ∧ t.mem = s.mem) ∧
    (v % 512 = 0 → v < 2 ^ 40 → ∃ t, x = .next t ∧ Answered t 0 0 ∧ t.obj 0x3073 1 0 = v ∧
      t.obj 0x3073 2 0 = probeBytes s (v / 512) ∧ t.coh = s.coh) := by
  have ho : takesElem 0x3073 1 8 ⟨0x307301, 5, 0, 1, false, 8, 1, 0, 0, 2 ^ 64 - 1⟩ = true := by decide +kernel
  have hgate := gate_released hrel 2 (0x3073 * 256 + 1) v
  have hans : writeObj s (.window 0) 0x307301 0 1 v [(0, v)] = ranged (decide (v % 512 = 0) && decide (v < 2 ^ 40)) s
      (elemEffect (storeElem s (.window 0) 0x307301 0 v) 0x307301 0 (s.obj 0x3073 1 0) v) := rfl
  refine ⟨fun hbad => h.refuses ho (by decide) rfl hv hgate (by decide) (.inr rfl) fun _ _ => hans.trans (if_neg ?_),
    fun hz hlt => ?_⟩
  · rw [← Bool.decide_and, decide_eq_true_eq]
    omega
  · obtain ⟨m, hm⟩ := storeElem_plain (key := 0x307301) (by decide) s (.window 0) 0 v
    have hst : (storeElem s (.window 0) 0x307301 0 v).obj 0x3073 1 0 = v := storeElem_stores (key := 0x307301) (by decide) ..
    have hcoh : (storeElem s (.window 0) 0x307301 0 v).coh = s.coh := by rw [hm]; rfl
    generalize storeElem s (.window 0) 0x307301 0 v = u at hans hst hcoh
    obtain ⟨t, hnext, hdone, ht⟩ := h.accepts ho (by decide) rfl hv hgate (Nat.zero_le v) (show v ≤ 2 ^ 64 - 1 by omega)
      (u := u.setObj 0x3073 2 0 (probeBytes u (v / 512)))
      (hans.trans (if_pos (by rw [← Bool.decide_and, decide_eq_true_eq]; exact ⟨hz, hlt⟩)))
    have hprobe : probeBytes u (v / 512) = probeBytes s (v / 512) := by
      rw [probeBytes, homeLine_of_home (congrArg CohState.home hcoh), probeBytes]
    refine ⟨t, hnext, hdone, (ht.obj ..).trans ?_, (ht.obj ..).trans ((State.obj_setObj_same ..).trans hprobe), ht.coh.trans hcoh⟩
    exact (State.obj_setObj _ _ (by decide) (by decide) (by decide) (by decide)).trans ((if_neg (by decide)).trans hst)

theorem monitorConfig_restarts {s : State} {x : Out} {v : Nat} {n : Fin 32} (h : PfRow s x 0x3010 1 n.val 32 v)
    (hrel : s.released = true) (hv : v < 2 ^ 256) :
    (monitorOk v = false → ∃ t, x = .next t ∧ Answered t 0 4 ∧ t.dict = s.dict ∧ t.mem = s.mem) ∧
    (monitorOk v = true → ∃ t, x = .next t ∧ Answered t 0 0 ∧ t.obj 0x3010 1 n.val = v ∧
      t.obj 0x3011 1 n.val = if v % 256 = 0 then 0 else monFresh) := by
  have ho : takesElem 0x3010 1 32 ⟨0x301001, 10, 9, 1, true, 32, 32, 0, 0, 2 ^ 256 - 1⟩ = true := by decide +kernel
  have hgate := gate_released hrel 2 (0x3010 * 256 + 1) v
  have hn : n.val < 2 ^ 20 := n.isLt.trans (by decide)
  have hans : writeObj s (.window 0) 0x301001 n.val 1 v [(n.val, v)] = ranged (monitorOk v && true) s
      (monRestart (storeElem s (.window 0) 0x301001 n.val v) n.val) := rfl
  refine ⟨fun hbad => h.refuses ho n.isLt rfl hv hgate (by decide) (.inr rfl) fun _ _ => hans.trans (if_neg (by simp [hbad])),
    fun hok => ?_⟩
  have hst : (storeElem s (.window 0) 0x301001 n.val v).obj 0x3010 1 n.val = v := storeElem_stores (key := 0x301001) (by decide) ..
  generalize storeElem s (.window 0) 0x301001 n.val v = u at hans hst
  obtain ⟨t, hnext, hdone, ht⟩ := h.accepts ho n.isLt rfl hv hgate (Nat.zero_le v) (show v ≤ 2 ^ 256 - 1 by omega)
    (hans.trans (if_pos (by simp [hok])))
  refine ⟨t, hnext, hdone, (ht.obj ..).trans ?_, (ht.obj ..).trans ?_⟩
  · exact ((State.obj_setObj _ _ (by decide) (by decide) hn hn).trans (if_neg (by simp))).trans hst
  · rw [monRestart, State.obj_setObj_same, monConfig, hst, bits_eq_div, Nat.pow_zero, Nat.div_one]
    rfl

/-! ## Code pages in the MT queues -/

/-- Jobs join and leave the controllers' queues, and nothing else changes but the order stamp. -/
theorem putJob_frame (s : State) (job : Nat) (counts : Sparse Nat) :
    ∃ c n, putJob s job counts = { s with mem := { s.mem with ctrl := c }, stamp := n } := by
  unfold putJob
  refine List.foldlRecOn (motive := fun t : State => ∃ c n, t = { s with mem := { s.mem with ctrl := c }, stamp := n }) _ _
    ⟨s.mem.ctrl, s.stamp, rfl⟩ fun t ht p _ => ?_
  obtain ⟨c, n, rfl⟩ := ht
  exact ⟨_, _, rfl⟩

theorem dropJob_frame (s : State) (job : Nat) : ∃ c, dropJob s job = { s with mem := { s.mem with ctrl := c } } := by
  unfold dropJob
  refine List.foldlRecOn (motive := fun t : State => ∃ c, t = { s with mem := { s.mem with ctrl := c } }) _ _
    ⟨s.mem.ctrl, rfl⟩ fun t ht p _ => ?_
  obtain ⟨c, rfl⟩ := ht
  exact ⟨_, rfl⟩

/-- A replica entry that is written is COPYING, or unused where it holds no pages (R314). -/
theorem startMirror_eq (s : State) (e : Nat) : ∃ c n, startMirror s e =
    ({ s with mem := { s.mem with ctrl := c }, stamp := n }).setObj 0x2051 2 e (if repPages s e = 0 then 0 else 1) := by
  obtain ⟨c, hc⟩ := dropJob_frame s (mirrorJob e)
  unfold startMirror
  rw [hc]
  dsimp only
  have hp : repPages { s with mem := { s.mem with ctrl := c } } e = repPages s e := rfl
  rw [hp]
  split
  · exact ⟨c, s.stamp, rfl⟩
  · generalize rangePages { s with mem := { s.mem with ctrl := c } } _ _ = a
    obtain ⟨c', n', hput⟩ := putJob_frame { s with mem := { s.mem with ctrl := c } } (mirrorJob e) a
    rw [hput]
    generalize rangePages _ _ _ = b
    obtain ⟨c'', n'', hput'⟩ := putJob_frame { s with mem := { s.mem with ctrl := c' }, stamp := n' } (mirrorJob e) b
    exact ⟨c'', n'', congrArg (fun u : State => u.setObj 0x2051 2 e 1) hput'⟩

theorem replica_mirrors {s : State} {x : Out} {v : Nat} {n : Fin 64} (h : PfRow s x 0x2051 1 n.val 32 v)
    (hrel : s.released = true) (hv : v < 2 ^ 256) :
    (replicaOk s v = false → ∃ t, x = .next t ∧ Answered t 0 4 ∧ t.dict = s.dict ∧ t.mem = s.mem) ∧
    (replicaOk s v = true → anyMeet replicasMeet (replaced 64 (s.obj 0x2051 1) [(n.val, v)]) = false →
      ∃ t, x = .next t ∧ Answered t 0 0 ∧ t.obj 0x2051 1 n.val = v ∧
        t.obj 0x2051 2 n.val = if bits v 128 32 = 0 then 0 else 1) := by
  have ho : takesElem 0x2051 1 32 ⟨0x205101, 10, 9, 1, true, 32, 64, 0, 0, 2 ^ 256 - 1⟩ = true := by decide +kernel
  have hgate := gate_released hrel 2 (0x2051 * 256 + 1) v
  have hn : n.val < 2 ^ 20 := n.isLt.trans (by decide)
  have hans : writeObj s (.window 0) 0x205101 n.val 1 v [(n.val, v)] =
      ranged ((replicaOk s v && true) && !anyMeet replicasMeet (replaced 64 (s.obj 0x2051 1) [(n.val, v)])) s
        (startMirror (storeElem s (.window 0) 0x205101 n.val v) n.val) := rfl
  refine ⟨fun hbad => h.refuses ho n.isLt rfl hv hgate (by decide) (.inr rfl) fun _ _ => hans.trans (if_neg (by simp [hbad])),
    fun hok hmeet => ?_⟩
  have hst : (storeElem s (.window 0) 0x205101 n.val v).obj 0x2051 1 n.val = v := storeElem_stores (key := 0x205101) (by decide) ..
  generalize storeElem s (.window 0) 0x205101 n.val v = u at hans hst
  obtain ⟨t, hnext, hdone, ht⟩ := h.accepts ho n.isLt rfl hv hgate (Nat.zero_le v) (show v ≤ 2 ^ 256 - 1 by omega)
    (hans.trans (if_pos (by simp [hok, hmeet])))
  obtain ⟨c, k, hmirror⟩ := startMirror_eq u n.val
  rw [hmirror, repPages, hst] at ht
  refine ⟨t, hnext, hdone, (ht.obj ..).trans ?_, (ht.obj ..).trans (State.obj_setObj_same ..)⟩
  exact ((State.obj_setObj _ _ (by decide) (by decide) hn hn).trans (if_neg (by simp))).trans hst

/-! ## SCRUB_START -/

theorem scrubStart_starts {s : State} {x : Out} (h : PfRow s x 0x2052 3 0 1 1) (hrel : s.released = true) :
    (s.mem.scrub.isSome = true → ∃ t, x = .next t ∧ Answered t 0 6 ∧ t.dict = s.dict ∧ t.mem = s.mem) ∧
    (s.mem.scrub = none → ∃ t, x = .next t ∧ Answered t 0 0 ∧
      t.mem.scrub = some ⟨s.obj 0x2052 1 0, s.obj 0x2052 2 0, s.now⟩ ∧ t.obj 0x2052 4 0 = 1) := by
  have ho : takesElem 0x2052 3 1 ⟨0x205203, 1, 0, 2, false, 1, 1, 0, 0, 1⟩ = true := by decide +kernel
  have hgate := gate_released hrel 2 (0x2052 * 256 + 3) 1
  have hans : writeObj s (.window 0) 0x205203 0 1 1 [(0, 1)] = startScrub s 1 := rfl
  refine ⟨fun hrun => h.refuses ho (by decide) rfl (show 1 < 2 ^ 8 by decide) hgate (by decide) (.inl (by decide)) fun _ _ =>
    hans.trans ((if_neg (by decide)).trans (if_pos hrun)), fun hidle => ?_⟩
  obtain ⟨t, hnext, hdone, ht⟩ := h.accepts ho (by decide) rfl (show 1 < 2 ^ 8 by decide) hgate (by decide) (by decide)
    (hans.trans ((if_neg (by decide)).trans (if_neg (by simp [hidle]))))
  obtain ⟨c, n, hput⟩ := putJob_frame s scrubJob (scrubCount s (s.obj 0x2052 1 0) (s.obj 0x2052 2 0))
  rw [hput] at ht
  exact ⟨t, hnext, hdone, congrArg MemState.scrub ht.mem, (ht.obj ..).trans (State.obj_setObj_same ..)⟩

/-! ## RETIRE_PAGE -/

/-- What a read of a code page leaves: the objects below 4050h but 3080h, the windows and what the primary has before it. -/
structure ReadsPage (s t : State) : Prop where
  grade : t.grade = s.grade
  obj : ∀ i sub e, i < 0x4050 → i ≠ 0x3080 → sub < 256 → e < 2 ^ 20 → t.obj i sub e = s.obj i sub e
  regs : t.regs = s.regs
  host : t.host = s.host
  held : t.mgmt.held = s.mgmt.held
  power : t.power = s.power

namespace ReadsPage
variable {s t u : State}

theorem refl : ReadsPage s s := ⟨rfl, fun _ _ _ _ _ _ _ => rfl, rfl, rfl, rfl, rfl⟩

theorem trans (h : ReadsPage s t) (k : ReadsPage t u) : ReadsPage s u :=
  ⟨k.grade.trans h.grade, fun i sub e hi hn hs he => (k.obj i sub e hi hn hs he).trans (h.obj i sub e hi hn hs he),
    k.regs.trans h.regs, k.host.trans h.host, k.held.trans h.held, k.power.trans h.power⟩

theorem thenMem {m : MemState} (h : ReadsPage s t) : ReadsPage s { t with mem := m } :=
  h.trans ⟨rfl, fun _ _ _ _ _ _ _ => rfl, rfl, rfl, rfl, rfl⟩

theorem foldl {α : Type} {f : State → α → State} (hf : ∀ s x, ReadsPage s (f s x)) (l : List α) (s : State) :
    ReadsPage s (l.foldl f s) :=
  List.foldlRecOn (motive := ReadsPage s) _ _ refl fun t h x _ => h.trans (hf t x)

/-- An object of 4050h and above may be written, and one of 3080h. -/
theorem thenSetObj {i sub e v : Nat} (h : ReadsPage s t) (hi : (i = 0x3080 ∧ sub < 256 ∧ e < 2 ^ 20) ∨ 0x4050 ≤ i) :
    ReadsPage s (t.setObj i sub e v) := by
  refine h.trans ⟨rfl, fun j sub' e' hj hn hs he => ?_, rfl, rfl, rfl, rfl⟩
  refine sget_sset_other _ _ _ ?_
  unfold dkey
  omega

theorem thenLogRecord {r : LogRec} (h : ReadsPage s t) : ReadsPage s (logRecord t r) := by
  have hp : ReadsPage t { t with mgmt := { t.mgmt with logPend := t.mgmt.logPend ++
      [{ r with index := nextIndex (t.obj 0x5000 2 0), time := t.now, tick := t.tick, seqRef := seqRefOf t r }] } } :=
    ⟨rfl, fun _ _ _ _ _ _ _ => rfl, rfl, rfl, rfl, rfl⟩
  have hi := (h.trans hp).thenSetObj (i := 0x5000) (sub := 2) (e := 0) (v := nextIndex (t.obj 0x5000 2 0)) (.inr (by decide))
  unfold logRecord
  dsimp only
  split
  · exact hi.thenSetObj (.inr (by decide))
  · exact hi

theorem thenMemRecord {cause no n : Nat} (h : ReadsPage s t) : ReadsPage s (memRecord t cause no n) :=
  ((h.thenLogRecord).thenSetObj (.inr (by decide))).thenSetObj (.inr (by decide))

theorem thenSetMarks {no : Nat} {m : Marks} (h : ReadsPage s t) : ReadsPage s (setMarks t no m) := h.thenMem

theorem flipData (s : State) (page flips : Nat) : ReadsPage s (flipData s page flips) := by
  unfold Machine.flipData
  split
  · exact refl
  · exact refl.thenMem

theorem applyFlips (s : State) (page flips : Nat) : ReadsPage s (applyFlips s page flips) := by
  refine (flipData s page flips).trans (foldl (fun s i => ?_) _ _)
  extract_lets no m t
  have ht : ReadsPage s t := by
    unfold t
    split
    · exact refl
    · exact refl.thenSetMarks
  split
  · exact ht.thenMem
  · exact ht

theorem countCe (s : State) (no n : Nat) : ReadsPage s (countCe s no n) := by
  have ht : tierOf no < 2 ^ 20 := by unfold tierOf; split <;> decide
  unfold Machine.countCe
  extract_lets tier page r old listed chan new t
  have h : ReadsPage s t := (refl.thenSetObj (.inl ⟨rfl, by decide, ht⟩)).thenSetObj (.inr (by decide))
  split
  · exact h.thenSetObj (.inr (by decide))
  · exact h

theorem uncorrectable (s : State) (page flips : Nat) (keep : Nat → Bool) : ReadsPage s (uncorrectable s page flips keep) := by
  have ht : tierOf (4 * page) < 2 ^ 20 := by unfold tierOf; split <;> decide
  have hm := (applyFlips s page flips).trans (foldl (f := fun s no => setMarks s no 15) (fun _ _ => refl.thenSetMarks)
    (((failedCrcs flips).map fun i => 4 * page + i).filter fun no => !keep no) _)
  exact (hm.thenSetObj (.inl ⟨rfl, by decide, ht⟩)).thenMemRecord

theorem touchPage (s : State) (page : Nat) (err : Option ArrayErr) : ReadsPage s (touchPage s page err) := by
  unfold Machine.touchPage
  split
  · exact refl
  · split
    · exact refl
    · unfold decodePage
      split
      · exact (applyFlips ..).trans (countCe ..)
      · exact uncorrectable ..

theorem released (h : ReadsPage s t) : t.released = s.released := by
  rw [State.released, State.moduleState, h.obj 0x2002 2 0 (by decide) (by decide) (by decide) (by decide), State.released,
    State.moduleState]

theorem served (h : ReadsPage s t) : served t = served s := by
  rw [Machine.served, h.power, h.obj 0x4001 1 0 (by decide) (by decide) (by decide) (by decide),
    h.obj 0x4001 1 1 (by decide) (by decide) (by decide) (by decide), Machine.served]

theorem windowAsks (h : ReadsPage s t) (f : Fn) (r : DictReq) : windowAsks t f r = windowAsks s f r := by
  have hreg (off : Nat) : t.reg f.val off = s.reg f.val off := State.reg_of_regs h.regs ..
  have hreq : windowReq t f.val = windowReq s f.val := by simp only [windowReq, areaBytes, hreg]
  have hpres : fnPresent t f = fnPresent s f := by rw [fnPresent, h.host, fnPresent]
  rw [Machine.windowAsks, hreq, hpres, hreg, h.host, h.held, Machine.windowAsks]

end ReadsPage

/-- The reads that the copies of a withdrawn page make, with the array errors that they meet (R304). -/
def afterCopies (v : BitVec 64) (errs : List (Nat × ArrayErr)) (s : State) : State :=
  (errs.filter fun e => decide (0x4000000000 ≤ v.toNat) &&
    decide (e.1 / 32 = v.toNat / 65536)).foldl (fun s e => touchPage s e.1 (some e.2)) s

theorem afterCopies_reads (v : BitVec 64) (errs : List (Nat × ArrayErr)) (s : State) : ReadsPage s (afterCopies v errs s) := by
  unfold afterCopies
  generalize (errs.filter fun e => decide (0x4000000000 ≤ v.toNat) && decide (e.1 / 32 = v.toNat / 65536)) = l
  refine ReadsPage.foldl (f := fun (s : State) (e : Nat × ArrayErr) => touchPage s e.1 (some e.2)) (fun s e => ?_) l s
  exact ReadsPage.touchPage s e.1 (some e.2)

/-- What the write of a page's retirement answers, after the reads that its copies make (R304, R323). -/
theorem execRetirePage_eq {who : Requester} {v : BitVec 64} {errs : List (Nat × ArrayErr)} {s u : State}
    (hu : ownWrite who 0x2053 1 0 8 v.toNat (afterCopies v errs s) = .next u) :
    execRetirePage who v errs s =
      if u.obj 0x2053 3 0 = s.obj 0x2053 3 0 then ownWrite who 0x2053 1 0 8 v.toNat s else .next u := by
  unfold execRetirePage
  exact congrArg (fun o => match o with
    | .next u => if u.obj 0x2053 3 0 = s.obj 0x2053 3 0 then ownWrite who 0x2053 1 0 8 v.toNat s else .next u
    | o => o) hu

theorem takesElem_retirePage : takesElem 0x2053 1 8 ⟨0x205301, 5, 0, 2, false, 8, 1, 0, 0, 2 ^ 64 - 1⟩ = true := by decide +kernel

theorem retirePage_range (s : State) {v : Nat} (hbad : v % 65536 ≠ 0 ∨ 2 ^ 40 ≤ v) : retirePage s v = (stRange, s) := if_pos hbad

/-- An address that is no page's is refused (R322). -/
theorem retirePage_refused {s : State} {v : BitVec 64} {errs : List (Nat × ArrayErr)}
    (h : PfRow s (ownWrite (.window 0) 0x2053 1 0 8 v.toNat s) 0x2053 1 0 8 v.toNat) (hrel : s.released = true)
    (hbad : v.toNat % 65536 ≠ 0) : ∃ t, execRetirePage (.window 0) v errs s = .next t ∧ Answered t 0 4 ∧
      t.dict = s.dict ∧ t.mem = s.mem := by
  have hans (u : State) : writeObj u (.window 0) 0x205301 0 1 v.toNat [(0, v.toNat)] = (stRange, u) :=
    retirePage_range u (.inl hbad)
  obtain ⟨t, hcopies⟩ : ∃ t, afterCopies v errs s = t := ⟨_, rfl⟩
  have ht : ReadsPage s t := hcopies ▸ afterCopies_reads v errs s
  have hrow : PfRow t (ownWrite (.window 0) 0x2053 1 0 8 v.toNat t) 0x2053 1 0 8 v.toNat :=
    ⟨rfl, ht.served.trans h.served, (ht.windowAsks ..).trans h.asks⟩
  have hrange : (if v.toNat < 0 ∨ 2 ^ 64 - 1 < v.toNat then (stRange, t)
      else writeObj t (.window 0) 0x205301 0 1 v.toNat [(0, v.toNat)]) = (stRange, t) := by
    rw [hans t, ite_self]
  obtain ⟨u, hu, -, hsame⟩ := hrow.answersElem takesElem_retirePage (by decide) rfl v.isLt
    (gate_released (ht.released.trans hrel) ..) hrange (show 4 < 256 by decide)
  have hlist : u.obj 0x2053 3 0 = s.obj 0x2053 3 0 :=
    (hsame.obj ..).trans (ht.obj 0x2053 3 0 (by decide) (by decide) (by decide) (by decide))
  rw [execRetirePage_eq (hcopies ▸ hu), if_pos hlist]
  exact h.refuses takesElem_retirePage (by decide) rfl v.isLt (gate_released hrel ..) (by decide) (.inr rfl) fun _ _ => hans s

/-- A fast-tier page that is not listed yet is withdrawn and listed (R322, R324). -/
theorem retirePage_withdraws {s : State} {v : BitVec 64} {errs : List (Nat × ArrayErr)}
    (h : PfRow s (ownWrite (.window 0) 0x2053 1 0 8 v.toNat s) 0x2053 1 0 8 v.toNat) (hrel : s.released = true)
    (hpage : v.toNat % 65536 = 0) (hfast : v.toNat < 0x4000000000) (hroom : s.obj 0x2053 3 0 < 4096)
    (hnew : ∀ n < s.obj 0x2053 3 0, s.obj 0x2053 2 n ≠ v.toNat) :
    ∃ t, execRetirePage (.window 0) v errs s = .next t ∧ Answered t 0 0 ∧ withdrawnPage t (v.toNat / 65536) = true ∧
      t.obj 0x2053 3 0 = s.obj 0x2053 3 0 + 1 ∧ t.obj 0x2053 2 (s.obj 0x2053 3 0) = v.toNat := by
  generalize hn : s.obj 0x2053 3 0 = n at hroom hnew
  let listed := (s.setObj 0x2053 2 n v.toNat).setObj 0x2053 3 0 (n + 1)
  have hans : writeObj s (.window 0) 0x205301 0 1 v.toNat [(0, v.toNat)] = (stOk, { listed with mem := { listed.mem with
      withdrawn := sset (fun _ => false) listed.mem.withdrawn (v.toNat / 65536) true } }) := by
    show retirePage s v.toNat = _
    have hfresh : ¬((List.range n).any fun i => decide (s.obj 0x2053 2 i = v.toNat)) = true := by
      simpa using hnew
    unfold retirePage
    dsimp only
    rw [hn, if_neg (by omega), if_neg hfresh, if_neg (by omega), if_pos hfast]
  obtain ⟨t, hnext, hdone, ht⟩ := h.accepts takesElem_retirePage (by decide) rfl v.isLt (gate_released hrel ..) (Nat.zero_le _)
    (show v.toNat ≤ 2 ^ 64 - 1 by have := v.isLt; omega) hans
  have hcount : t.obj 0x2053 3 0 = n + 1 :=
    (ht.obj ..).trans (State.obj_setObj_same (s.setObj 0x2053 2 n v.toNat) 0x2053 3 0 (n + 1))
  have hnone : (errs.filter fun e => decide (0x4000000000 ≤ v.toNat) && decide (e.1 / 32 = v.toNat / 65536)) = [] := by
    simp [Nat.not_le.mpr hfast]
  have hcopies : afterCopies v errs s = s := by rw [afterCopies, hnone, List.foldl_nil]
  have hexec : execRetirePage (.window 0) v errs s = .next t := by
    rw [execRetirePage_eq (hcopies.symm ▸ hnext), if_neg (by omega)]
  refine ⟨t, hexec, hdone, ?_, hcount, (ht.obj ..).trans ?_⟩
  · rw [withdrawnPage, ht.mem, sget_sset_same, Bool.true_or]
  · have hother : listed.obj 0x2053 2 n = (s.setObj 0x2053 2 n v.toNat).obj 0x2053 2 n :=
      (State.obj_setObj _ _ (by decide) (by decide) (by decide) (by omega)).trans (if_neg (by simp))
    exact hother.trans (State.obj_setObj_same s 0x2053 2 n v.toNat)

/-! ## CLIENT_KEYS -/

theorem logRecord_sessions (s : State) (r : LogRec) : (logRecord s r).mgmt.sessions = s.mgmt.sessions := by
  unfold logRecord
  dsimp only
  split <;> rfl

/-- A session that closes leaves its place (R443). -/
theorem closeSession_sessions (s : State) (x : Session) :
    (closeSession s x).mgmt.sessions = s.mgmt.sessions.filter fun y => y.place != x.place := by
  unfold closeSession
  dsimp only
  split
  · exact logRecord_sessions ..
  · rfl

theorem closeSession_kept (s : State) (x : Session) : KeptOutside [0x5000] s (closeSession s x) := by
  have hs : KeptOutside [0x5000] s
      { s with mgmt := { s.mgmt with sessions := s.mgmt.sessions.filter fun y => y.place != x.place } } :=
    .of_same rfl rfl rfl
  unfold closeSession
  dsimp only
  split
  · exact hs.thenLogRecord (by decide)
  · exact hs

theorem closeKeySessions_kept (s : State) (slot : Nat) : KeptOutside [0x5000] s (closeKeySessions s slot) :=
  .thenFoldl _ (fun s x _ => closeSession_kept s x) .refl

/-- The sessions that stay are of no place that closes. -/
theorem foldl_closeSession_sessions (l : List Session) (s : State) :
    (l.foldl closeSession s).mgmt.sessions = s.mgmt.sessions.filter fun y => l.all fun x => y.place != x.place := by
  induction l generalizing s with
  | nil => simp
  | cons x l ih => simp [ih, closeSession_sessions, List.filter_filter, Bool.and_comm]

/-- No session of the key slot is left (R465). -/
theorem closeKeySessions_closes (s : State) (slot : Nat) : ∀ x ∈ (closeKeySessions s slot).mgmt.sessions, x.keySlot ≠ slot := by
  intro x hx hk
  rw [closeKeySessions, foldl_closeSession_sessions, List.mem_filter, List.all_eq_true] at hx
  obtain ⟨hmem, hplace⟩ := hx
  exact absurd (hplace x (List.mem_filter.mpr ⟨hmem, by simpa using hk⟩)) (by simp)

theorem clientKeys_closes {s : State} {x : Out} {v : Nat} {n : Fin 16} (h : PfRow s x 0x6020 1 n.val 1800 v)
    (hrel : s.released = true) (hv : v < 2 ^ 14400) :
    (clientKeyOk v = false → ∃ t, x = .next t ∧ Answered t 0 4 ∧ t.dict = s.dict ∧ t.mem = s.mem) ∧
    (clientKeyOk v = true → ∃ t, x = .next t ∧ Answered t 0 0 ∧ t.obj 0x6020 1 n.val = v ∧
      ∀ x ∈ t.mgmt.sessions, x.keySlot ≠ n.val) := by
  have ho : takesElem 0x6020 1 1800 ⟨0x602001, 10, 9, 1, true, 1800, 16, 0, 0, 2 ^ 14400 - 1⟩ = true := by decide +kernel
  have hgate := gate_released hrel 2 (0x6020 * 256 + 1) v
  have hn : n.val < 2 ^ 20 := n.isLt.trans (by decide)
  have hans : writeObj s (.window 0) 0x602001 n.val 1 v [(n.val, v)] = ranged (clientKeyOk v && true) s
      (closeKeySessions (storeElem s (.window 0) 0x602001 n.val v) n.val) := rfl
  refine ⟨fun hbad => h.refuses ho n.isLt (w := 14400) rfl hv hgate (by decide) (.inr rfl) fun _ _ =>
    hans.trans (if_neg (by simp [hbad])), fun hok => ?_⟩
  have hst : (storeElem s (.window 0) 0x602001 n.val v).obj 0x6020 1 n.val = v := storeElem_stores (key := 0x602001) (by decide) ..
  generalize storeElem s (.window 0) 0x602001 n.val v = u at hans hst
  obtain ⟨t, hnext, hdone, ht⟩ := h.accepts ho n.isLt (w := 14400) rfl hv hgate (Nat.zero_le v) (Nat.le_sub_one_of_lt hv)
    (hans.trans (if_pos (by simp [hok])))
  have hkept := (closeKeySessions_kept u n.val).obj 0x6020 1 n.val (by decide) (by decide) hn
  exact ⟨t, hnext, hdone, (ht.obj ..).trans (hkept.trans hst), ht.mgmt ▸ closeKeySessions_closes u n.val⟩

/-! ## EVC_VALUES -/

/-- Of a range, the one number that a write reaches is written. -/
theorem foldl_range_one {α : Type} {p : Nat → Bool} {f : α → Nat → α} {e n : Nat} (he : e < n)
    (hp : ∀ k, p k = true ↔ k = e) (a : α) : (List.range n).foldl (fun m k => if p k then f m k else m) a = f a e := by
  have hone : (List.range n).filter p = [e] := by
    have hpe : p = (· == e) := funext fun k => Bool.eq_iff_iff.mpr ((hp k).trans beq_iff_eq.symm)
    rw [hpe, List.filter_beq, List.count_eq_one_of_mem List.nodup_range (List.mem_range.mpr he)]
    rfl
  rw [← List.foldl_filter, hone, List.foldl_cons, List.foldl_nil]

/-- A write of the eight bytes of a counter of a QUIESCED function writes that counter (R421). -/
theorem writeEvc_writes {s : State} {e v : Nat} (he : e < 4096) (hq : s.fnState (s.obj 0x7050 6 0) = 4) :
    ∃ u, writeEvc s (8 * e) 8 v = (stOk, u) ∧ evCounter u (s.obj 0x7050 6 0) e = v % 2 ^ 64 := by
  refine ⟨_, if_neg (by simp [hq]), ?_⟩
  have hone (k : Nat) : (decide (8 * e < 8 * k + 8) && decide (8 * k < 8 * e + 8)) = true ↔ k = e := by
    rw [← Bool.decide_and, decide_eq_true_eq]
    omega
  dsimp only [evCounter]
  rw [foldl_range_one (f := fun m k => sset (fun _ => 0) m (4096 * s.obj 0x7050 6 0 + k) _) he hone, Nat.mul_comm 4096,
    sget_sset_same, show 64 * e = 8 * (8 * e) by omega]
  exact bits_putBits_same ..

theorem evcValues_writes {s : State} {x : Out} {e v : Nat} (h : PfRow s x 0x7050 7 (8 * e) 8 v) (hrel : s.released = true)
    (he : e < 4096) :
    (s.fnState (s.obj 0x7050 6 0) ≠ 4 → ∃ t, x = .next t ∧ Answered t 0 3 ∧ t.dict = s.dict ∧ t.mem = s.mem) ∧
    (s.fnState (s.obj 0x7050 6 0) = 4 → ∃ t, x = .next t ∧ Answered t 0 0 ∧ evCounter t (s.obj 0x7050 6 0) e = v % 2 ^ 64) := by
  let o : Obj := ⟨0x705007, 9, 0, 1, false, 1, 32768, 0, 0, 0⟩
  have ho : writable 0x7050 7 8 o = true := by decide +kernel
  have hin : within s o (8 * e) 8 := by
    refine ⟨by omega, fun hc => absurd hc (by decide), fun _ => ?_⟩
    have hl : o.len s.grade = 32768 := rfl
    rw [hl]
    show 8 * e + 8 / 1 ≤ 32768
    omega
  have hgate := gate_released hrel 2 (0x7050 * 256 + 7) v
  have hwritten : written s o (8 * e) 8 v [] = writeEvc s (8 * e) 8 v := by
    rw [written, if_neg (by simp)]
    exact congrArg (fun n => writeEvc s (8 * e) n v) (Nat.div_one 8)
  refine ⟨fun hbad => ?_, fun hq => ?_⟩
  · obtain ⟨t, hnext, hdone, ht⟩ := h.answers ho hin hgate rfl (hwritten.trans (if_pos hbad)) (show 3 < 256 by decide)
    exact ⟨t, hnext, hdone, ht.dict, ht.mem⟩
  · obtain ⟨u, hu, hev⟩ := writeEvc_writes (v := v) he hq
    obtain ⟨t, hnext, hdone, ht⟩ := h.answers ho hin hgate rfl (hwritten.trans hu) (show 0 < 256 by decide)
    exact ⟨t, hnext, hdone, by rw [evCounter, ht.host]; exact hev⟩

end Sys2Proof.Machine
end

section
/-!
O52: PORT_ENABLE (R375, R387). What a port that goes down leaves unchanged: every object but counters and the log.
-/
namespace Sys2Proof.Machine
open Sys2Proof.Claims

/-! ## What the fail-over of a port leaves unchanged -/

/-- The objects that a fail-over counts in: the read-only path's (3070h) and the ports' (30A0h), besides the counters. -/
def portObjects : List Nat := [0x3070, 0x30A0] ++ counterObjects

theorem Kept.ports {s t : State} (h : Kept s t) : KeptOutside portObjects s t :=
  h.toKeptOutside.mono fun _ => List.mem_append_right _

namespace KeptOutside
variable {L : List Nat} {s t : State}

theorem thenPeer {x : PeerState} (h : KeptOutside L s t) : KeptOutside L s { t with peer := x } := h.trans (of_same rfl rfl rfl)

theorem thenTickStamp (h : KeptOutside L s t) : KeptOutside L s t.tickStamp := h.trans (of_same rfl rfl rfl)

theorem thenEmitPeer {x : PeerSent} (h : KeptOutside L s t) : KeptOutside L s (emitPeer t x) :=
  h.trans (.ite (of_same rfl rfl rfl) (of_same rfl rfl rfl))

theorem thenStopCommand {step idx : Nat} (h : KeptOutside L s t) : KeptOutside L s (stopCommand t step idx) :=
  h.trans (of_same rfl rfl rfl)

end KeptOutside

section
variable {s t : State}

/-! ### Packets -/

theorem launchPeer_ports {x : PeerSent} (h : launchPeer s x = some t) : KeptOutside portObjects s t := by
  obtain ⟨p, -, rfl⟩ := Option.map_eq_some_iff.mp h
  exact (KeptOutside.refl.thenPeer).thenEmitPeer

theorem releasePeer_ports (s : State) (partner : Nat) : KeptOutside portObjects s (releasePeer s partner) := by
  unfold releasePeer
  split
  · split
    · exact .refl
    · rename_i x rest _
      cases hl : launchPeer { s with peer := { s.peer with sent := rest } } x with
      | none => exact .refl
      | some t => exact KeptOutside.refl.thenPeer.trans (launchPeer_ports hl)
  · exact .refl

theorem crossToPort_ports (s : State) (src p : Nat) (pk : PeerPacket) : KeptOutside portObjects s (crossToPort s src p pk) :=
  Kept.refl.thenCrossRing.ports

theorem peerSend_ports {partner step idx core tag : Nat} {pk : PeerPacket} {l : Line}
    (h : peerSend s partner pk step idx core tag l = some t) : KeptOutside portObjects s t := by
  unfold peerSend at h
  split at h
  case h_1 => cases h
  case h_2 p _ =>
    have hcross : KeptOutside portObjects s (if core < 256 then crossToPort s (siteOfCore s core) p pk else s) :=
      .ite (crossToPort_ports ..) .refl
    dsimp only at h
    generalize (if core < 256 then crossToPort s (siteOfCore s core) p pk else s) = u at h hcross
    split at h
    · exact hcross.trans (launchPeer_ports h)
    · cases h
      exact hcross.thenPeer

/-! ### Faults of a core's groups -/

theorem noteFault_ports (s : State) (c slot cause addr : Nat) (pc : Word) (detail : Nat) :
    KeptOutside portObjects s (noteFault s c slot cause addr pc detail) := by
  unfold noteFault
  split
  · exact .refl
  · exact Kept.refl.thenFnRecord.thenUpdStep.ports.thenStopCommand

theorem takeFault_ports (s : State) (c slot cause addr : Nat) (pc : Word) (detail : Nat) :
    KeptOutside portObjects s (takeFault s c slot cause addr pc detail) := by
  unfold takeFault
  extract_lets cmd k
  have hnoted : KeptOutside portObjects s (noteFault (s.setCore c k) c slot cause addr pc detail) :=
    KeptOutside.refl.thenSetCore.trans (noteFault_ports ..)
  generalize noteFault (s.setCore c k) c slot cause addr pc detail = u at hnoted ⊢
  exact (hnoted.trans (endGroup_log ..)).trans (settleCommand_log ..)

theorem lateFault_ports (s : State) (c slot gidx cause addr : Nat) (pc : Word) :
    KeptOutside portObjects s (lateFault s c slot gidx cause addr pc) :=
  .ite (takeFault_ports ..)
    ((KeptOutside.refl.thenSetCore.trans (noteFault_ports _ c slot cause addr pc 0)).trans (settleCommand_log _ c _))

/-! ### A core's reads and writes -/

theorem ackWrite_ports (s : State) (c tag : Nat) (l : Line) (olds : List LaneOp) (skipped : Bool) :
    KeptOutside portObjects s (ackWrite s c tag l olds skipped) := by
  unfold ackWrite
  dsimp only
  split
  · exact .refl
  · exact .ite (KeptOutside.refl.thenSetCore.trans (lateFault_ports ..)) KeptOutside.refl.thenSetCore

theorem arriveLine_ports (s : State) (c tag : Nat) (ro : Bool) (l : Line) (data : LineData) (marks : Marks) (disc : Bool) :
    KeptOutside portObjects s (arriveLine s c tag ro l data marks disc) := KeptOutside.refl.thenSetCore

theorem nearServe_ports (s : State) (c : Nat) (l : Line) (fn : Fn) (tclass : BitVec 3) (lat ro : Bool) (tag : Nat) :
    KeptOutside portObjects s (nearServe s c l fn tclass lat ro tag) := by
  unfold nearServe
  extract_lets b n marks u m u' u''
  have hu : Kept s u := .ite Kept.refl.thenCountDiscard Kept.refl.thenCountReq
  have hu' : Kept s u' := .ite hu.thenPost hu
  have hu'' : Kept s u'' := .ite hu'.thenPost hu'
  exact hu''.thenSetNear.thenTickStamp.ports.trans (arriveLine_ports ..)

theorem addWait_kept (s : State) (b : Nat) (kind : MsgKind) (m : Msg) (sent : Bool) : Kept s (addWait s b kind m sent) :=
  Kept.refl.thenCoh rfl

theorem requestLine_ports (s : State) (c : Nat) (l : Line) (fn : Fn) (tclass : BitVec 3) (lat ro : Bool) (tag : Nat) :
    KeptOutside portObjects s (requestLine s c l fn tclass lat ro tag) :=
  .ite (addWait_kept ..).ports (.ite (nearServe_ports ..) (addWait_kept ..).thenPost.ports)

theorem roLookup_ports {c : Nat} (hc : c < 256) (s : State) (x : LoadRec) (need : Marks) (l : Line) :
    KeptOutside portObjects s (roLookup s c x need l) := by
  have hbump {t : State} (k n : Nat) (hk : k < 256) (h : KeptOutside portObjects s t) :
      KeptOutside portObjects s (t.bump 0x3070 k c n) := h.thenSetObj (by decide) hk (by omega)
  unfold roLookup
  dsimp only
  split
  · rename_i r _
    have hd : Kept s (if r.disc then countDiscard s x.fn (homeSlice l) x.tclass else s) := .ite Kept.refl.thenCountDiscard .refl
    exact hbump 1 1 (by decide) hd.ports.thenSetCore.thenTickStamp
  · split
    · exact hbump 3 1 (by decide) KeptOutside.refl.thenSetCore
    · split
      · exact .refl
      · exact (hbump 2 1 (by decide) KeptOutside.refl.thenSetCore).trans (requestLine_ports ..)

theorem pumpLine_ports {c : Nat} (hc : c < 256) (s : State) (x : LoadRec) (l : Line) :
    KeptOutside portObjects s (pumpLine s c x l) :=
  .ite .refl (.ite (.ite (roLookup_ports hc ..) .refl) (KeptOutside.refl.thenSetCore.trans (requestLine_ports ..)))

theorem pumpXfer_ports (s : State) (c : Nat) (x : XferRec) (l : Line) : KeptOutside portObjects s (pumpXfer s c x l) :=
  .ite .refl (KeptOutside.refl.thenSetCore.trans (requestLine_ports ..))

theorem pumpLoads_ports {c : Nat} (hc : c < 256) (s : State) : KeptOutside portObjects s (pumpLoads s c) := by
  refine KeptOutside.thenFoldl _ (fun s x _ => ?_) (KeptOutside.thenFoldl _ (fun s x _ => ?_) .refl)
  · exact .ite .refl (.thenFoldl _ (fun s y _ => .ite .refl (pumpXfer_ports ..)) .refl)
  · exact .ite .refl (.thenFoldl _ (fun s y _ => .ite .refl (pumpLine_ports hc ..)) .refl)

theorem dropWrite_ports (s : State) (c : Nat) (w : WriteRec) (cause : Nat) :
    KeptOutside portObjects s (dropWrite s c w cause) := by
  unfold dropWrite
  dsimp only
  split
  · exact KeptOutside.refl.thenSetCore.trans Kept.refl.thenStepFault.ports
  · exact KeptOutside.refl.thenSetCore

theorem sendPeerWrite_ports (s : State) (c : Nat) (w : WriteRec) (pk : PeerPacket) :
    KeptOutside portObjects s (sendPeerWrite s c w pk) := by
  unfold sendPeerWrite
  split
  · exact .refl
  · split
    · rename_i hsend
      exact peerSend_ports hsend
    · exact dropWrite_ports ..

theorem nearMerge_kept (s : State) (b : Nat) (m : Msg) : Kept s (nearMerge s b m) := Kept.refl.thenSetNear.thenTickStamp

theorem sendWrite_ports (s : State) (c : Nat) (w : WriteRec) : KeptOutside portObjects s (sendWrite s c w) := by
  unfold sendWrite
  dsimp only
  split
  · exact sendPeerWrite_ports ..
  · refine .ite (.ite ?_ ?_) Kept.refl.thenPost.ports
    · exact (Kept.refl.thenCountReq.trans (nearMerge_kept ..)).ports.trans (ackWrite_ports ..)
    · exact .ite (addWait_kept ..).thenPost.ports (addWait_kept ..).ports

theorem pumpWrite_ports (s : State) (c : Nat) (w : WriteRec) : KeptOutside portObjects s (pumpWrite s c w) :=
  .ite (KeptOutside.refl.thenSetCore.trans (sendWrite_ports ..)) .refl

theorem pump_ports {c : Nat} (hc : c < 256) (s : State) : KeptOutside portObjects s (pump s c) := by
  have hwrites (t : State) : KeptOutside portObjects t
      ((t.core c).writes.foldl (fun s w => if w.held then pumpWrite s c w else s) t) :=
    .thenFoldl _ (fun s w _ => .ite (pumpWrite_ports ..) .refl) .refl
  have hall := ((pumpLoads_ports hc s).trans (hwrites _)).trans (pumpLoads_ports hc _)
  exact hall.thenSetCore.thenTickStamp.thenSettleCore

/-! ### Reductions -/

theorem tellPeer_ports (s : State) (r : RedCmd) (w : Nat) : KeptOutside portObjects s (tellPeer s r w) := by
  unfold tellPeer
  dsimp only
  split
  · exact KeptOutside.refl.thenNet.trans Kept.refl.thenStepFault.ports
  · rename_i hsend
    exact KeptOutside.refl.thenNet.trans (peerSend_ports hsend)

theorem endReduce_ports (s : State) (r : RedCmd) : KeptOutside portObjects s (endReduce s r) :=
  .ite .refl (Kept.refl.thenNet.thenNet.thenSetPhase).ports

theorem settleReduce_ports (s : State) (step idx : Nat) : KeptOutside portObjects s (settleReduce s step idx) := by
  unfold settleReduce
  split
  · exact .refl
  · split
    · exact .refl
    · split
      · dsimp only
        split
        · exact (tellPeer_ports ..).trans (endReduce_ports ..)
        · exact tellPeer_ports ..
      · exact endReduce_ports ..

theorem answerTaken_ports (s : State) (port seq code : Nat) : KeptOutside portObjects s (answerTaken s port seq code) := by
  unfold answerTaken
  split
  · exact .refl
  · dsimp only
    split
    · exact .of_same rfl rfl rfl
    · split <;> exact .of_same rfl rfl rfl

theorem releaseRed_ports (s : State) (src dst : Nat) : KeptOutside portObjects s (releaseRed s src dst) := by
  unfold releaseRed
  split
  · split
    · exact .refl
    · exact .of_same rfl rfl rfl
  · exact .refl

theorem ackRed_ports (bad : Option Nat) (n : Nat) (s : State) (src seq : Nat) (l : Line) :
    KeptOutside portObjects s (ackRed bad n s src seq l) := by
  induction n generalizing s src seq with
  | zero => exact .refl
  | succ n ih =>
    unfold ackRed
    split
    · exact .ite (answerTaken_ports ..) .refl
    · rename_i r rest _
      have hrel := KeptOutside.refl.thenNet.trans (releaseRed_ports { s with net := { s.net with redSent := rest } } src r.dst)
      dsimp only
      split
      · refine .trans ?_ (settleReduce_ports ..)
        split
        · exact hrel.trans Kept.refl.thenStepFault.ports
        · exact hrel
      · exact .thenFoldl _ (fun s a _ => ih s a.1 a.2) hrel.thenNet

/-! ### Packets that fail, and the port that goes down -/

theorem endPacket_ports (s : State) (p : PeerSent) (bad : Option Nat) : KeptOutside portObjects s (endPacket s p bad) := by
  have hfault (t : State) (ht : KeptOutside portObjects s t) : KeptOutside portObjects s
      (if (findRed t p.step p.idx).isSome then settleReduce t p.step p.idx
        else if (t.peer.sent.any fun q => decide (q.step = p.step) && decide (q.idx = p.idx)) || sending t p.step p.idx then t
        else setPhase t p.step p.idx .done) :=
    .ite (ht.trans (settleReduce_ports ..)) (.ite ht (ht.trans Kept.refl.thenSetPhase.ports))
  refine .ite (ackRed_ports ..) (hfault _ ?_)
  split
  · exact Kept.refl.thenStepFault.ports
  · exact .refl

theorem failPacket_ports (cause : Nat) (s : State) (p : PeerSent) : KeptOutside portObjects s (failPacket cause s p) := by
  have hrel := KeptOutside.refl.thenPeer.trans (releasePeer_ports { s with peer := { s.peer with
    sent := s.peer.sent.filter fun q => q != p } } p.partner)
  unfold failPacket
  dsimp only
  split
  · rename_i hc
    split
    · exact hrel
    · exact (hrel.trans (dropWrite_ports ..)).trans (pump_ports hc _)
  · exact hrel.trans (endPacket_ports ..)

theorem resendPacket_ports (s : State) (p : PeerSent) : KeptOutside portObjects s (resendPacket s p) := by
  unfold resendPacket
  split
  · exact failPacket_ports ..
  · exact .ite KeptOutside.refl.thenPeer KeptOutside.refl.thenPeer.thenEmitPeer

theorem touchSteps_kept (s : State) (p : Nat) : Kept s (touchSteps s p) := Kept.refl.thenMarkFault

theorem takeoverNow_kept {cause : Nat} (hc : cause < 256) (s : State) (sev : Nat) (b : Block) (spares : Nat) :
    Kept s (takeoverNow s cause sev b spares) := (Kept.refl.thenTakeoverRecord hc).thenAer

/-- The writes of a port that goes down to its own objects (R352, R375). -/
def portCleared (s : State) (p new : Nat) : State := ((setPortState s p new).setObj 0x8010 5 p 0).setObj 0x8010 4 p 0

/-- Of the ports' own objects, one that goes down writes its PORT_STATE, PORT_FIBRES and partner (R352, R375, R376). -/
theorem portDown_ports (s : State) {p : Nat} (he : p < 2 ^ 20) (new : Nat) :
    ∃ u, KeptOutside portObjects s u ∧ KeptOutside portObjects (portCleared u p new) (portDown s p new) := by
  unfold portDown
  extract_lets was lost partner busy touched dark unlinked counted left r recorded
  have hunlinked : KeptOutside portObjects dark unlinked := .of_same rfl rfl rfl
  have hcounted : KeptOutside portObjects dark counted := .ite (hunlinked.thenSetObj (by decide) (by decide) (by omega)) hunlinked
  have hrecorded : KeptOutside portObjects dark recorded :=
    .ite (hcounted.trans (Kept.refl.thenHwRecord (show 0x57 < 256 by decide)).ports)
      (hcounted.trans (takeoverNow_kept (by decide) ..).ports)
  exact ⟨touched, .ite (touchSteps_kept s p).ports .refl,
    .ite (.thenFoldl _ (fun s x _ => resendPacket_ports s x) hrecorded) hunlinked⟩

theorem portCleared_obj (s : State) {p : Nat} (he : p < 2 ^ 20) (new : Nat) :
    (portCleared s p new).obj 0x8010 1 p = s.obj 0x8010 1 p ∧ (portCleared s p new).obj 0x8010 3 p = new := by
  have hother {sub : Nat} (h5 : sub ≠ 5) (h4 : sub ≠ 4) (hs : sub < 256) :
      (portCleared s p new).obj 0x8010 sub p = (setPortState s p new).obj 0x8010 sub p :=
    ((State.obj_setObj _ _ (by decide) hs he he).trans (if_neg (by simp [h4]))).trans
      ((State.obj_setObj _ _ (by decide) hs he he).trans (if_neg (by simp [h5])))
  exact ⟨(hother (by decide) (by decide) (by decide)).trans
      ((State.obj_setObj _ _ (by decide) (by decide) he he).trans (if_neg (by simp))),
    (hother (by decide) (by decide) (by decide)).trans (State.obj_setObj_same ..)⟩

/-- A port that goes down is in its new state, enabled or not as before. -/
theorem portDown_obj (s : State) {p : Nat} (he : p < 2 ^ 20) (new : Nat) :
    (portDown s p new).obj 0x8010 1 p = s.obj 0x8010 1 p ∧ (portDown s p new).obj 0x8010 3 p = new := by
  obtain ⟨u, hu, hdown⟩ := portDown_ports s he new
  have hcleared := portCleared_obj u he new
  exact ⟨(hdown.obj _ _ _ (by decide) (by decide) he).trans (hcleared.1.trans (hu.obj _ _ _ (by decide) (by decide) he)),
    (hdown.obj _ _ _ (by decide) (by decide) he).trans hcleared.2⟩

end

/-! ## PORT_ENABLE -/

theorem portDomains_obj (s : State) (i sub e : Nat) : (portDomains s).obj i sub e = s.obj i sub e := by
  have hsame (x : PowerState) : ({ s with power := x } : State).obj i sub e = s.obj i sub e := rfl
  exact hsame _

/-- Where PORT_ENABLE takes effect, the port is FAILED as before, held DISABLED, or started again (R387). -/
theorem enablePort_obj (s : State) {p : Nat} (he : p < 2 ^ 20) (v : Nat) :
    (enablePort s p v).obj 0x8010 1 p = v ∧
    portState (enablePort s p v) p = if portState s p = 6 then 6 else if v = 0 then 0
      else if portState s p = 0 then 1 else portState s p := by
  unfold enablePort
  extract_lets u
  have hv : u.obj 0x8010 1 p = v := State.obj_setObj_same ..
  have hu : portState u p = portState s p :=
    (State.obj_setObj _ _ (by decide) (by decide) he he).trans (if_neg (by simp))
  rw [hu]
  clear_value u
  split
  · exact ⟨hv, hu.trans ‹_›⟩
  split
  · split
    · exact ⟨hv, hu.trans ‹_›⟩
    · have hdown := portDown_obj u he 0
      rw [portState, portDomains_obj, portDomains_obj]
      exact ⟨hdown.1.trans hv, hdown.2⟩
  split
  · rw [portState, portDomains_obj, portDomains_obj, setPortState]
    exact ⟨((State.obj_setObj u _ (by decide) (by decide) he he).trans (if_neg (by simp))).trans hv, State.obj_setObj_same ..⟩
  · exact ⟨hv, hu⟩

theorem portEnable_enables {s : State} {x : Out} {v : Nat} {p : Fin 8} (h : PfRow s x 0x8010 1 p.val 1 v)
    (hrel : s.released = true) (hv : v < 2 ^ 8) :
    (1 < v → ∃ t, x = .next t ∧ Answered t 0 4 ∧ t.dict = s.dict ∧ t.mem = s.mem) ∧
    (v ≤ 1 → ∃ t, x = .next t ∧ Answered t 0 0 ∧ t.obj 0x8010 1 p.val = v ∧
      portState t p.val = if portState s p.val = 6 then 6 else if v = 0 then 0
        else if portState s p.val = 0 then 1 else portState s p.val) := by
  have ho : takesElem 0x8010 1 1 ⟨0x801001, 10, 2, 1, true, 1, 8, 1, 0, 1⟩ = true := by decide +kernel
  have hgate := gate_released hrel 2 (0x8010 * 256 + 1) v
  have hans : writeObj s (.window 0) 0x801001 p.val 1 v [(p.val, v)] =
    (stOk, enablePort (storeElem s (.window 0) 0x801001 p.val v) p.val v) := rfl
  obtain ⟨m, hm⟩ := storeElem_plain (key := 0x801001) (by decide) s (.window 0) p.val v
  have hst : portState (storeElem s (.window 0) 0x801001 p.val v) p.val = portState s p.val := by
    rw [hm]
    exact (State.obj_setObj s _ (by decide) (by decide) (by omega) (by omega)).trans (if_neg (by simp))
  generalize storeElem s (.window 0) 0x801001 p.val v = u at hans hst
  refine ⟨fun hbad => h.refuses ho p.isLt rfl hv hgate (by decide) (.inr rfl) fun _ hle => absurd hle (Nat.not_le.mpr hbad),
    fun hok => ?_⟩
  obtain ⟨t, hnext, hdone, ht⟩ := h.accepts ho p.isLt rfl hv hgate (Nat.zero_le v) hok hans
  obtain ⟨henabled, hstate⟩ := enablePort_obj u (p.isLt.trans (by decide)) v
  exact ⟨t, hnext, hdone, (ht.obj ..).trans henabled, (ht.obj ..).trans (hst ▸ hstate)⟩

end Sys2Proof.Machine
end

section
/-!
O52: THERMAL_RESTART, FN_QUIESCE, FN_RESUME and MODULE_CMD (R421, R437, R492, R498, R512).
-/
namespace Sys2Proof.Machine
open Sys2Proof.Claims

/-! ## The start that a control begins -/

theorem beginStart_start (s : State) (cold : Bool) (cause : Nat) :
    (beginStart s cold cause).ctl.start = some ⟨cold, cause, nextStart s, false, false⟩ := by
  unfold beginStart
  dsimp only
  rw [State.setModule_ctl, (RecordsStart.printStart _).ctl]

theorem beginWarm_starts (s : State) (cause : Nat) : (beginWarm s cause).moduleState = 3 ∧
    ∃ r, (beginWarm s cause).ctl.start = some r ∧ r.cold = false ∧ r.cause = cause := by
  refine ⟨State.obj_setObj_same .., ?_⟩
  unfold beginWarm
  exact ⟨_, beginStart_start .., rfl, rfl⟩

theorem beginCold_starts (s : State) (cause : Nat) : (beginCold s cause).moduleState = 5 ∧
    ∃ r, (beginCold s cause).ctl.start = some r ∧ r.cold = true ∧ r.cause = cause := by
  refine ⟨State.obj_setObj_same .., ?_⟩
  unfold beginCold
  exact ⟨_, beginStart_start .., rfl, rfl⟩

theorem OnlyRegs.moduleState {s t : State} (h : OnlyRegs s t) : t.moduleState = s.moduleState := h.obj ..

theorem OnlyRegs.fnState {s t : State} (h : OnlyRegs s t) (f : Nat) : t.fnState f = s.fnState f := h.obj ..

/-- Service hold lets the writes through that may end it (R512). -/
theorem gate_hold {s : State} {key v : Nat} (hm : s.moduleState = 4) (hw : holdWrite key v = true) : gate s 2 key v = none := by
  simp [gate, hm, hw]

theorem moduleState_le_of_released {s : State} (h : s.released = true) : s.moduleState ≤ 2 := of_decide_eq_true h

/-! ## THERMAL_RESTART -/

theorem takesElem_thermalRestart : takesElem 0x9030 3 1 ⟨0x903003, 1, 0, 2, false, 1, 1, 0, 0, 1⟩ = true := by decide +kernel

/-- A released module has nothing to restart from (R492). -/
theorem thermalRestart_refused {s : State} {x : Out} (h : PfRow s x 0x9030 3 0 1 1) (hrel : s.released = true) :
    ∃ t, x = .next t ∧ Answered t 0 13 ∧ t.dict = s.dict ∧ t.mem = s.mem := by
  have hans : writeObj s (.window 0) 0x903003 0 1 1 [(0, 1)] = thermalRestart s 1 := rfl
  have hm := moduleState_le_of_released hrel
  refine h.refuses takesElem_thermalRestart (by decide) rfl (show 1 < 2 ^ 8 by decide) (gate_released hrel ..) (by decide)
    (.inl (by decide)) fun _ _ => hans.trans ?_
  rw [thermalRestart, if_neg (by decide), if_neg (by omega)]
  rfl

/-- A cool module that heat shut down starts cold, with cause 02h (R492). -/
theorem thermalRestart_starts {s : State} {x : Out} (h : PfRow s x 0x9030 3 0 1 1) (hm : s.moduleState = 4)
    (hheat : s.ctl.thermalHold = true) (hcool : junctionsCool s = true) :
    ∃ t, x = .next t ∧ t.moduleState = 5 ∧ ∃ r, t.ctl.start = some r ∧ r.cold = true ∧ r.cause = 2 := by
  have hans : writeObj s (.window 0) 0x903003 0 1 1 [(0, 1)] = thermalRestart s 1 := rfl
  obtain ⟨t, hnext, -, ht⟩ := h.accepts takesElem_thermalRestart (by decide) rfl (show 1 < 2 ^ 8 by decide)
    (gate_hold hm (by decide)) (by decide) (by decide)
    (hans.trans ((if_neg (by decide)).trans (if_pos ⟨hm, hheat, hcool⟩)))
  obtain ⟨hmodule, hstart⟩ := beginCold_starts s 2
  exact ⟨t, hnext, ht.moduleState.trans hmodule, ht.ctl ▸ hstart⟩

/-! ## FN_QUIESCE and FN_RESUME -/

theorem fnState_setFn (s : State) {f g : Nat} (hf : f < 256) (hg : g < 256) (v : Nat) :
    (s.setFn f v).fnState g = if g = f then v else s.fnState g := by
  refine (State.obj_setObj s v (by decide) (by decide) (by omega) (by omega)).trans ?_
  simp [eq_comm, State.fnState]

theorem fnQuiesce_drains {s : State} {x : Out} {v : Nat} (h : PfRow s x 0x7050 3 0 1 v) (hrel : s.released = true)
    (hv : v < 2 ^ 8) (hpres : fnPresent s (Fin.ofNat 256 v) = true) :
    (s.fnState v ≠ 2 → ∃ t, x = .next t ∧ Answered t 0 13 ∧ t.dict = s.dict) ∧
    (s.fnState v = 2 → ∃ t, x = .next t ∧ Answered t 0 0 ∧ t.fnState v = 3 ∧ t.now = s.now ∧
      (sget (fun _ => none) t.host.drains v).isSome = true) := by
  have ho : takesElem 0x7050 3 1 ⟨0x705003, 2, 0, 2, false, 1, 1, 0, 0, 255⟩ = true := by decide +kernel
  have hgate := gate_released hrel 2 (0x7050 * 256 + 3) v
  have hhi : v ≤ 255 := by omega
  have hans : writeObj s (.window 0) 0x705003 0 1 v [(0, v)] = fnQuiesce s v := rfl
  have habsent : ¬fnPresent s (Fin.ofNat 256 v) = false := fun h0 => Bool.noConfusion (hpres.symm.trans h0)
  refine ⟨fun hbad => ?_, fun hready => ?_⟩
  · obtain ⟨t, hnext, hdone, hdict, -⟩ := h.refuses ho (by decide) rfl hv hgate (by decide) (.inl ⟨Nat.zero_le v, hhi⟩)
      fun _ _ => hans.trans ((if_neg habsent).trans (if_pos hbad))
    exact ⟨t, hnext, hdone, hdict⟩
  · obtain ⟨t, hnext, hdone, ht⟩ := h.accepts ho (by decide) rfl hv hgate (Nat.zero_le v) hhi
      (hans.trans ((if_neg habsent).trans (if_neg (not_not.mpr hready))))
    refine ⟨t, hnext, hdone, (ht.fnState v).trans (State.obj_setObj_same s 0x7050 1 v 3), ht.now, ?_⟩
    rw [ht.host, beginDrain]
    exact congrArg Option.isSome (sget_sset_same (fun _ => none) s.host.drains v (some ⟨s.now, drainLimit s v, tickPeriod s⟩))

theorem fnResume_resumes {s : State} {x : Out} {v : Nat} (h : PfRow s x 0x7050 4 0 1 v) (hrel : s.released = true)
    (hv : v < 2 ^ 8) (hpres : fnPresent s (Fin.ofNat 256 v) = true) :
    (s.fnState v ≠ 4 → ∃ t, x = .next t ∧ Answered t 0 13 ∧ t.dict = s.dict) ∧
    (s.fnState v = 4 → ∃ t, x = .next t ∧ Answered t 0 0 ∧ t.fnState v = 2) := by
  have ho : takesElem 0x7050 4 1 ⟨0x705004, 2, 0, 2, false, 1, 1, 0, 0, 255⟩ = true := by decide +kernel
  have hgate := gate_released hrel 2 (0x7050 * 256 + 4) v
  have hhi : v ≤ 255 := by omega
  have hans : writeObj s (.window 0) 0x705004 0 1 v [(0, v)] = fnResume s v := rfl
  have habsent : ¬fnPresent s (Fin.ofNat 256 v) = false := fun h0 => Bool.noConfusion (hpres.symm.trans h0)
  refine ⟨fun hbad => ?_, fun hquiesced => ?_⟩
  · obtain ⟨t, hnext, hdone, hdict, -⟩ := h.refuses ho (by decide) rfl hv hgate (by decide) (.inl ⟨Nat.zero_le v, hhi⟩)
      fun _ _ => hans.trans ((if_neg habsent).trans (if_pos hbad))
    exact ⟨t, hnext, hdone, hdict⟩
  · obtain ⟨t, hnext, hdone, ht⟩ := h.accepts ho (by decide) rfl hv hgate (Nat.zero_le v) hhi
      (hans.trans ((if_neg habsent).trans (if_neg (not_not.mpr hquiesced))))
    exact ⟨t, hnext, hdone, (ht.fnState v).trans (State.obj_setObj_same s 0x7050 1 v 2)⟩

/-! ## MODULE_CMD -/

/-- What moves one function to a state, and no other object. -/
def MovesFn (step : State → Nat → State) (v : Nat) : Prop :=
  ∀ s f, f < 256 → KeptOutside [0x7050] s (step s f) ∧ ∀ g < 256, (step s f).fnState g = if g = f then v else s.fnState g

theorem movesFn_of_setFn {step : State → Nat → State} {v : Nat} (hd : ∀ s f, (step s f).dict = (s.setFn f v).dict)
    (hg : ∀ s f, (step s f).grade = s.grade) (hl : ∀ s f, (step s f).mgmt = s.mgmt) : MovesFn step v := by
  intro s f hf
  have hset : KeptOutside [0x7050] s (s.setFn f v) := KeptOutside.refl.thenSetObj (by decide) (by decide) (by omega)
  refine ⟨hset.trans (.of_same (hg s f) (hd s f) (congrArg MgmtState.logPend (hl s f))), fun g hgf => ?_⟩
  exact (State.obj_eq_of_dict (hd s f) (hg s f) ..).trans (fnState_setFn s hf hgf v)

theorem movesFn_drain : MovesFn (fun s f => setMoved (beginDrain s f (drainLimit s f)) f true) 3 :=
  movesFn_of_setFn (fun _ _ => rfl) (fun _ _ => rfl) fun _ _ => rfl

theorem movesFn_resume : MovesFn (fun s f => resumeFn (endDrain s f) f) 2 :=
  movesFn_of_setFn (fun _ _ => rfl) (fun _ _ => rfl) fun _ _ => rfl

theorem MovesFn.foldl_kept {step : State → Nat → State} {v : Nat} (h : MovesFn step v) {l : List Nat} (hl : ∀ f ∈ l, f < 256)
    (s : State) : KeptOutside [0x7050] s (l.foldl step s) :=
  .thenFoldl l (fun s f hf => (h s f (hl f hf)).1) .refl

theorem MovesFn.foldl_fnState {step : State → Nat → State} {v : Nat} (h : MovesFn step v) {l : List Nat}
    (hl : ∀ f ∈ l, f < 256) (s : State) {g : Nat} (hg : g < 256) :
    (l.foldl step s).fnState g = if g ∈ l then v else s.fnState g := by
  induction l generalizing s with
  | nil => simp
  | cons f l ih =>
    obtain ⟨hf, hl⟩ := List.forall_mem_cons.mp hl
    rw [List.foldl_cons, ih hl, (h s f hf).2 g hg]
    by_cases hgf : g = f <;> by_cases hgl : g ∈ l <;> simp [hgf, hgl]

theorem mem_allFns_filter {p : Nat → Bool} {f : Nat} : f ∈ allFns.filter p ↔ f < 256 ∧ p f = true := by
  rw [List.mem_filter, allFns, List.mem_range]

/-- A module that quiesces drains every READY function (R498). -/
theorem quiesceModule_drains (s : State) : (quiesceModule s).moduleState = 1 ∧
    ∀ f : Fn, (quiesceModule s).fnState f.val = if s.fnState f.val = 2 then 3 else s.fnState f.val := by
  have hl : ∀ f ∈ allFns.filter fun f => decide (s.fnState f = 2), f < 256 := fun f hf => (mem_allFns_filter.mp hf).1
  refine ⟨((movesFn_drain.foldl_kept hl _).obj _ _ _ (by decide) (by decide) (by decide)).trans (State.obj_setObj_same ..),
    fun f => (movesFn_drain.foldl_fnState hl _ f.isLt).trans ?_⟩
  have hmodule : (s.setModule 1).fnState f.val = s.fnState f.val :=
    (State.obj_setObj s _ (by decide) (by decide) (by decide) (by omega)).trans (if_neg (by simp))
  simp only [mem_allFns_filter, f.isLt, true_and, decide_eq_true_eq, hmodule]

/-- A module that runs again takes its race mode and resumes the functions that the module command moved (R268, R498). -/
theorem resumeModule_resumes (s : State) : (resumeModule s).moduleState = 0 ∧ (resumeModule s).coh.raceMode = s.obj 0x2040 1 0 ∧
    ∀ f : Fn, wasMoved s f.val = true → s.fnState f.val = 4 → (resumeModule s).fnState f.val = 2 := by
  have hl : ∀ f ∈ allFns.filter fun f => wasMoved s f && (decide (s.fnState f = 4) || decide (s.fnState f = 3)), f < 256 :=
    fun f hf => (mem_allFns_filter.mp hf).1
  have hkept := movesFn_resume.foldl_kept hl s
  have hfns := fun f : Fn => movesFn_resume.foldl_fnState hl s f.isLt
  unfold resumeModule
  extract_lets u
  refine ⟨State.obj_setObj_same u 0x2002 2 0 0, hkept.obj _ _ _ (by decide) (by decide) (by decide), fun f hmoved hquiesced => ?_⟩
  have hmodule : (u.setModule 0).fnState f.val = u.fnState f.val :=
    (State.obj_setObj u _ (by decide) (by decide) (by decide) (by omega)).trans (if_neg (by simp))
  exact hmodule.trans ((hfns f).trans (if_pos (mem_allFns_filter.mpr ⟨f.isLt, by simp [hmoved, hquiesced]⟩)))

theorem takesElem_moduleCmd : takesElem 0x2002 1 1 ⟨0x200201, 2, 0, 2, false, 1, 1, 0, 1, 3⟩ = true := by decide +kernel

section
variable {s : State} {x : Out}

theorem writeObj_moduleCmd (s : State) (v : Nat) (l : List (Nat × Nat)) :
    writeObj s (.window 0) 0x200201 0 1 v l = moduleCmd s v := rfl

theorem moduleQuiesce_drains (h : PfRow s x 0x2002 1 0 1 1) (hrel : s.released = true) (hm : s.moduleState = 0) :
    ∃ t, x = .next t ∧ Answered t 0 0 ∧ t.moduleState = 1 ∧
      ∀ f : Fn, t.fnState f.val = if s.fnState f.val = 2 then 3 else s.fnState f.val := by
  obtain ⟨t, hnext, hdone, ht⟩ := h.accepts takesElem_moduleCmd (by decide) rfl (show 1 < 2 ^ 8 by decide) (gate_released hrel ..)
    (by decide) (by decide) ((writeObj_moduleCmd ..).trans ((if_pos rfl).trans (if_pos hm)))
  obtain ⟨hmodule, hfns⟩ := quiesceModule_drains s
  exact ⟨t, hnext, hdone, ht.moduleState.trans hmodule, fun f => (ht.fnState f.val).trans (hfns f)⟩

theorem moduleResume_runs (h : PfRow s x 0x2002 1 0 1 2) (hrel : s.released = true) (hm : s.moduleState = 2)
    (hserve : serviceState s = 0) : ∃ t, x = .next t ∧ Answered t 0 0 ∧ t.moduleState = 0 ∧ t.coh.raceMode = s.obj 0x2040 1 0 ∧
      ∀ f : Fn, wasMoved s f.val = true → s.fnState f.val = 4 → t.fnState f.val = 2 := by
  have hans : moduleCmd s 2 = (stOk, resumeModule s) := by
    rw [moduleCmd, if_neg (by decide), if_pos rfl, cmdResume, if_neg (by omega), if_pos ⟨hm, .inl hserve⟩, if_pos hserve]
  obtain ⟨t, hnext, hdone, ht⟩ := h.accepts takesElem_moduleCmd (by decide) rfl (show 2 < 2 ^ 8 by decide) (gate_released hrel ..)
    (by decide) (by decide) ((writeObj_moduleCmd ..).trans hans)
  obtain ⟨hmodule, hrace, hfns⟩ := resumeModule_resumes s
  exact ⟨t, hnext, hdone, ht.moduleState.trans hmodule, (congrArg CohState.raceMode ht.coh).trans hrace,
    fun f hmoved hquiesced => (ht.fnState f.val).trans (hfns f hmoved hquiesced)⟩

theorem moduleWarmStart_warm (h : PfRow s x 0x2002 1 0 1 3) (hrel : s.released = true) :
    ∃ t, x = .next t ∧ t.moduleState = 3 ∧ ∃ r, t.ctl.start = some r ∧ r.cold = false ∧ r.cause = 6 := by
  have hm := moduleState_le_of_released hrel
  have hans : moduleCmd s 3 = (stOk, beginWarm s 6) := by
    rw [moduleCmd, if_neg (by decide), if_neg (by decide), cmdWarmStart, if_neg (by omega), if_pos hrel]
  obtain ⟨hmodule, hstart⟩ := beginWarm_starts s 6
  generalize beginWarm s 6 = u at hans hmodule hstart
  obtain ⟨t, hnext, -, ht⟩ := h.accepts takesElem_moduleCmd (by decide) rfl (show 3 < 2 ^ 8 by decide) (gate_released hrel ..)
    (by decide) (by decide) ((writeObj_moduleCmd ..).trans hans)
  exact ⟨t, hnext, ht.moduleState.trans hmodule, ht.ctl ▸ hstart⟩

/-- From service hold that heat did not cause, the command starts the module cold, with cause 04h (R512). -/
theorem moduleWarmStart_cold (h : PfRow s x 0x2002 1 0 1 3) (hm : s.moduleState = 4) (hheat : s.ctl.thermalHold = false) :
    ∃ t, x = .next t ∧ t.moduleState = 5 ∧ ∃ r, t.ctl.start = some r ∧ r.cold = true ∧ r.cause = 4 := by
  have hans : moduleCmd s 3 = (stOk, beginCold (s.setObj 0x5010 2 0 0) 4) := by
    rw [moduleCmd, if_neg (by decide), if_neg (by decide), cmdWarmStart, if_pos hm, if_neg (by simp [hheat])]
  obtain ⟨t, hnext, -, ht⟩ := h.accepts takesElem_moduleCmd (by decide) rfl (show 3 < 2 ^ 8 by decide)
    (gate_hold hm (by decide)) (by decide) (by decide) ((writeObj_moduleCmd ..).trans hans)
  obtain ⟨hmodule, hstart⟩ := beginCold_starts (s.setObj 0x5010 2 0 0) 4
  exact ⟨t, hnext, ht.moduleState.trans hmodule, ht.ctl ▸ hstart⟩

end
end Sys2Proof.Machine
end

section
/-!
O52: CONFIG_DEFAULTS, and the controls of the dictionary together (R432, R433).
-/
namespace Sys2Proof.Machine
open Sys2Proof.Claims

/-! ## What stored elements leave of PIN_WAYS -/

/-- An object is not reached by writes to one of a higher index. -/
theorem State.obj_setObj_above (s : State) {i sub e i' sub' e' : Nat} (v : Nat) (hi : i' < i) (hs : sub' < 256)
    (he : e' < 2 ^ 20) : (s.setObj i sub e v).obj i' sub' e' = s.obj i' sub' e' := by
  simp only [State.obj, State.setObj]
  refine sget_sset_other _ _ _ ?_
  unfold dkey
  omega

/-- PIN_WAYS. -/
def pinWays (s : State) : Nat := s.obj 0x2030 2 0

theorem pinWays_setObj_above (s : State) {i : Nat} (h : 0x2030 < i) (sub e v : Nat) : pinWays (s.setObj i sub e v) = pinWays s :=
  State.obj_setObj_above s v h (by decide) (by decide)

theorem Kept.pinWays {s t : State} (h : Kept s t) : pinWays t = pinWays s := h.obj _ _ _ (by decide) (by decide) (by decide)

theorem pinWays_foldl {α : Type} {f : State → α → State} (hf : ∀ s x, pinWays (f s x) = pinWays s) (l : List α) (s : State) :
    pinWays (l.foldl f s) = pinWays s :=
  foldl_keeps (P := fun t => pinWays t = pinWays s) (fun t x h => (hf t x).trans h) l rfl

theorem trimWays_kept (s : State) : Kept s (trimWays s) := by
  refine .thenFoldl (fun s p => ?_) _ (.thenFoldl (fun s p => .ite ?_ .refl) _ (balanceAll_kept s))
  · refine .ite ?_ .refl
    split
    · exact Kept.refl.thenEvictHome
    · exact .refl
  · unfold makeNearRoom
    dsimp only
    split
    · exact .refl
    · split
      · exact .refl
      · exact Kept.refl.thenEvictNear

theorem pinWays_portDown (s : State) {p : Nat} (he : p < 2 ^ 20) (new : Nat) : pinWays (portDown s p new) = pinWays s := by
  obtain ⟨u, hu, hdown⟩ := portDown_ports s he new
  have hcleared : pinWays (portCleared u p new) = pinWays u :=
    (pinWays_setObj_above _ (by decide) ..).trans
      ((pinWays_setObj_above _ (by decide) ..).trans (pinWays_setObj_above _ (by decide) ..))
  exact (hdown.obj _ _ _ (by decide) (by decide) (by decide)).trans
    (hcleared.trans (hu.obj _ _ _ (by decide) (by decide) (by decide)))

theorem pinWays_enablePort (s : State) {p : Nat} (he : p < 2 ^ 20) (v : Nat) : pinWays (enablePort s p v) = pinWays s := by
  have hset (t : State) (sub v : Nat) : pinWays (t.setObj 0x8010 sub p v) = pinWays t := pinWays_setObj_above t (by decide) ..
  have hdomains (t : State) : pinWays (portDomains t) = pinWays t := portDomains_obj t ..
  unfold enablePort
  extract_lets u
  have hu : pinWays u = pinWays s := hset ..
  split
  · exact hu
  split
  · split
    · exact hu
    · exact (hdomains _).trans ((pinWays_portDown u he 0).trans hu)
  split
  · exact (hdomains _).trans ((hset ..).trans hu)
  · exact hu

theorem pinWays_startMirror (s : State) (i : Nat) : pinWays (startMirror s i) = pinWays s := by
  obtain ⟨c, n, hmirror⟩ := startMirror_eq s i
  rw [hmirror]
  exact pinWays_setObj_above { s with mem := { s.mem with ctrl := c }, stamp := n } (by decide) ..

theorem pinWays_updateSetPoints (s : State) : pinWays (updateSetPoints s) = pinWays s :=
  pinWays_foldl (fun _ _ => pinWays_setObj_above _ (by decide) ..) _ s

/-- No element's effect writes PIN_WAYS. -/
theorem pinWays_elemEffect (s : State) (key : Nat) {e : Nat} (he : e < 2 ^ 20) (old v : Nat) :
    pinWays (elemEffect s key e old v) = pinWays s := by
  unfold elemEffect
  split
  case h_1 => split <;> rfl
  case h_2 => exact (trimWays_kept s).pinWays
  case h_3 => exact (balanceAll_kept s).pinWays
  case h_4 => exact pinWays_startMirror s e
  case h_5 => exact pinWays_setObj_above s (by decide) ..
  case h_6 => exact pinWays_setObj_above s (by decide) ..
  case h_7 => exact (closeKeySessions_kept s e).obj _ _ _ (by decide) (by decide) (by decide)
  case h_8 => exact pinWays_setObj_above _ (by decide) ..
  case h_9 => exact pinWays_enablePort s he v
  case h_10 => exact pinWays_updateSetPoints s
  case h_11 => rfl

/-- A stored element of the configuration writes PIN_WAYS where it is PIN_WAYS. -/
theorem pinWays_putElem {key : Nat} (hk : isConfig key = true) (s : State) (who : Requester) {e : Nat}
    (he : e < 2 ^ 20) (v : Nat) : pinWays (putElem who key s (e, v)) = if key = 0x203002 ∧ e = 0 then v else pinWays s := by
  have hplain : key ∉ [0x500003, 0x703001, 0x802002, 0x802003] := by
    have hnone : ∀ k ∈ [0x500003, 0x703001, 0x802002, 0x802003], isConfig k = false := by decide +kernel
    exact fun hmem => Bool.noConfusion ((hnone key hmem).symm.trans hk)
  obtain ⟨m, hm⟩ := storeElem_plain hplain s who e v
  have hset : pinWays (s.setObj (key / 256) (key % 256) e v) = if key = 0x203002 ∧ e = 0 then v else pinWays s := by
    refine (State.obj_setObj s v (Nat.mod_lt _ (by decide)) (by decide) he (by decide)).trans ?_
    have hiff : (0x2030 = key / 256 ∧ 2 = key % 256 ∧ 0 = e) ↔ (key = 0x203002 ∧ e = 0) := by omega
    simp only [hiff, pinWays]
  refine (pinWays_elemEffect _ key he ..).trans ?_
  rw [hm]
  exact hset

/-! ## CONFIG_DEFAULTS -/

/-- One element of the configuration returns to its default. -/
def defaultElem (who : Requester) (s : State) (k : Nat) : State := putElem who (k / 2 ^ 20) s (k % 2 ^ 20, dictDefault s.grade k)

theorem pinWays_defaultElem (who : Requester) {k : Nat} (hk : isConfig (k / 2 ^ 20) = true) (s : State) :
    pinWays (defaultElem who s k) = if k = dkey 0x2030 2 0 then 8 else pinWays s := by
  refine (pinWays_putElem hk s who (Nat.mod_lt _ (by decide)) _).trans ?_
  have hiff : (k / 2 ^ 20 = 0x203002 ∧ k % 2 ^ 20 = 0) ↔ k = dkey 0x2030 2 0 := by
    unfold dkey
    omega
  simp only [hiff]
  split
  case isTrue h => rw [h]; rfl
  case isFalse => rfl

/-- Where PIN_WAYS is among the elements, or at its default, it is at its default after them. -/
theorem pinWays_defaults (who : Requester) {l : List Nat} (hl : ∀ k ∈ l, isConfig (k / 2 ^ 20) = true) (s : State)
    (h : dkey 0x2030 2 0 ∈ l ∨ pinWays s = 8) : pinWays (l.foldl (defaultElem who) s) = 8 := by
  induction l generalizing s with
  | nil => exact h.resolve_left (by simp)
  | cons k l ih =>
    obtain ⟨hk, hl⟩ := List.forall_mem_cons.mp hl
    refine ih hl _ ?_
    rw [pinWays_defaultElem who hk]
    by_cases hkey : k = dkey 0x2030 2 0
    · exact .inr (if_pos hkey)
    · rw [if_neg hkey]
      exact h.imp_left fun hmem => (List.mem_cons.mp hmem).resolve_left (Ne.symm hkey)

/-- The elements of the configuration that the dictionary lists. -/
def configKeys (s : State) : List Nat := (s.dict.map Prod.fst).filter fun k => isConfig (k / 2 ^ 20)

theorem pinWays_listed (s : State) : dkey 0x2030 2 0 ∈ configKeys s ∨ pinWays s = 8 := by
  by_cases hmem : dkey 0x2030 2 0 ∈ s.dict.map Prod.fst
  · exact .inl (List.mem_filter.mpr ⟨hmem, by decide +kernel⟩)
  · exact .inr (sget_of_keys_ne _ fun p hp heq => hmem (heq ▸ List.mem_map_of_mem hp))

theorem configDefaults_eq {s : State} (who : Requester) (hm : s.moduleState = 2) :
    ∃ u, configDefaults s who 1 = (stOk, u) ∧ u.mgmt.persist = [] ∧ pinWays u = 8 := by
  have hans : configDefaults s who 1 = (stOk, { (configKeys s).foldl (defaultElem who) s with
      mgmt := { ((configKeys s).foldl (defaultElem who) s).mgmt with persist := [] } }) :=
    (if_neg (not_not.mpr hm)).trans (if_neg (by decide))
  exact ⟨_, hans, rfl, pinWays_defaults who (fun k hk => (List.mem_filter.mp hk).2) s (pinWays_listed s)⟩

/-- The configuration of a QUIESCED module returns to its defaults (R432). -/
theorem configDefaults_returns {s : State} {x : Out} (h : PfRow s x 0x2002 3 0 1 1) (hrel : s.released = true) :
    (s.moduleState ≠ 2 → ∃ t, x = .next t ∧ Answered t 0 3 ∧ t.dict = s.dict) ∧
    (s.moduleState = 2 → ∃ t, x = .next t ∧ Answered t 0 0 ∧ t.mgmt.persist = [] ∧ t.obj 0x2030 2 0 = 8) := by
  have ho : takesElem 0x2002 3 1 ⟨0x200203, 1, 0, 2, false, 1, 1, 0, 0, 1⟩ = true := by decide +kernel
  have hgate := gate_released hrel 2 (0x2002 * 256 + 3) 1
  have hans : writeObj s (.window 0) 0x200203 0 1 1 [(0, 1)] = configDefaults s (.window 0) 1 := rfl
  refine ⟨fun hbad => ?_, fun hm => ?_⟩
  · obtain ⟨t, hnext, hdone, hdict, -⟩ := h.refuses ho (by decide) rfl (show 1 < 2 ^ 8 by decide) hgate (by decide)
      (.inl (by decide)) fun _ _ => hans.trans (if_pos hbad)
    exact ⟨t, hnext, hdone, hdict⟩
  · obtain ⟨u, hu, hpersist, hways⟩ := configDefaults_eq (.window 0) hm
    obtain ⟨t, hnext, hdone, ht⟩ := h.accepts ho (by decide) rfl (show 1 < 2 ^ 8 by decide) hgate (by decide) (by decide)
      (hans.trans hu)
    exact ⟨t, hnext, hdone, (congrArg MgmtState.persist ht.mgmt).trans hpersist, (ht.obj ..).trans hways⟩

end Sys2Proof.Machine
end

section
/-!
O52: the controls of the dictionary together.
-/
namespace Sys2Proof.Machine
open Sys2Proof.Claims

theorem toNat_lt {w : Nat} (v : BitVec w) : v.toNat < 2 ^ w := v.isLt

theorem requester_of_asks {s : State} {i : Instr} {who : Requester} {r : DictReq} (h : PfAsks s i)
    (hown : ownRequest i = some (who, r)) : who = .window 0 := by
  obtain ⟨-, -, q, hq, -⟩ := h
  cases hown.symm.trans hq
  rfl

theorem timeOk_of_asks {s : State} {i : Instr} (h : PfAsks s i) : TimeOk s i := by
  obtain ⟨-, htime, -⟩ := h
  exact htime

/-- A row that carries its moment stands in the PF's window at that moment. -/
theorem pfRow_at {s : State} {i : Instr} {who : Requester} {idx sub off n v ns : Nat} (h : PfAsks s i)
    (hown : ownRequest i = some (who, writeReq idx sub off n v)) (hns : s.now ≤ ns)
    (hrow : exec i s = if notBefore s ns then ownWrite who idx sub off n v (s.at ns) else cannot) :
    PfRow (s.at ns) (exec i s) idx sub off n v := by
  obtain ⟨hserved, -, r, hr, hasks⟩ := h
  cases hown.symm.trans hr
  exact ⟨hrow.trans (if_pos (decide_eq_true hns)), hserved, hasks⟩

/-- The row of a page's retirement carries out a write that stands in the PF's window. -/
theorem pfRow_retirePage {s : State} {w : Requester} {v : BitVec 64} {errs : List (Nat × ArrayErr)}
    (h : PfAsks s (.retirePage w v errs)) :
    w = .window 0 ∧ PfRow s (ownWrite (.window 0) 0x2053 1 0 8 v.toNat s) 0x2053 1 0 8 v.toNat := by
  obtain ⟨hserved, -, r, hr, hasks⟩ := h
  cases hr
  exact ⟨rfl, rfl, hserved, hasks⟩

/-- Settles O52: each control answers as its object's rule does, and its effect is that of the rule alone (R441). -/
theorem dictionaryControls : Obligations.DictionaryControls := by
  unfold Obligations.DictionaryControls
  refine ⟨fun i s h => ⟨fun hrel => ⟨?_, ?_, ?_, ?_, ?_, ?_, ?_, ?_, ?_, ?_⟩, ?_⟩,
    fun i s h => ⟨fun hrel => ⟨?_, ?_, ?_, ?_, ?_, ?_⟩, ?_⟩⟩
  case refine_1 =>
    rintro w v rfl
    exact pinWays_stores (pfRow_of_asks h rfl rfl) hrel v.isLt
  case refine_2 =>
    rintro w v rfl
    exact lineProbe_probes (pfRow_of_asks h rfl rfl) hrel v.isLt
  case refine_3 =>
    rintro w n v rfl
    exact monitorConfig_restarts (pfRow_of_asks h rfl rfl) hrel v.isLt
  case refine_4 =>
    rintro w n v rfl
    exact replica_mirrors (pfRow_of_asks h rfl rfl) hrel v.isLt
  case refine_5 =>
    rintro w rfl
    exact scrubStart_starts (pfRow_of_asks h rfl rfl) hrel
  case refine_6 =>
    rintro w v errs rfl
    obtain ⟨rfl, hrow⟩ := pfRow_retirePage h
    exact ⟨retirePage_refused hrow hrel, retirePage_withdraws hrow hrel⟩
  case refine_7 =>
    rintro w n v rfl
    exact clientKeys_closes (pfRow_of_asks h rfl rfl) hrel (toNat_lt v)
  case refine_8 =>
    rintro w off v e rfl hoff he
    exact evcValues_writes (hoff ▸ pfRow_of_asks h rfl rfl) hrel he
  case refine_9 =>
    rintro w p v rfl
    obtain ⟨hrefused, henables⟩ := portEnable_enables (pfRow_of_asks h rfl rfl) hrel v.isLt
    have hzero : v = 0 ↔ v.toNat = 0 := BitVec.toNat_inj.symm
    simp only [hzero]
    exact ⟨hrefused, henables⟩
  case refine_10 =>
    rintro w rfl
    exact thermalRestart_refused (pfRow_of_asks h rfl rfl) hrel
  case refine_11 =>
    rintro w rfl
    exact thermalRestart_starts (pfRow_of_asks h rfl rfl)
  case refine_12 =>
    rintro w v ns rfl
    exact fnQuiesce_drains (s := s.at ns) (pfRow_at h rfl ((timeOk_of_asks h).1 w v ns rfl) rfl) hrel v.isLt
  case refine_13 =>
    rintro w v rfl
    exact fnResume_resumes (pfRow_of_asks h rfl rfl) hrel v.isLt
  case refine_14 =>
    rintro w ns rfl
    exact moduleQuiesce_drains (s := s.at ns) (pfRow_at h rfl ((timeOk_of_asks h).2 w ns rfl) rfl) hrel
  case refine_15 =>
    rintro w rfl
    exact moduleResume_runs (pfRow_of_asks h rfl rfl) hrel
  case refine_16 =>
    rintro w rfl
    exact moduleWarmStart_warm (pfRow_of_asks h rfl rfl) hrel
  case refine_17 =>
    rintro w rfl
    exact configDefaults_returns (pfRow_of_asks h rfl rfl) hrel
  case refine_18 =>
    rintro w rfl
    exact moduleWarmStart_cold (pfRow_of_asks h rfl rfl)

end Sys2Proof.Machine
end
